-- ==== Sys2Proof/Word.lean ====
section
/-! DEFINITION. The word types of the engine: bytes, 32-bit registers (R8) and 64-bit time values (R51). -/
namespace Sys2Proof

/-- One byte of a cell, of a memory or of a flash structure. -/
abbrev Byte := BitVec 8

/-- One register: 32 bits (R8). -/
abbrev Word := BitVec 32

/-- One machine-time value or one welt: 64 bits (R51, R87). -/
abbrev W64 := BitVec 64

end Sys2Proof
end

