-- ==== Sys2Proof/Syntax.lean ====
section
/-! DEFINITION. The commands the engine takes, one constructor per row of the opcode table. The table gives no operand fields,
so the operands are the model's: the port a cell or record arrives on and its bytes, the stream and step a command is about,
the data an accelerator or the flash returns, the levels at pins. -/
namespace Sys2Proof

/-- The access path of a register read or write (R82, R626). -/
inductive Path where
  | mgt | ctrl
  deriving DecidableEq, Repr

/-- What SFDP discovery finds in the flash (R500): the signature, 4-byte addressing in the Basic Flash Parameter Table, the
4-Byte Address Instruction Table, the reads that table marks supported, and the dummy cycles of the 1-1-4 and 1-1-2 reads. -/
structure Sfdp where
  sig : Bool
  four : Bool
  table : Bool
  r114 : Bool
  r112 : Bool
  r111 : Bool
  d114 : Nat
  d112 : Nat
  deriving DecidableEq, Repr

/-- A management frame as its bits arrive (R503): its complete words, and the bits of a last word that ends partway, as a
number, right-aligned. -/
structure Frame where
  words : List Word
  bits : Nat := 0
  tail : Nat := 0
  deriving DecidableEq, Repr

/-- A command. `n` names a port (31: the engine itself) or a partition, `k` a stream, `idx` a step of it, `b` the 76 bytes of a
cell or the 64 of a link record, `a` a register address or offset, `v` a value written. -/
inductive Instr where
  /-- REGISTER_WRITE (R8): A management, CTRL or image write to a register that has no row of its own acts under the
  register's access code and apply point. -/
  | registerWrite (p : Path) (a : Nat) (v : Word)
  /-- STAGED_APPLY (R448): At a partition step boundary the pending staged values of that partition apply before any
  launch of the tick. -/
  | stagedApply (n : Nat)
  /-- REF_LOST (R46): REFCLK edges missing for 64 ticks or off-frequency beyond 200 ppm put the PLL into holdover
  and raise loss of lock. -/
  | refLost
  /-- SWITCH_TO_LOCAL_OSC (R47): With FALLBACK_EN set, the PLL switches to the local oscillator within 4,096 ticks
  of REFCLK loss. -/
  | switchToLocalOsc
  /-- REF_RESTORED (R48): After REFCLK has been valid for 2^24 ticks the PLL returns to it without a short or
  missing CCLK period. -/
  | refRestored
  /-- ROOT_PLL_LOSS (R49): Loss of lock of the root PLL drives the engine into warm reset. -/
  | rootPllLoss
  /-- MARK_EDGE (R54): An accepted MARK edge leaves the MTC unchanged, jumps it forward or holds it, by its low 24
  bits. -/
  | markEdge
  /-- MARK_MISS (R56): A MARK edge missing for more than 4 ticks is counted, and the fourth consecutive miss raises
  loss of lock and sets RACK_FALLBACK. -/
  | markMiss
  /-- SYNC_SEND (R59): Every 2^14 free-running ticks the engine queues one SYNC cell on each ACTIVE BRD, RCK and OPT
  port. -/
  | syncSend
  /-- SYNC (R63): A received SYNC cell is consumed and, from the parent port, yields a steering sample that jumps,
  holds or sets a pending correction. -/
  | sync (n : Nat) (b : List Byte)
  /-- STEER_INCREMENT (R63): At each 1,024-tick boundary of local_ticks a pending correction adds or skips one MTC
  increment. -/
  | steerIncrement
  /-- HOLD_END (R63): When a hold's count of ticks runs out, the MTC resumes counting. -/
  | holdEnd
  /-- MODE_CONFLICT_CLEAR (R631): MODE_CONFLICT clears after 4 sync periods without a conflicting SYNC. -/
  | modeConflictClear
  /-- ROOT_LOST (R71): After 4 sync periods without a SYNC naming the root on the parent port, the engine moves its
  parent, re-elects or sets ROOT_LOST. -/
  | rootLost
  /-- ROOT_SELF_JOIN (R75): An engine that has announced itself as root for 3 sync periods without hearing a lower
  ID sets JOINED. -/
  | rootSelfJoin
  /-- ISLAND (R76): An engine not joined 2^26 ticks after boot step 6 begins sets JOINED and ISLAND and keeps its
  own time. -/
  | island
  /-- LAUNCH (R78): A stream's launch comparator fires when the MTC reaches the launch time, the step is tested and
  its actions begin 2 ticks later. -/
  | launch (k : Nat)
  /-- MTC_NOW_LO_READ (R82): A read of MTC_NOW_LO returns the low MTC bits and latches the high bits for that access
  path. -/
  | mtcNowLoRead (p : Path)
  /-- STR_BASE_LO_READ (R82): A read of STRn_BASE_LO returns the low base bits and latches the high bits for that
  access path. -/
  | strBaseLoRead (p : Path) (k : Nat)
  /-- TEL_WINDOW_LO_READ (R627): A read of TEL_WINDOW_LO returns the low bits of the last completed window and
  latches the high bits for that access path. -/
  | telWindowLoRead (p : Path)
  /-- MTC_SNAP (R84): A write to MTC_SNAP captures all 64 MTC bits into MTC_SNAP_LO and MTC_SNAP_HI. -/
  | mtcSnap
  /-- CELL_TRANSMIT (R94): At each cell boundary an output port takes the next cell from its highest waiting class,
  or sends IDLE_FILL. -/
  | cellTransmit (n : Nat)
  /-- IDLE_FILL (R95): A received IDLE_FILL cell is hop-checked and consumed uncounted by the port layer. -/
  | idleFill (n : Nat) (b : List Byte)
  /-- DATA_CELL (R106): A DATA cell delivered to its destination stream is placed at its index in the chunk
  assembly. -/
  | dataCell (n : Nat) (b : List Byte)
  /-- SEAL_CELL (R106): A SEAL cell delivered to its destination stream is held with its chunk assembly. -/
  | sealCell (n : Nat) (b : List Byte)
  /-- CHUNK_LANDING (R107): The chunk check of a complete 65-cell assembly completes four ticks after the last cell,
  stamping its landing and classifying the chunk. -/
  | chunkLanding (src k seq : Nat)
  /-- SEND_RECEIPT (R387): On the tick after a chunk's landing timestamp the receiver queues its RECEIPT. -/
  | sendReceipt
  /-- TRANSIT_CELL (R170): A transit unicast cell is looked up and admitted to an output queue, failed over,
  deflected or discarded. -/
  | transitCell (n : Nat) (b : List Byte)
  /-- MULTICAST_CELL (R195): A multicast cell makes all its copies and its local delivery on the tick it is offered. -/
  | multicastCell (n : Nat) (b : List Byte)
  /-- CODEWORD (R125): A received codeword is decoded, its cell-stream bytes delimited, or it is counted
  uncorrectable and its cells discarded. -/
  | codeword (n : Nat) (ok : Bool) (corr h : Nat) (body : List Byte)
  /-- PORT_SEEK (R127): 1,024 ticks after entering DOWN, an enabled port with an ID moves to SEEK and draws a new
  NONCE. -/
  | portSeek (n : Nat)
  /-- BEACON (R130): A valid beacon received in SEEK, FENCED or TRAIN advances HEARD, leader choice and the move to
  TRAIN. -/
  | beacon (n : Nat) (w : W64)
  /-- TRAIN_COMPLETE (R127): When both receivers are ready and codeword lock is reached, the port enters ALIGN. -/
  | trainComplete (n lanes : Nat)
  /-- TRAIN_FAIL (R632): A port in TRAIN for 2^21 ticks without completion fails to DOWN and counts in its failure
  run. -/
  | trainFail (n : Nat)
  /-- ALIGN (R134): Two identical ALIGN records are accepted and checked, leading the port to ACTIVE or FENCED. -/
  | align (n : Nat) (b : List Byte)
  /-- ALIGN_FAIL (R632): A port in ALIGN for 16,384 ticks without reaching ACTIVE fails to DOWN. -/
  | alignFail (n : Nat)
  /-- KEEP (R137): A KEEP record is checked against PRTn_PEER and completes a lite resume to ACTIVE. -/
  | keep (n : Nat) (b : List Byte)
  /-- DOZE_REQ (R141): A received DOZE_REQ is answered with DOZE_ACK or DOZE_NAK in the next control codeword. -/
  | dozeReq (n : Nat) (b : List Byte)
  /-- DOZE_ACK (R141): A DOZE_ACK puts both ends into DOZE at the end of its codeword. -/
  | dozeAck (n : Nat) (b : List Byte)
  /-- DOZE_NAK (R141): A DOZE_NAK leaves both ends ACTIVE and sets DOZE_REFUSED at the requester. -/
  | dozeNak (n : Nat) (b : List Byte)
  /-- SLEEP_REQ (R141): A received SLEEP_REQ is answered with SLEEP_ACK or SLEEP_NAK. -/
  | sleepReq (n : Nat) (b : List Byte)
  /-- SLEEP_ACK (R141): A SLEEP_ACK puts both ends into SLEEP at the end of its codeword. -/
  | sleepAck (n : Nat) (b : List Byte)
  /-- SLEEP_NAK (R141): A SLEEP_NAK leaves both ends ACTIVE and sets DOZE_REFUSED at the requester. -/
  | sleepNak (n : Nat) (b : List Byte)
  /-- RETRAIN_RECORD (R127): A received RETRAIN record moves an ACTIVE, ALIGN or DOZE port to TRAIN. -/
  | retrainRecord (n : Nat) (b : List Byte)
  /-- FENCE_COMMAND (R127): The FENCE command puts the port into FENCED with REASON ADMIN. -/
  | fenceCommand (n : Nat)
  /-- UNFENCE_COMMAND (R127): The UNFENCE command moves a FENCED port to DOWN. -/
  | unfenceCommand (n : Nat)
  /-- DOZE_COMMAND (R140): The DOZE command makes the port send an administrative DOZE_REQ. -/
  | dozeCommand (n : Nat)
  /-- SLEEP_COMMAND (R143): The SLEEP command sends SLEEP_REQ, or is refused while cells are held for the port. -/
  | sleepCommand (n : Nat)
  /-- RESUME (R144): The RESUME command starts a resume from DOZE or SLEEP and sends WAKE. -/
  | resume (n : Nat)
  /-- RETRAIN_COMMAND (R127): The RETRAIN command moves an ACTIVE, ALIGN or DOZE port to TRAIN. -/
  | retrainCommand (n : Nat)
  /-- CLEAR_FAULT (R127): The CLEAR_FAULT command moves a FAULT port to DOWN and restarts its failure run. -/
  | clearFault (n : Nat)
  /-- PORT_DISABLE (R127): Writing PRTn_CONFIG.ENABLE to 0 puts a non-fenced, non-faulted port into DOWN with REASON
  ADMIN. -/
  | portDisable (n : Nat)
  /-- IDLE_DOZE (R140): When the idle timer expires with AUTO_DOZE set, the port requests DOZE. -/
  | idleDoze (n : Nat)
  /-- WAKE (R145): A detected WAKE starts or merges into a resume of a DOZE or SLEEP port. -/
  | wake (n : Nat)
  /-- RESUME_TIMEOUT (R147): A resume that exceeds its limit of R146 is a link loss. -/
  | resumeTimeout (n : Nat)
  /-- OVERLOAD (R149): Assertion of OPTn_OVL# on an ACTIVE port moves it to ALIGN with LITE and discards overloaded
  cell slots. -/
  | overload (n : Nat)
  /-- OVERLOAD_CLEAR (R151): When the overload indication clears within 16,384 ticks, the port relocks and re-enters
  ACTIVE on a good KEEP. -/
  | overloadClear (n : Nat)
  /-- OVERLOAD_LOCK_TIMEOUT (R151): Without codeword lock 2,048 ticks after the overload clears, the port sends
  RETRAIN and enters TRAIN. -/
  | overloadLockTimeout (n : Nat)
  /-- OVERLOAD_LONG (R152): An overload lasting beyond 16,384 ticks sets OVERLOAD_LONG and sends the port to TRAIN. -/
  | overloadLong (n : Nat)
  /-- PORT_ALONE (R138): A port in SEEK with no valid beacon for 1,600,000 ticks sets PORT_ALONE and restarts
  acquisition periodically. -/
  | portAlone (n : Nat)
  /-- LINK_LOSS (R153): Loss of signal, lock or codewords on a serial port puts it in DOWN with a REASON and counts
  it. -/
  | linkLoss (n : Nat)
  /-- ACCEL_READY (R157): The accelerator's ready signal lets a PKG port leave DOWN for TRAIN. -/
  | accelReady (n : Nat)
  /-- ACCEL_READY_WITHDRAWN (R157): Withdrawal of the accelerator's ready signal in TRAIN or ACTIVE is a link loss
  of the PKG port. -/
  | accelReadyWithdrawn (n : Nat)
  /-- INJECTION_ADMIT (R168): A cell waiting at its source is admitted to its queue once there is room. -/
  | injectionAdmit (k : Nat)
  /-- HELD_COPY_OFFER (R209): A held multicast copy is offered again on each tick, oldest first, and admitted when
  its queue has room. -/
  | heldCopyOffer
  /-- HOLD_EXPIRED (R209): A multicast copy not admitted within LACE_HOLD ticks is dropped as a branch loss. -/
  | holdExpired
  /-- NOTICE (R216): A NOTICE received at the source is matched to a multicast leg and recorded, or discarded as
  stale. -/
  | notice (n : Nat) (b : List Byte)
  /-- NOTICE_KEY_EXPIRE (R214): A suppression key leaves the list 16,384 ticks after it was added. -/
  | noticeKeyExpire
  /-- OPEN_CIRCUIT (R186): An OPEN_CIRCUIT step opens one circuit entry on its engine or faults its stream. -/
  | openCircuit (k idx : Nat)
  /-- CLOSE_CIRCUIT (R187): A CLOSE_CIRCUIT step closes its partition's matching entry or sets CLOSE_MISS. -/
  | closeCircuit (k idx : Nat)
  /-- ACCESS_ISSUE (R237): A one-sided access is checked and issued with a tag, OPN and PSEQ once a tag is free, or
  served locally. -/
  | accessIssue (k idx : Nat) (data : List Byte)
  /-- PUT_DATA (R243): A PUT data cell at the target is placed by INDEX in its assembly slot. -/
  | putData (n : Nat) (b : List Byte)
  /-- PUT_TAIL (R242): A PUT tail at the target passes the target tests and starts the data check. -/
  | putTail (n : Nat) (b : List Byte)
  /-- PUT_CHECK_COMPLETE (R244): When a PUT's data check completes, the target lands, holds, answers as duplicate or
  refuses it by PSEQ. -/
  | putCheckComplete (n stream opn : Nat)
  /-- PUT_LANDED (R246): A PUT lands when memory has acknowledged every byte, and DONE is sent and held accesses
  that are now next land. -/
  | putLanded (n stream opn : Nat)
  /-- GET_REQ (R246): A GET_REQ tail at the target passes its tests and starts the reads. -/
  | getReq (n : Nat) (b : List Byte)
  /-- GET_READ_DONE (R231): When a GET's reads complete, the target sends its data cells and response tail. -/
  | getReadDone (n stream opn : Nat) (data : List Byte)
  /-- ATOMIC (R251): An ATOMIC tail at the target is ordered by PSEQ and performed in two bank ticks, returning
  OLD_VALUE. -/
  | atomic (n : Nat) (b : List Byte)
  /-- GET_RSP (R239): A response tail at the initiator completes, re-issues or faults its access, or is discarded as
  stale. -/
  | getRsp (n : Nat) (b : List Byte)
  /-- GET_RSP_DATA (R241): A GET data cell at the initiator is written to the local destination as it arrives. -/
  | getRspData (n : Nat) (b : List Byte)
  /-- ACCESS_RETX_TIMEOUT (R239): RETX_WAIT ticks without a response re-issue the access as a retry. -/
  | accessRetxTimeout (stream opn : Nat)
  /-- BUSY_REISSUE (R239): 2,048 ticks after a BUSY response the access is re-issued without counting a retry. -/
  | busyReissue (stream opn : Nat)
  /-- MEM_TIMEOUT (R239): An access beyond its third retry or 8 × RETX_WAIT completes with MEM_TIMEOUT and faults
  the stream. -/
  | memTimeout (stream opn : Nat)
  /-- ORDER_SKIP (R245): An access held as ahead for 4 × RETX_WAIT becomes next and the skipped order numbers are
  given up. -/
  | orderSkip (n stream : Nat)
  /-- ASSEMBLY_SLOT_TIMEOUT (R243): An assembly slot without its tail 2 × RETX_WAIT after its first cell is freed
  and counted. -/
  | assemblySlotTimeout
  /-- STAGING_BANK_GRANT (R253): Each staging bank grants one 64-byte access per tick in the order of Table 7.9,
  with SECDED checking. -/
  | stagingBankGrant (w err : Nat)
  /-- PKG_TRANSACTION_DONE (R256): A package transaction is acknowledged, or resent after a failed beat check up to
  3 times. `failed`: the beat that failed its check, none where all are acknowledged. -/
  | pkgTransactionDone (id : Nat) (failed : Option Nat)
  /-- PKG_TIMEOUT (R256): A package transaction without acknowledgement within MEM_PKG_TIMEOUT completes with
  MEM_ERROR. -/
  | pkgTimeout (id : Nat)
  /-- PKG_STAGING_ACCESS (R257): An accelerator package transaction into the staging store is bounds- and
  window-checked and served or refused. -/
  | pkgStagingAccess (p : Nat) (write : Bool) (a len : Nat) (data : List Byte)
  /-- PKG_REGISTER_WRITE (R267): A package register write reaches only PARn_DOORBELL and PARn_CPL_HEAD and is
  refused elsewhere. -/
  | pkgRegisterWrite (p a : Nat) (v : Word)
  /-- DOORBELL (R266): A write to PARn_DOORBELL advances TAIL when the value is within the ring, and is otherwise
  ignored. -/
  | doorbell (n : Nat) (v : Word)
  /-- REQUEST_TAKE (R268): When its conditions hold, the engine starts reading the descriptor at HEAD of a
  partition's request ring. -/
  | requestTake (n : Nat)
  /-- DESCRIPTOR_READ (R271): When the descriptor read completes, HEAD advances and the descriptor is tested. -/
  | descriptorRead (n : Nat) (data : List Byte)
  /-- STREAM_ASSIGN (R272): A request waiting in STARTING takes its stream once that stream is IDLE. -/
  | streamAssign (n : Nat)
  /-- LAST_HEADER_READ (R274): When the Last header and record 0 are read, they are checked and the request
  completes BAD_LAST or LAST_RANKS on failure. -/
  | lastHeaderRead (k : Nat)
  /-- STAGE_RESERVE_GRANT (R276): When the staging reserve is granted, the base time is fixed and step 0 is armed. -/
  | stageReserveGrant (k : Nat)
  /-- STEP_RECORD_READ (R286): A step record read from the Last region completes within 8 ticks. -/
  | stepRecordRead (k : Nat)
  /-- STEP_ARM (R287): The next step is armed once its record is read, its predecessor allows it and fewer than 16
  steps are in flight. -/
  | stepArm (k : Nat)
  /-- END (R283): The END step waits for every earlier step to finish, closes circuits, releases staging and writes
  the completion. -/
  | stepEnd (k : Nat)
  /-- SEND (R283): A SEND step sends LENGTH chunks in order, or PUTs for kind BOARD. -/
  | send (k idx : Nat) (data : List Byte)
  /-- RECV (R283): A RECV step takes LENGTH chunks and writes them, or issues GETs for kind BOARD. -/
  | recv (k idx : Nat)
  /-- RECV_COMBINE (R283): A RECV_COMBINE step combines received chunks with local input and writes the result. -/
  | recvCombine (k idx : Nat)
  /-- COMBINE_SEND (R283): A COMBINE_SEND step combines each chunk from its source rank with local input and sends
  the result on. -/
  | combineSend (k idx : Nat)
  /-- COPY (R283): A COPY step copies LENGTH chunks. -/
  | copy (k idx : Nat) (data : List Byte)
  /-- NARROW (R349): A NARROW step converts chunks to a narrower format. -/
  | narrow (k idx : Nat) (data : List Byte)
  /-- WIDEN (R349): A WIDEN step converts chunks to a wider format. -/
  | widen (k idx : Nat) (data : List Byte)
  /-- WAIT_TIME (R283): A WAIT_TIME step ends on its launch tick. -/
  | waitTime (k idx : Nat)
  /-- BARRIER (R283): A BARRIER step waits until every earlier step has ended. -/
  | barrier (k idx : Nat)
  /-- FENCE (R250): A FENCE step ends when every earlier access, package write and leg of its stream has finished. -/
  | fence (k idx : Nat)
  /-- SHARD_UPDATE (R364): A SHARD_UPDATE step applies the optimizer rule chunk by chunk to the gradient sum, master
  weights and moments. -/
  | shardUpdate (k idx : Nat)
  /-- SIGNAL (R298): A SIGNAL step writes a progress signal word, or issues an ATOMIC ADD for kind BOARD. -/
  | signal (k idx : Nat) (data : List Byte)
  /-- LOOP (R289): A LOOP step takes or counts a loop counter, advancing base and bias and returning to its target
  step. -/
  | loop (k : Nat)
  /-- SIGNAL_WORD_WRITE (R298): After the completion record write is acknowledged, the signal word is written. -/
  | signalWordWrite (n : Nat)
  /-- STAGING_BLOCK_GRANT (R293): A step waiting for a staging block proceeds once a block is free. -/
  | stagingBlockGrant (k idx : Nat)
  /-- STAGING_QUOTA_TIMEOUT (R293): A block still missing at the deadline or after RETX_WAIT faults the stream with
  STAGING_QUOTA. -/
  | stagingQuotaTimeout (k idx : Nat)
  /-- SLOT_GRANT (R317): A waiting position obtains its accumulator slots in order of first landing. -/
  | slotGrant
  /-- COMBINER_OPERATION (R633): A combiner performs one addition, conversion or shard-update chunk when it becomes
  ready, and hands on completed positions. -/
  | combinerOperation (k idx j rank : Nat) (data : List Byte)
  /-- UPDATE_BLOCK_READ (R357): When the update block read completes, the block is tested and the per-step constants
  formed. -/
  | updateBlockRead (k idx : Nat) (data : List Byte)
  /-- SHARD_CHUNK_BEGIN (R364): A SHARD_UPDATE chunk begins at most every 4 ticks when its staging blocks and slot
  are available. -/
  | shardChunkBegin (k idx : Nat) (grad master mom : List Byte)
  /-- SHARD_GATE_RELEASE (R372): A later step reading a working-copy chunk proceeds once that chunk's write is
  acknowledged. -/
  | shardGateRelease (k idx : Nat) (data : List Byte)
  /-- DEADLINE_EXPIRY (R377): At the end of tick D a receiving step's short positions are decided under its late
  policy. -/
  | deadlineExpiry (k idx : Nat)
  /-- TIMEOUT (R405): A WAIT step still incomplete at D + 4 × RETX_WAIT faults its stream with TIMEOUT. -/
  | timeout (k idx : Nat)
  /-- RETX_TIMER (R400): When a chunk's RETX_WAIT timer expires without a settling receipt, the chunk is
  retransmitted. -/
  | retxTimer (k dest seq : Nat) (data : List Byte)
  /-- RETX_EXHAUSTED (R402): A chunk needing a fourth retransmission or lacking an outcome after 8 × RETX_WAIT
  faults the stream. -/
  | retxExhausted (k dest seq : Nat)
  /-- LANDED_RECORD_RELEASE (R383): A closed step's landed record is released 4 × RETX_WAIT after its step end or
  last landing. -/
  | landedRecordRelease
  /-- LEG_START (R379): The first cell of a leg is sent once the previous leg to the same stream has finished and
  its retransmission wait has passed. -/
  | legStart (k dest : Nat)
  /-- RECEIPT (R400): A RECEIPT at the sender is matched to a chunk and settles, schedules a retransmission or
  faults the leg. -/
  | receipt (n : Nat) (b data : List Byte)
  /-- SCRUB (R414): The scrubber reads table memory words in idle ticks and corrects or reports errors. -/
  | scrub (a err : Nat)
  /-- EVENT_TAIL_WRITE (R411): A write to GLB_EVENT_TAIL is accepted only when it lies within the ring. -/
  | eventTailWrite (v : Word)
  /-- REG_READ (R419): A CTRL REG_READ is checked, executed word by word and answered with READ_RSP. -/
  | regRead (n : Nat) (b : List Byte)
  /-- REG_WRITE (R419): A CTRL REG_WRITE is checked for trust and replay, executed word by word and answered with
  WRITE_RSP. -/
  | regWrite (n : Nat) (b : List Byte)
  /-- ECHO (R417): A CTRL ECHO is answered with ECHO_RSP carrying its data. -/
  | echo (n : Nat) (b : List Byte)
  /-- READ_RSP (R422): A READ_RSP received is stored in the CTRL receive entries. -/
  | readRsp (n : Nat) (b : List Byte)
  /-- WRITE_RSP (R422): A WRITE_RSP received is stored in the CTRL receive entries. -/
  | writeRsp (n : Nat) (b : List Byte)
  /-- ECHO_RSP (R422): An ECHO_RSP received is stored in the CTRL receive entries. -/
  | echoRsp (n : Nat) (b : List Byte)
  /-- CTRL_SEND (R422): A write of 1 to GLB_CTRL_SEND sends one CTRL cell built from the TX registers. -/
  | ctrlSend
  /-- CTRL_RX_TAIL_WRITE (R411): A write to GLB_CTRL_RX_TAIL is accepted only within the 8-entry receive ring. -/
  | ctrlRxTailWrite (v : Word)
  /-- REPLAY_CACHE_EXPIRE (R421): A CTRL replay cache entry is removed 4 × RETX_WAIT after it entered. -/
  | replayCacheExpire
  /-- WARM (R426): A write of GLB_RESET.WARM schedules a warm reset 1,024 ticks later. -/
  | warm (p : Path)
  /-- RELOAD (R426): A write of GLB_RESET.RELOAD schedules a reload 1,024 ticks later. -/
  | reload (p : Path)
  /-- WARM_RESET (R424): A warm reset ends all requests, drops ports, zeroes the MTC, advances the incarnation and
  reruns boot from step 5. -/
  | warmReset
  /-- RELOAD_START (R425): A reload resets as warm, replaces configuration from the image and reruns boot from step
  2. -/
  | reloadStart
  /-- QUENCH (R427): The QUENCH command ends a stream's request with QUENCHED and frees its resources. -/
  | quench (k : Nat)
  /-- QUENCH_COMPLETE (R427): When its package transfers have finished, the quenched stream returns to IDLE. -/
  | quenchComplete (k : Nat)
  /-- PARTITION_RESET (R428): A write with RESET quenches all streams of the partition with PART_RESET, holds it and
  optionally discards its ring. -/
  | partitionReset (n : Nat) (discard : Bool)
  /-- RELEASE (R428): A write with RELEASE clears HELD when the partition is no longer BUSY. -/
  | release (n : Nat)
  /-- PORT_RESET (R429): A write to PRTn_RESET puts the port into DOWN with REASON ADMIN. -/
  | portReset (n : Nat)
  /-- ADOPT_OPEN (R430): A write with OPEN opens the adoption window when the guard matches and every stream is
  idle. -/
  | adoptOpen (v : Word)
  /-- ENGINE_ID_WRITE (R431): A write to GLB_ENGINE_ID applies during boot steps 1–4 or in the adoption window, and
  is otherwise refused. -/
  | engineIdWrite (v : Word)
  /-- ADOPTION_WINDOW_CLOSE (R431): An adoption window still open 2^24 ticks after opening closes with no change. -/
  | adoptionWindowClose
  /-- FLIP_ARM (R439): A write to TBL_FLIP_AT_HI arms a flip at F when F passes the arming tests. -/
  | flipArm (v : Word)
  /-- FLIP_DISARM (R441): DISARM completed before the flip tick clears ARMED. -/
  | flipDisarm
  /-- FLIP (R442): At the flip tick the injection epoch toggles, Epoch-flip values apply and waiting injected cells
  are looked up again. -/
  | flip
  /-- DRAIN_END (R444): At F + D the DRAINING version becomes IDLE and DRAIN_DONE is set. -/
  | drainEnd
  /-- TABLE_WRITE (R438): A write to a route or lace table word is applied to an IDLE version and refused with
  TBL_BUSY otherwise. -/
  | tableWrite (a : Nat) (v : Word)
  /-- CONFIGURATION_SEAL (R454): A write of GLB_SEAL.SEALED seals the configuration after applying the write's other
  fields. -/
  | configurationSeal
  /-- PORST (R604): A recognised PORST# assertion starts a cold reset that supersedes every other reset. -/
  | porst (d : Nat)
  /-- COLD_RESET_END (R605): The internal cold reset lasts 16,000 ticks from recognition. -/
  | coldResetEnd
  /-- PORST_RELEASE (R457): The release of PORST# samples the straps and starts the boot sequence. -/
  | porstRelease (straps : Nat)
  /-- PLL_LOCK (R599): During cold reset the root PLL locks to REFCLK or LOSC, releasing a held PORST# release. -/
  | pllLock (losc : Bool)
  /-- BOOT_DESCRIPTOR_READ (R464): When both descriptor copies are read, the valid later copy or the defaults are
  taken and the fast settings applied. -/
  | bootDescriptorRead (x : Sfdp)
  /-- JOURNAL_SCAN (R484): When the journal scan completes, the next write slot, next JSEQ and last BOOT record are
  known. -/
  | journalScan
  /-- SLOT_CHECK (R469): When both slot headers and commit words are read, each slot is checked and candidates
  ordered by SEQ. -/
  | slotCheck
  /-- IMAGE_LOAD (R474): The chosen image is verified and its sections loaded in order, with cross-section tests at
  the end. -/
  | imageLoad
  /-- CONTINUE (R476): A write of CONTINUE in the failed or HOST state tests the current values and ends step 4 if
  they pass. -/
  | bootContinue
  /-- BOOT_PORT_LIMIT (R459): Boot step 5 ends 2^22 ticks after the boot record outcome if the ports have not
  settled. -/
  | bootPortLimit
  /-- JOURNAL_WRITE (R481): A queued journal record is programmed in two frames, polled and read back to one slot. -/
  | journalWrite (rb : List Byte)
  /-- JOURNAL_ERASE (R482): When the first record enters a sector, the following sector is erased. -/
  | journalErase
  /-- FLASH_PORT_SERVE (R492): When the flash port is free it serves the waiting users in the order of Table 16.2. -/
  | flashPortServe
  /-- FLASH_FRAME_DONE (R490): A flash frame completes and its data, status poll result or busy state is taken. -/
  | flashFrameDone (data : List Byte)
  /-- FLASH_BUSY_TIMEOUT (R497): A program or erase still busy beyond its timeout fails, and the flash is no longer
  treated as busy. -/
  | flashBusyTimeout
  /-- SOFTWARE_SEQUENCE (R497): A write of NVM_FCTRL.GO tests and starts a software flash sequence. -/
  | softwareSequence
  /-- NOP (R504): A management NOP frame does nothing and receives the pending reply. -/
  | nop (f : Frame)
  /-- READ (R505): A management READ frame reads w registers in ascending order. -/
  | read (f : Frame)
  /-- READ_WINDOW (R495): A management READ_WINDOW frame reads 4w flash bytes in one flash frame. -/
  | readWindow (f : Frame)
  /-- WRITE (R505): A management WRITE frame writes words to registers in ascending order. -/
  | write (f : Frame)
  /-- BAD_OP (R504): A frame with a reserved opcode does nothing and reports BAD_OP. -/
  | badOp (f : Frame)
  /-- UNDERRUN (R510): A frame begun while the previous reply is not ready is not executed and raises detector 15. -/
  | underrun (w : Nat)
  /-- CS_WATCHDOG (R512): MGT_CS# asserted for 10 ms trips the watchdog and the port stops listening. -/
  | csWatchdog (w : Nat)
  /-- PUSH_ATTEMPT (R515): After the bus has been idle, the engine claims it and pushes one queued record as master. -/
  | pushAttempt (ack : Word)
  /-- MULTI_MASTER_FAULT (R518): A mismatch on MGT_SCK or MGT_MOSI while mastering reverts the port to slave and
  raises detector 16. -/
  | multiMasterFault (frame : Bool)
  /-- MAP_WINDOW_END (R521): At the end of each 4,096-tick window one map record is written per port. -/
  | mapWindowEnd
  /-- MAP_REQ (R527): A SURVEY MAP_REQ is checked and answered with one MAP_RSP per requested port. -/
  | mapReq (n : Nat) (b : List Byte)
  /-- MAP_RSP (R529): A received SURVEY MAP_RSP is stored in the SURVEY receive entries. -/
  | mapRsp (n : Nat) (b : List Byte)
  /-- SURVEY_SEND (R529): A write of 1 to TEL_SVY_SEND sends one SURVEY cell. -/
  | surveySend
  /-- RPL_TAIL_WRITE (R531): A write to RPL_TAIL is accepted only within the replay ring. -/
  | rplTailWrite (t : Word)
  /-- DATA_COPY (R539): A data item in the copy buffer is sent on SVC1 as a PUT to the storage bridge. -/
  | dataCopy
  /-- REPLAY_START (R542): A write of RPL_RUN_CTRL.GO tests and starts re-execution of a captured step. -/
  | replayStart (reads : List (List Byte))
  /-- REPLAY_DONE (R546): When every write and comparison of a replay is done, the result is written and the stream
  returns to IDLE. -/
  | replayDone
  /-- ARM (R551): A write of AWL_ARM.ARM tests and arms the selected injection point. -/
  | arm
  /-- DISARM (R553): A write of AWL_ARM.DISARM disarms the selected point. -/
  | disarm
  /-- LEASE_EXPIRED (R569): An armed point whose lease ends is disarmed and sets EXPIRED. -/
  | leaseExpired (pt : Nat)
  /-- WARM_PIN_ASSERT (R606): A recognised WARM# assertion starts a warm reset at once. -/
  | warmPinAssert (d : Nat)
  /-- WARM_PIN_RELEASE (R606): Boot resumes at the later of 16,384 ticks after recognition and the recognised WARM#
  release. -/
  | warmPinRelease
  /-- SUPPLY_DIP (R596): A supply below 90 % for 160 ticks acts as an assertion of PORST#. -/
  | supplyDip (d : Nat) (vddio : Bool)
  /-- THERMAL_SAMPLE (R617): Every 16,384 ticks the sensors are sampled and GLB_TEMP updated. -/
  | thermalSample (temp sensor : Nat)
  /-- INSTRUCTION_UPDATE (R621): An instruction updated into the JTAG instruction register holds or releases the
  engine as if by PORST#. -/
  | instructionUpdate (op : Nat)
  /-- TAP_RESET (R621): TRST# low or five TMS-high TCK edges reset the test access port and select IDCODE. -/
  | tapReset
  /-- AWL_TICK_OPPORTUNITY (R557): An armed Awl point whose opportunity is a tick injects on the counted tick its
  mode names. Point 4 counts ticks on which a serial port is ACTIVE, and point 11 counts every tick. Point 4
  drops the link, and point 11 raises detector 11. -/
  | awlTickOpportunity
  /-- SVY_RX_TAIL_WRITE (R529): A write to TEL_SVY_RX_TAIL is accepted only when it lies within the 32-entry SURVEY
  receive ring. An accepted write frees entries for later MAP_RSP cells. -/
  | svyRxTailWrite (v : Word)
  /-- LEDGER_READ (R396): A read of a ledger entry's word at offset 28 marks that entry as read. Replacing a read
  entry does not set LEDGER_WRAP. -/
  | ledgerRead (p : Path) (n e : Nat)
  deriving DecidableEq, Repr

end Sys2Proof
end

