-- ==== Sys2Proof/Config.lean ====
section
/-! DEFINITION. The free values: what the spec leaves open and no proof may know. None has a body. Each is applied to
the counter `State.free`, which every use advances. -/
namespace Sys2Proof

/-- A byte the spec does not state (log entry 6): for example a byte of the destination of a GET that has not completed (R241). -/
opaque Config.freeByte : Nat → Byte

/-- A choice the spec leaves to the part (log entry 6): for example whether a reset pin held for 16 to 159 ticks is
recognised (R604). -/
opaque Config.freeBit : Nat → Bool

/-- A 16-bit number the spec does not state (log entry 6): the NONCE an engine draws for its beacons (R130). -/
opaque Config.freeNonce : Nat → BitVec 16

/-- A 32-bit value the spec does not state (log entry 6). -/
opaque Config.freeWord : Nat → Word

/-- The part's fused VCORE code (R593): the spec gives its range, not its value. -/
opaque Config.vid : BitVec 4

end Sys2Proof
end

