-- ==== Sys2Proof/Machine/Bits.lean ====
section
/-! DEFINITION. Bit fields, byte orders (R5, R6), and the two cyclic redundancy checks (R89, R105). -/
namespace Sys2Proof.Machine

/-- Bits [hi:lo] of a number (R4). -/
def nbits (n hi lo : Nat) : Nat := (n >>> lo) % 2 ^ (hi + 1 - lo)

/-- `n` with bits [hi:lo] replaced by the low bits of `v`. -/
def nput (n hi lo v : Nat) : Nat :=
  n - ((n >>> lo) % 2 ^ (hi + 1 - lo)) * 2 ^ lo + (v % 2 ^ (hi + 1 - lo)) * 2 ^ lo

/-- Bits [hi:lo] of a register, as a number (R4). -/
def fld (w : Word) (hi lo : Nat) : Nat := nbits w.toNat hi lo

/-- `w` with bits [hi:lo] replaced by the low bits of `v`. -/
def putFld (w : Word) (hi lo v : Nat) : Word := BitVec.ofNat 32 (nput w.toNat hi lo v)

/-- Bit `i` of a register. -/
def wbit (w : Word) (i : Nat) : Bool := w.toNat.testBit i

/-- A bit as a number. -/
def b2n (b : Bool) : Nat := if b then 1 else 0

/-- The `n` bytes of a number, most significant first (R5). -/
def bytesBE : Nat → Nat → List Byte
  | 0, _ => []
  | n + 1, v => BitVec.ofNat 8 (v >>> (8 * n)) :: bytesBE n v

/-- The `n` bytes of a number, least significant first (R6). -/
def bytesLE : Nat → Nat → List Byte
  | 0, _ => []
  | n + 1, v => BitVec.ofNat 8 v :: bytesLE n (v >>> 8)

/-- The number whose bytes are given most significant first (R5). -/
def natBE (l : List Byte) : Nat := l.foldl (fun a b => a * 256 + b.toNat) 0

/-- The number whose bytes are given least significant first (R6). -/
def natLE : List Byte → Nat
  | [] => 0
  | b :: t => b.toNat + 256 * natLE t

/-- `n` bytes of `l` from offset `o`; zeros past its end. -/
def slice (l : List Byte) (o n : Nat) : List Byte :=
  let m := (l.drop o).take n
  m ++ List.replicate (n - m.length) 0

/-- The big-endian field of `n` bytes at offset `o`. -/
def fieldBE (l : List Byte) (o n : Nat) : Nat := natBE (slice l o n)

/-- The little-endian field of `n` bytes at offset `o`. -/
def fieldLE (l : List Byte) (o n : Nat) : Nat := natLE (slice l o n)

/-- `l` with the bytes from offset `o` replaced by `b` (as long as `l` reaches). -/
def patch (l : List Byte) (o : Nat) (b : List Byte) : List Byte :=
  l.take o ++ (b.take (l.length - o)) ++ l.drop (o + b.length)

/-- One bit of a reflected CRC with polynomial `p`. -/
def crcBit (p c : Nat) : Nat := if c % 2 = 1 then (c >>> 1) ^^^ p else c >>> 1

/-- One byte, least significant bit first. -/
def crcByte (p c : Nat) (b : Byte) : Nat :=
  crcBit p (crcBit p (crcBit p (crcBit p (crcBit p (crcBit p (crcBit p (crcBit p (c ^^^ b.toNat))))))))

/-- A reflected CRC: initial value and final exclusive-or 0xFFFF_FFFF. -/
def crc (p : Nat) (l : List Byte) : Nat := (l.foldl (crcByte p) 0xFFFFFFFF) ^^^ 0xFFFFFFFF

/-- The hop check (R89). -/
def crc32 (l : List Byte) : Nat := crc 0xEDB88320 l

/-- The chunk check (R105). -/
def crc32c (l : List Byte) : Nat := crc 0x82F63B78 l

/-- A 32-bit two's-complement image of an integer, saturated at ±(2³¹ − 1) (Clocks and Machine Time, Registers). -/
def sat32 (e : Int) : Word :=
  if e > 2147483647 then 0x7FFFFFFF
  else if e < -2147483647 then 0x80000001
  else BitVec.ofInt 32 e

end Sys2Proof.Machine
end

