-- ==== Sys2Proof/Machine/RegNames.lean ====
section
/-! DEFINITION. The register index: the management address of every register (R622, R623, R629, Tables 21.4–21.17).
`n` is the port, stream, partition, entry or version; `m` and `w` index within it. -/
namespace Sys2Proof.Machine.R

def glbId : Nat := 0x0
def glbStepping : Nat := 0x4
def glbEngineId : Nat := 0x8
def glbIncarnation : Nat := 0xC
def glbPosition : Nat := 0x10
def glbReset : Nat := 0x14
def glbResetCause : Nat := 0x18
def glbSeal : Nat := 0x1C
def glbAlertStatus : Nat := 0x20
def glbAlertPinMask : Nat := 0x24
def glbAlertRingMask : Nat := 0x28
def glbAdopt : Nat := 0x2C
def glbSealRefusedCount : Nat := 0x30
def glbMgrId : Nat := 0x34
def glbJournalMask : Nat := 0x38
def glbAlertInjected : Nat := 0x3C
def glbSealRefusedAddr : Nat := 0x40
def glbBootStatus : Nat := 0x44
def glbBootCtrl : Nat := 0x48
def glbStraps : Nat := 0x4C
def glbImageSeq : Nat := 0x50
def glbBootDetail : Nat := 0x54
def glbEventHead : Nat := 0x60
def glbEventTail : Nat := 0x64
def glbEventLostCount : Nat := 0x68
def glbTblEccCorrCount : Nat := 0x70
def glbTblEccUncorrCount : Nat := 0x74
def glbTblEccAddr : Nat := 0x78
def glbVid : Nat := 0x80
def glbTemp : Nat := 0x84
def glbTempWarn : Nat := 0x88
def glbPwrEvents : Nat := 0x8C
def glbCtrlTxDest : Nat := 0x240
def glbCtrlSend : Nat := 0x244
def glbCtrlRxHead : Nat := 0x248
def glbCtrlRxTail : Nat := 0x24C
def glbCtrlEvents : Nat := 0x250
def glbCtrlBadCount : Nat := 0x254
def glbDetCount (n : Nat) : Nat := 0x100 + n * 0x4
def glbCtrlTx (n : Nat) : Nat := 0x200 + n * 0x4
def clkStatus : Nat := 0x10000
def clkConfig : Nat := 0x10004
def clkEvents : Nat := 0x10008
def mtcNowLo : Nat := 0x20000
def mtcNowHi : Nat := 0x20004
def mtcSnap : Nat := 0x20008
def mtcSnapLo : Nat := 0x2000C
def mtcSnapHi : Nat := 0x20010
def mtcMode : Nat := 0x20014
def mtcRackRoot : Nat := 0x20018
def mtcMachineRoot : Nat := 0x2001C
def mtcStatus : Nat := 0x20020
def mtcRoots : Nat := 0x20024
def mtcEvents : Nat := 0x20028
def mtcError : Nat := 0x2002C
def mtcDelay : Nat := 0x20030
def mtcLockCount : Nat := 0x20034
def mtcSteerCount : Nat := 0x20038
def mtcLateArmCount : Nat := 0x2003C
def mtcJumpLaunchCount : Nat := 0x20040
def prtState (n : Nat) : Nat := 0x40000 + n * 0x1000
def prtConfig (n : Nat) : Nat := 0x40004 + n * 0x1000
def prtCommand (n : Nat) : Nat := 0x40008 + n * 0x1000
def prtPeer (n : Nat) : Nat := 0x4000C + n * 0x1000
def prtPeerPos (n : Nat) : Nat := 0x40010 + n * 0x1000
def prtExpect (n : Nat) : Nat := 0x40014 + n * 0x1000
def prtEvents (n : Nat) : Nat := 0x40018 + n * 0x1000
def prtFecCorrCount (n : Nat) : Nat := 0x40020 + n * 0x1000
def prtFecUncorrCount (n : Nat) : Nat := 0x40024 + n * 0x1000
def prtLinkLostCount (n : Nat) : Nat := 0x40028 + n * 0x1000
def prtTrainFailCount (n : Nat) : Nat := 0x4002C + n * 0x1000
def prtDownDiscardCount (n : Nat) : Nat := 0x40030 + n * 0x1000
def prtOverloadDiscardCount (n : Nat) : Nat := 0x40034 + n * 0x1000
def prtResumeCount (n : Nat) : Nat := 0x40038 + n * 0x1000
def prtSvcRefusedCount (n : Nat) : Nat := 0x4003C + n * 0x1000
def prtReset (n : Nat) : Nat := 0x40040 + n * 0x1000
def prtHopchkCount (n : Nat) : Nat := 0x40400 + n * 0x1000
def prtTypeRsvdCount (n : Nat) : Nat := 0x40404 + n * 0x1000
def prtWeltBadCount (n : Nat) : Nat := 0x40408 + n * 0x1000
def prtNoEngineCount (n : Nat) : Nat := 0x4040C + n * 0x1000
def prtHopLimitCount (n : Nat) : Nat := 0x40410 + n * 0x1000
def prtCellEvents (n : Nat) : Nat := 0x40414 + n * 0x1000
def prtDeflectCount (n : Nat) : Nat := 0x40500 + n * 0x1000
def prtDeflectDiscardCount (n : Nat) : Nat := 0x40504 + n * 0x1000
def prtFailoverCount (n : Nat) : Nat := 0x40508 + n * 0x1000
def prtRingFullCount (n : Nat) : Nat := 0x4050C + n * 0x1000
def prtCircuitFullCount (n : Nat) : Nat := 0x40510 + n * 0x1000
def prtCircuitFallbackCount (n : Nat) : Nat := 0x40514 + n * 0x1000
def prtInjectWaitCount (n : Nat) : Nat := 0x40518 + n * 0x1000
def prtQueueDepth (n : Nat) : Nat := 0x4051C + n * 0x1000
def prtRouteEvents (n : Nat) : Nat := 0x40520 + n * 0x1000
def prtActiveMask : Nat := 0x60000
def prtStatus : Nat := 0x60004
def prtAllEvents : Nat := 0x60008
def tblEpoch : Nat := 0x80000
def tblFlipAtLo : Nat := 0x80004
def tblFlipAtHi : Nat := 0x80008
def tblFlipCtrl : Nat := 0x8000C
def tblDrain : Nat := 0x80010
def tblFlipEvents : Nat := 0x80014
def tblStaleCount : Nat := 0x80018
def tblBusyCount : Nat := 0x8001C
def tblEarlyCount : Nat := 0x80020
def tblDeflectMax : Nat := 0x80100
def tblNoRouteCount : Nat := 0x80104
def tblPathFailCount : Nat := 0x80108
def tblRouteEvents : Nat := 0x8010C
def tblLaceHold : Nat := 0x80110
def tblRowMask : Nat := 0x80114
def tblMcHoldDepth : Nat := 0x80118
def tblMcEvents : Nat := 0x8011C
def tblMcDropCount : Nat := 0x80120
def tblMcNoticeSuppressedCount : Nat := 0x80124
def tblMcKindBadCount : Nat := 0x80128
def tblMcNoStepCount : Nat := 0x8012C
def tblNoticeStaleCount : Nat := 0x80130
def tblBranchLossMap : Nat := 0x80134
def strState (n : Nat) : Nat := 0xA0000 + n * 0x100
def strLast (n : Nat) : Nat := 0xA0004 + n * 0x100
def strBaseLo (n : Nat) : Nat := 0xA0008 + n * 0x100
def strBaseHi (n : Nat) : Nat := 0xA000C + n * 0x100
def strFault (n : Nat) : Nat := 0xA0010 + n * 0x100
def strLateArmCount (n : Nat) : Nat := 0xA0014 + n * 0x100
def strQuotaDiscardCount (n : Nat) : Nat := 0xA0018 + n * 0x100
def strStageHeld (n : Nat) : Nat := 0xA001C + n * 0x100
def strRetxCount (n : Nat) : Nat := 0xA0020 + n * 0x100
def strDupCount (n : Nat) : Nat := 0xA0024 + n * 0x100
def strLateCount (n : Nat) : Nat := 0xA0028 + n * 0x100
def strLegWaitCount (n : Nat) : Nat := 0xA002C + n * 0x100
def strCountMapUsed (n : Nat) : Nat := 0xA0040 + n * 0x100
def strCollEvents (n : Nat) : Nat := 0xA0044 + n * 0x100
def strShdDone (n : Nat) : Nat := 0xA0050 + n * 0x100
def strShdNonfinite (n : Nat) : Nat := 0xA0054 + n * 0x100
def strCommand (n : Nat) : Nat := 0xA0060 + n * 0x100
def strChkFailCount (n : Nat) : Nat := 0xA00C0 + n * 0x100
def strSealBadCount (n : Nat) : Nat := 0xA00C4 + n * 0x100
def strIncompleteCount (n : Nat) : Nat := 0xA00C8 + n * 0x100
def strBranchLossMap (n : Nat) : Nat := 0xA00D0 + n * 0x100
def strBranchLossFirst (n : Nat) : Nat := 0xA00D4 + n * 0x100
def strBranchLossCount (n : Nat) : Nat := 0xA00D8 + n * 0x100
def strRetxWait : Nat := 0xB0000
def strLegFullCount : Nat := 0xB0004
def strStaleReceiptCount : Nat := 0xB0008
def parDoorbell (n : Nat) : Nat := 0xC0000 + n * 0x1000
def parReqHead (n : Nat) : Nat := 0xC0004 + n * 0x1000
def parReqTail (n : Nat) : Nat := 0xC0008 + n * 0x1000
def parRanks (n : Nat) : Nat := 0xC0010 + n * 0x1000
def parSelfRank (n : Nat) : Nat := 0xC0014 + n * 0x1000
def parMapStatus (n : Nat) : Nat := 0xC0018 + n * 0x1000
def parReqBaseLo (n : Nat) : Nat := 0xC0020 + n * 0x1000
def parReqBaseHi (n : Nat) : Nat := 0xC0024 + n * 0x1000
def parReqSize (n : Nat) : Nat := 0xC0028 + n * 0x1000
def parCplBaseLo (n : Nat) : Nat := 0xC002C + n * 0x1000
def parCplBaseHi (n : Nat) : Nat := 0xC0030 + n * 0x1000
def parCplSize (n : Nat) : Nat := 0xC0034 + n * 0x1000
def parCplHead (n : Nat) : Nat := 0xC0038 + n * 0x1000
def parCplTail (n : Nat) : Nat := 0xC003C + n * 0x1000
def parCircuitQuota (n : Nat) : Nat := 0xC0040 + n * 0x1000
def parCircuitsOpen (n : Nat) : Nat := 0xC0044 + n * 0x1000
def parLaceRange (n : Nat) : Nat := 0xC0048 + n * 0x1000
def parStreamRange (n : Nat) : Nat := 0xC0050 + n * 0x1000
def parStageQuota (n : Nat) : Nat := 0xC0054 + n * 0x1000
def parStageUsed (n : Nat) : Nat := 0xC0058 + n * 0x1000
def parLastWindow (n : Nat) : Nat := 0xC005C + n * 0x1000
def parEvents (n : Nat) : Nat := 0xC0060 + n * 0x1000
def parOutstanding (n : Nat) : Nat := 0xC0064 + n * 0x1000
def parRounding (n : Nat) : Nat := 0xC0068 + n * 0x1000
def parLatePolicy (n : Nat) : Nat := 0xC006C + n * 0x1000
def parAnnealMax (n : Nat) : Nat := 0xC0070 + n * 0x1000
def parAnnealUsed (n : Nat) : Nat := 0xC0074 + n * 0x1000
def parLedgerCount (n : Nat) : Nat := 0xC0078 + n * 0x1000
def parLateEvents (n : Nat) : Nat := 0xC007C + n * 0x1000
def parReset (n : Nat) : Nat := 0xC0080 + n * 0x1000
def parReplay (n : Nat) : Nat := 0xC0084 + n * 0x1000
def parWinBaseLo (n m : Nat) : Nat := 0xC0100 + n * 0x1000 + m * 0x20
def parWinBaseHi (n m : Nat) : Nat := 0xC0104 + n * 0x1000 + m * 0x20
def parWinLimitLo (n m : Nat) : Nat := 0xC0108 + n * 0x1000 + m * 0x20
def parWinLimitHi (n m : Nat) : Nat := 0xC010C + n * 0x1000 + m * 0x20
def parWinCtrl (n m : Nat) : Nat := 0xC0110 + n * 0x1000 + m * 0x20
def parCircuitEvents : Nat := 0xD0000
def cmbFmt (n : Nat) : Nat := 0xE0000 + n * 0x4
def cmbFmtStatus : Nat := 0xE0040
def cmbSlots : Nat := 0xE0044
def cmbEvents : Nat := 0xE0048
def cmbSatCount : Nat := 0xE004C
def cmbNanCount : Nat := 0xE0050
def cmbSlotWaitCount : Nat := 0xE0054
def cmbShdEvents : Nat := 0xE0060
def cmbShdNonfiniteCount : Nat := 0xE0064
def cmbShdGateWaitCount : Nat := 0xE0068
def memStageBase : Nat := 0x100000
def memStatus : Nat := 0x100004
def memEvents : Nat := 0x100008
def memTagWaitCount : Nat := 0x10000C
def memRetryCount : Nat := 0x100010
def memStaleRspCount : Nat := 0x100014
def memPeerLostCount : Nat := 0x100018
def memWindowFaultCount : Nat := 0x10001C
def memBadAccessCount : Nat := 0x100020
def memBusyCount : Nat := 0x100024
def memDupCount : Nat := 0x100028
def memOrderSkipCount : Nat := 0x10002C
def memReqRefusedCount : Nat := 0x100030
def memEccCorrCount : Nat := 0x100034
def memEccUncorrCount : Nat := 0x100038
def memEccAddr : Nat := 0x10003C
def memPkgTimeout : Nat := 0x100040
def memPkgRetryCount : Nat := 0x100044
def nvmStatus : Nat := 0x120000
def nvmReadCmd : Nat := 0x120004
def nvmReadFmt : Nat := 0x120008
def nvmFcmd : Nat := 0x120010
def nvmFaddr : Nat := 0x120014
def nvmFctrl : Nat := 0x120018
def nvmFstatus : Nat := 0x12001C
def nvmEvents : Nat := 0x120020
def nvmWindowBusyCount : Nat := 0x120024
def mgtConfig : Nat := 0x130000
def mgtPushMask : Nat := 0x130004
def mgtStatus : Nat := 0x130008
def mgtEvents : Nat := 0x13000C
def mgtUnderrunCount : Nat := 0x130010
def mgtMmfaultCount : Nat := 0x130014
def mgtWatchdogCount : Nat := 0x130018
def mgtPushCount : Nat := 0x13001C
def mgtPushDropCount : Nat := 0x130020
def telConfig : Nat := 0x140000
def telWindowLo : Nat := 0x140004
def telWindowHi : Nat := 0x140008
def telSvyTxDest : Nat := 0x140140
def telSvySend : Nat := 0x140144
def telSvyRxHead : Nat := 0x140148
def telSvyRxTail : Nat := 0x14014C
def telSvyEvents : Nat := 0x140150
def telSvyBadCount : Nat := 0x140154
def awlSel : Nat := 0x150000
def awlMode : Nat := 0x150004
def awlParam : Nat := 0x150008
def awlAtLo : Nat := 0x15000C
def awlAtHi : Nat := 0x150010
def awlFilter : Nat := 0x150014
def awlLease : Nat := 0x150018
def awlArm : Nat := 0x15001C
def awlCount : Nat := 0x150020
def awlStatus : Nat := 0x150024
def awlEvents : Nat := 0x150028
def awlArmCount : Nat := 0x15002C
def awlLeaseLeft : Nat := 0x150030
def rplRingSize : Nat := 0x160000
def rplHead : Nat := 0x160004
def rplTail : Nat := 0x160008
def rplNextId : Nat := 0x16000C
def rplDataBaseLo : Nat := 0x160010
def rplDataBaseHi : Nat := 0x160014
def rplDataSize : Nat := 0x160018
def rplDataNext : Nat := 0x16001C
def rplEvents : Nat := 0x160020
def rplUnitLostCount : Nat := 0x160024
def rplSkipCount : Nat := 0x160028
def rplRunCapture : Nat := 0x160040
def rplRunStream : Nat := 0x160044
def rplRunDataLo : Nat := 0x160068
def rplRunDataHi : Nat := 0x16006C
def rplRunEmitLo : Nat := 0x160070
def rplRunEmitHi : Nat := 0x160074
def rplRunCtrl : Nat := 0x160078
def rplResult : Nat := 0x16007C
def rplMismatchCount : Nat := 0x160080
def rplFirstMismatch : Nat := 0x160084
def rplFault : Nat := 0x160088
def jnlStatus : Nat := 0x170000
def jnlNextSeq : Nat := 0x170004
def jnlHeadAddr : Nat := 0x170008
def jnlWriteCount : Nat := 0x17000C
def jnlLostCount : Nat := 0x170010
def jnlFailCount : Nat := 0x170014
def nvmFbuf (n : Nat) : Nat := 0x120100 + n * 0x4
def telSvyTx (n : Nat) : Nat := 0x140100 + n * 0x4
def rplRunBufLo (n : Nat) : Nat := 0x160048 + n * 0x8
def rplRunBufHi (n : Nat) : Nat := 0x16004C + n * 0x8
def glbCtrlRx (n m : Nat) : Nat := 0x400 + n * 0x80 + m * 0x4
def telSvyRx (n m : Nat) : Nat := 0x141000 + n * 0x80 + m * 0x4
def routeTbl (n m : Nat) : Nat := 0x1000000 + n * 0x8000 + m * 0x4
def ledgerWord (n m : Nat) : Nat := 0x1060000 + n * 0x2000 + m * 0x4
def eventWord (n m : Nat) : Nat := 0x1080000 + n * 0x20 + m * 0x4
def rankMap (n m : Nat) : Nat := 0x1800000 + n * 0x8000 + m * 0x4
def laceTbl (n m w : Nat) : Nat := 0x1040000 + n * 0x2000 + m * 8 + w * 4
def mapHistory (n m w : Nat) : Nat := 0x144000 + (n - 4) * 0x600 + m * 0x30 + w * 4
def circuitTbl (n : Nat) : Nat := 0x1020000 + n * 0x4

end Sys2Proof.Machine.R
end

