-- ==== Sys2Proof/Machine/Tbl.lean ====
section
/-! DEFINITION. Sparse tables: a list of key and value pairs, keys rising. Registers, ports, streams and every other
indexed resource of the engine are held in one. An unlisted key has the value its table's default gives it. -/
namespace Sys2Proof.Machine

/-- A sparse table keyed by a natural number. -/
abbrev Tbl (α : Type) := List (Nat × α)

/-- The listed value at `k`, if any. -/
def tfind {α : Type} (k : Nat) : Tbl α → Option α
  | [] => none
  | (j, v) :: t => if j = k then some v else tfind k t

/-- The value at `k`; `d` where nothing is listed. -/
def tget {α : Type} (d : α) (k : Nat) (t : Tbl α) : α :=
  match tfind k t with
  | some v => v
  | none => d

/-- `t` with no entry at `k`. -/
def tdel {α : Type} (k : Nat) : Tbl α → Tbl α
  | [] => []
  | (j, v) :: t => if j = k then tdel k t else (j, v) :: tdel k t

/-- `t` with an entry at `k` put in front of the first larger key. -/
def tput {α : Type} (k : Nat) (v : α) : Tbl α → Tbl α
  | [] => [(k, v)]
  | (j, w) :: t => if k < j then (k, v) :: (j, w) :: t else (j, w) :: tput k v t

/-- `t` with the value at `k` replaced by `v`. -/
def tset {α : Type} (k : Nat) (v : α) (t : Tbl α) : Tbl α := tput k v (tdel k t)

/-- `t` with the value at `k` replaced by `v`, unlisted when `v` is the default `d` of that key. -/
def tsetD {α : Type} [DecidableEq α] (d : α) (k : Nat) (v : α) (t : Tbl α) : Tbl α :=
  if v = d then tdel k t else tset k v t

/-- Keys strictly rise. -/
def trising {α : Type} : Tbl α → Bool
  | [] => true
  | [_] => true
  | (i, _) :: (j, w) :: t => decide (i < j) && trising ((j, w) :: t)

end Sys2Proof.Machine
end

