-- ==== Sys2Proof/Machine/State.lean ====
section
/-! DEFINITION. The state of the engine: every register, queue, buffer, counter, mode and pin the spec gives it, as plain
data, with the commands that wait, first in, first out. Registers stand in one table keyed by management address; a
register that shows hidden state (such as PRTn_STATE) is formed from it when read. -/
namespace Sys2Proof.Machine

/-- Why a step stops with a fault. The spec gives every command of this block an effect or no effect, and none an
undefined one, so no meaning faults; the one constructor names what would be a defect of the model. -/
inductive Fault where
  /-- Raised by nobody: the model has no step that stops with a fault. Safe. -/
  | none
  deriving DecidableEq, Repr

/-- Why a step is refused. -/
inductive Refusal where
  /-- Raised by `exec` for a command that has no meaning yet, by name. Safe: nothing is claimed of it. -/
  | notModelled (mnemonic : String)
  deriving DecidableEq, Repr

/-- A cell without its hop check: the welt and the 64 payload bytes (Table 3.1). -/
structure Cell where
  welt : W64 := 0
  payload : List Byte := []
  deriving DecidableEq, Repr

/-- One write to a byte memory made by the command in progress, applied when it ends. -/
structure MemWrite where
  /-- false: the staging store; true: the flash -/
  flash : Bool
  addr : Nat
  bytes : List Byte
  /-- where not 0: not a write of `bytes` but a return of this many bytes to what an unlisted byte reads as -/
  clear : Nat := 0
  deriving DecidableEq, Repr

/-! ### Machine time (Clocks and Machine Time) -/

/-- The machine time counter and the steering of it (R51, R63). -/
structure TimeS where
  mtc : W64 := 0
  /-- local_ticks: CCLK ticks since PORST# release (R59) -/
  ticks : Nat := 0
  /-- the pending correction of R63 -/
  corr : Int := 0
  /-- ticks left of a hold -/
  hold : Option Nat := none
  /-- a jump decided: on the next tick the MTC advances by this much -/
  jump : Nat := 0
  /-- the MTC before the jump made on this tick (R80) -/
  jumpFrom : Option W64 := none
  deriving DecidableEq, Repr

/-- Reference clock and MARK state (R46–R58). -/
structure ClkS where
  /-- the tick on which REFCLK was declared lost -/
  lostAt : Option Nat := none
  /-- the PLL has returned to REFCLK and the next MARK edge clears RACK_FALLBACK (R57) -/
  refBack : Bool := false
  /-- ticks of the latest consecutive stray MARK edges, newest first (R55) -/
  strays : List Nat := []
  strayCount : Nat := 0
  missCount : Nat := 0
  /-- consecutive missed MARKs (R56) -/
  missRun : Nat := 0
  /-- the 2²⁴ block whose MARK was last found missing, plus one -/
  missFor : Nat := 0
  /-- the first MARK has been accepted (R75) -/
  markSeen : Bool := false
  /-- ticks the MTC jumps forward at the next accepted MARK (R58) -/
  bigJump : Nat := 0
  deriving DecidableEq, Repr

/-- What the last SYNC of a port offered (Table 2.2). -/
structure Offer where
  rackRoot : Nat
  rackDist : Nat
  machRoot : Nat
  machDist : Nat
  flags : Nat
  rack : Nat
  heard : Nat
  deriving DecidableEq, Repr

/-- Root choice and joining (R67–R76). -/
structure RootS where
  rackParent : Nat := 31
  machParent : Nat := 31
  rackDist : Nat := 255
  machDist : Nat := 255
  /-- the distance the parent port last announced for the root in force, and local_ticks of that SYNC (R71) -/
  rackPDist : Nat := 255
  rackNamed : Nat := 0
  machPDist : Nat := 255
  machNamed : Nat := 0
  /-- the tick of the first SYNC sent that names this engine as root (R75) -/
  selfSince : Option Nat := none
  /-- the tick of the last conflicting SYNC (R631) -/
  conflictAt : Option Nat := none
  /-- a first sample has been taken and JOINED follows when its jump, hold or MARK is complete (R75) -/
  joinAfter : Bool := false
  /-- the tick on which boot step 6 began (R76) -/
  step6 : Option Nat := none
  deriving DecidableEq, Repr

/-! ### Ports and queues (Ports and Link States; Routing) -/

/-- Port states (Table 4.2). -/
inductive PState where
  | down | seek | train | align | active | doze | sleep | fenced | fault
  deriving DecidableEq, Repr

/-- What a power request asks for (R140). -/
inductive PReq where
  | none | doze | sleep
  deriving DecidableEq, Repr

/-- The output queues of a port (Table 5.3). -/
inductive QCls where
  | vc3 | vc2 | circuit | vc0s | vc0r | vc1r
  deriving DecidableEq, Repr

/-- A port: its state machine, its queues and its part in the SYNC exchange. -/
structure Port where
  st : PState := .down
  reason : Nat := 0
  lite : Bool := false
  leader : Bool := false
  resuming : Bool := false
  alone : Bool := false
  /-- local_ticks at the last change of state -/
  entered : Nat := 0
  /-- the run of consecutive failures (R632) -/
  failRun : Nat := 0
  nonce : BitVec 16 := 0
  /-- consecutive valid beacons received, up to 4 (HEARD, Table 4.6) -/
  heard : Nat := 0
  /-- a valid beacon was heard since SEEK was entered (R138) -/
  beaconSeen : Bool := false
  /-- the last ALIGN record received and how often in a row (R134) -/
  alignRec : Option (List Byte) := none
  alignRuns : Nat := 0
  /-- own records carry ACCEPTED -/
  accepted : Bool := false
  /-- a peer has reached ACTIVE here since the engine's own reset (R136) -/
  peerKnown : Bool := false
  req : PReq := .none
  reqAdmin : Bool := false
  reqIdle : Bool := false
  /-- records due in the next control codewords: OP and FLAGS (R122, R141) -/
  owed : List (Nat × Nat) := []
  /-- the state entered at the end of the next control codeword: DOZE, or SLEEP (R141, R142) -/
  lowNext : Option Bool := none
  /-- cells sent since the last control codeword (R118) -/
  txCells : Nat := 0
  /-- bytes of the cell stream sent since the last codeword was complete (R120) -/
  txBuf : List Byte := []
  /-- a RETRAIN record is due, at the end of whose codeword the port enters TRAIN (R151, R152) -/
  retrain : Bool := false
  wakeSent : Bool := false
  wakeRcvd : Bool := false
  /-- the tick on which WAKE had been both sent and received (R146) -/
  wakeBoth : Option Nat := none
  fromSleep : Bool := false
  /-- the overload indication is asserted (R149) -/
  ovl : Bool := false
  /-- an overload in progress: ALIGN with LITE from its assertion until ACTIVE, TRAIN or DOWN -/
  ovlRun : Bool := false
  /-- the assertion that began it has not ended -/
  ovlOn : Bool := false
  /-- the slot begun before the first overloaded codeword is still to be counted (R149) -/
  ovlCut : Bool := false
  /-- the port entered TRAIN by R152 and its indication has not cleared -/
  ovlHold : Bool := false
  /-- the codeword being received as the indication cleared is still overloaded -/
  ovlTail : Bool := false
  ovlAt : Nat := 0
  ovlClear : Nat := 0
  /-- the receiver has codeword lock -/
  lock : Bool := false
  /-- local_ticks of the last traffic cell sent or received (R140) -/
  traffic : Nat := 0
  /-- POS and FIRST of the last codeword -/
  pos : Option Nat := none
  first : Option Nat := none
  uncorrRun : Nat := 0
  /-- bytes of a cell not yet complete; none while the cell boundary is unknown -/
  part : Option (List Byte) := none
  /-- cells delimited and not yet taken by their arrival step -/
  rx : List (List Byte) := []
  /-- the link record of the last control codeword, until its own step takes it (R121) -/
  rxRec : Option (List Byte) := none
  pkgReady : Bool := false
  /-- a link loss by PEER_FENCED holds SEEK -/
  peerFenced : Bool := false
  qVc3 : List Cell := []
  qVc2 : List Cell := []
  qCirc : List Cell := []
  qVc0s : List Cell := []
  qVc0r : List Cell := []
  qVc1r : List Cell := []
  /-- the next of VC0 and VC1 to send is VC1 (R94) -/
  nextVc1 : Bool := false
  /-- the next of the VC0 queues to send is the ring buffer (R166) -/
  nextRing : Bool := false
  rtt : Option Nat := none
  /-- TX_TIME and receive stamp of the last SYNC received since ACTIVE (Table 2.2) -/
  echo : Option (W64 × W64) := none
  seq : Nat := 0
  offer : Option Offer := none
  deriving DecidableEq, Repr

/-- A cell the engine injects that waits at its source (R168). -/
structure Waiting where
  /-- the injecting stream; 256 for cells the engine produces itself -/
  stream : Nat
  cell : Cell
  port : Nat
  cls : QCls
  /-- ring discipline of the injecting step: 0 none, 1 BUBBLE, 2 DATELINE -/
  ring : Nat := 0
  /-- a multicast copy, bounded by LACE_HOLD from its first attempt (R211); with `fresh` and port 31 a multicast cell whose
  copies are not made yet -/
  mc : Bool := false
  /-- the stream has not advanced to it: its lookup and its first attempt are still to come (R168, R211) -/
  fresh : Bool := false
  /-- of a multicast copy: the ports on which its cell's copies have been admitted or lost -/
  done : List Nat := []
  since : Nat := 0
  deriving DecidableEq, Repr

/-- A multicast copy in the hold store (R208). -/
structure Held where
  port : Nat
  cell : Cell
  since : Nat
  deriving DecidableEq, Repr

/-- A key of the NOTICE suppression list (R214). -/
structure NoticeKey where
  src : Nat
  stream : Nat
  seq : Nat
  port : Nat
  added : Nat
  deriving DecidableEq, Repr

/-! ### Detectors, the journal and push queues, Awl -/

/-- A detector's event-record interval (R410). -/
structure DetS where
  lastRec : Option Nat := none
  suppressed : Nat := 0
  deriving DecidableEq, Repr

/-- A record waiting for the journal (R483): its KIND and BODY (Table 15.9). -/
structure JRec where
  kind : Nat
  body : List Byte
  inj : Bool := false
  deriving DecidableEq, Repr

/-- A record waiting to be pushed (R514). -/
structure PRec where
  kind : Nat
  bytes : List Byte
  pseq : Nat
  tries : Nat := 0
  deriving DecidableEq, Repr

/-- The settings an armed injection point runs with (R549). -/
structure ArmS where
  on : Bool := false
  kind : Nat := 0
  gate : Bool := false
  n : Nat := 1
  limit : Nat := 0
  atTime : Nat := 0
  filter : Word := 0
  leaseEnd : Nat := 0
  /-- opportunities counted and injections made since arming -/
  opp : Nat := 0
  inj : Nat := 0
  deriving DecidableEq, Repr

/-- One injection point: its registers (R548) and its armed state before and after the last write to AWL_ARM (R552). -/
structure AwlPoint where
  mode : Word := 0
  param : Word := 1
  atLo : Word := 0
  atHi : Word := 0
  filter : Word := 0
  lease : Word := 0x10000
  count : Word := 0
  cur : ArmS := {}
  old : ArmS := {}
  wrote : Option Nat := none
  deriving DecidableEq, Repr

/-! ### Route and lace table versions (Changing a Running Machine) -/

/-- The epoch flip (R436–R444). -/
structure EpochS where
  /-- no version is CURRENT or DRAINING (R436) -/
  closed : Bool := true
  /-- the injection epoch -/
  inj : Nat := 0
  draining : Bool := false
  /-- F of the flip being drained, and F + D -/
  drainF : W64 := 0
  drainEnd : W64 := 0
  armed : Option W64 := none
  flips : Nat := 0
  deriving DecidableEq, Repr

/-- A flash frame (R488–R490): the select, the clock settings in force, and its phases, each with its lane field (0 one lane,
1 two, 2 four). -/
structure FlashFrame where
  /-- on NVM_CS1#, not NVM_CS0# -/
  cs1 : Bool := false
  sckDiv : Nat
  mode : Nat
  cmd : Nat
  /-- a 16-bit command -/
  wide : Bool := false
  cmdLanes : Nat := 0
  addr : Option Nat := none
  /-- a 32-bit address -/
  addr32 : Bool := true
  addrLanes : Nat := 0
  dummy : Nat := 0
  dataLanes : Nat := 0
  /-- data bytes sent -/
  data : List Byte := []
  /-- data bytes received -/
  recv : Nat := 0
  deriving DecidableEq, Repr

/-- Something that left the engine by its pins, in the order it left. -/
inductive Out where
  /-- a cell's transmission begins on a serial port, with its hop check (R94) -/
  | cell (port : Nat) (bytes : List Byte)
  /-- a codeword is complete: its 20-bit header and its body, cells of the cell stream or a link record (Tables 4.3, 4.4) -/
  | codeword (port : Nat) (header : Nat) (body : List Byte)
  /-- this end's training frames begin (R131) -/
  | training (port : Nat)
  /-- a beacon word (Table 4.6) -/
  | beacon (port : Nat) (word : W64)
  /-- a WAKE burst (R144) -/
  | wake (port : Nat)
  /-- a package write transaction to accelerator memory: transaction number, board address, bytes, and the PKG port of each of
  its 64-byte beats (R255) -/
  | pkgWrite (id : Nat) (addr : Nat) (bytes : List Byte) (ports : List Nat)
  /-- a package read transaction: transaction number, board address, length, and the PKG port of each of its beats (R255) -/
  | pkgRead (id : Nat) (addr : Nat) (len : Nat) (ports : List Nat)
  /-- a package response to the accelerator: accepted or refused, and data (R257, R267) -/
  | pkgRsp (ok : Bool) (bytes : List Byte)
  /-- words returned on MGT_MISO (R504) -/
  | mgt (words : List Word)
  /-- a push frame sent as master (R516) -/
  | push (words : List Word)
  /-- a flash frame (R489) -/
  | flash (f : FlashFrame)
  /-- THERMTRIP# asserted (R618) -/
  | thermtrip
  /-- MGT_CS# pulled low as master, or released (R515) -/
  | mgtCs (low : Bool)
  /-- an image of the boundary or data registers on TDO (R619) -/
  | tdo (value : Word)
  deriving DecidableEq, Repr

/-- What the congestion map counts for one port in the current window (Table 17.1). -/
structure TelPort where
  maxStd : Nat := 0
  maxRing : Nat := 0
  maxCirc : Nat := 0
  maxVc2 : Nat := 0
  sent : Nat := 0
  defl : Nat := 0
  disc : Nat := 0
  circ : Nat := 0
  iwait : Nat := 0
  hist : List Nat := [0, 0, 0, 0, 0, 0, 0, 0]
  notActive : Bool := false
  inj : Bool := false
  deriving DecidableEq, Repr

/-! ### Streams, requests and Lasts -/

/-- Stream states (Table 8.2). -/
inductive StrSt where
  | idle | starting | armed | running | ending | faulted | quenching
  deriving DecidableEq, Repr

/-- A request descriptor (Table 8.3). -/
structure Req where
  tag : Nat := 0
  flags : Nat := 0
  overrides : Nat := 0
  last : Nat := 0
  step : Nat := 0
  stream : Nat := 0
  baseTime : Nat := 0
  buf : List Nat := [0, 0, 0, 0]
  sigAddr : Nat := 0
  seed : Nat := 0
  deriving DecidableEq, Repr

/-- A step record (Table 8.6). -/
structure Rec where
  opcode : Nat := 0
  flags : Nat := 0
  peer : Nat := 0
  launch : Nat := 0
  deadline : Nat := 0
  buf : Nat := 0
  fmt : Nat := 0
  opRing : Nat := 0
  peerStream : Nat := 0
  inOff : Nat := 0
  outOff : Nat := 0
  length : Nat := 0
  dateline : Nat := 0
  aux : Nat := 0
  deriving DecidableEq, Repr

/-- One contribution taken at a position (R307, R311, R394). -/
structure Contrib where
  rank : Nat
  count : Nat
  elements : Nat
  data : List Byte
  /-- SEAL STEP, SEQ and LATE flag of the chunk -/
  sstep : Nat := 0
  seq : Nat := 0
  late : Bool := false
  /-- its chunk check -/
  check : Nat := 0
  /-- it came from the anneal buffer (R394) -/
  carried : Bool := false
  /-- its SEAL carried ANNEAL_CARRY (R113) -/
  carry : Bool := false
  inj : Bool := false
  vc1 : Bool := false
  /-- a combiner has added it -/
  added : Bool := false
  deriving DecidableEq, Repr

/-- A position of a step: one chunk taken, combined, converted or sent (R306). -/
structure Pos where
  j : Nat
  taken : List Contrib := []
  /-- the local input chunk and its contributor count, once read -/
  loc : Option (List Byte × Nat) := none
  /-- the marks its local input chunk had -/
  locMark : Nat := 0
  /-- the combiner that holds its accumulator slots (R316) -/
  comb : Option Nat := none
  slots : Nat := 0
  slotWait : Bool := false
  /-- it holds its accumulator's staging block (R291) -/
  blk : Bool := false
  /-- the landing timestamp of its first chunk (R317) -/
  first : Nat := 0
  /-- closed short under the late policy (R390) -/
  short : Bool := false
  /-- output chunks formed, with their counts, and how many are handed on -/
  outs : Option (List (List Byte × Nat)) := none
  handed : Nat := 0
  carry : Bool := false
  deriving DecidableEq, Repr

/-- A chunk of a sending leg that has no final outcome (R378, R400). -/
structure LegChunk where
  seq : Nat
  /-- the SEAL payload of its first transmission -/
  sealP : List Byte
  check : Nat
  data : List Byte
  /-- the input chunk's address, and its VC -/
  addr : Nat := 0
  vc : Nat := 0
  /-- the tick of R402: 8 × RETX_WAIT after its first transmission began -/
  limit : Option Nat := none
  /-- the expiry of its timer, once the SEAL of its latest transmission has begun transmission (R400) -/
  due : Option Nat := none
  retries : Nat := 0
  resent : Bool := false
  /-- the next retransmission is not counted (TAKEN with DUP, Table 12.5) -/
  uncounted : Bool := false
  deriving DecidableEq, Repr

/-- A memory window (R232): BASE, LIMIT and CTRL. -/
structure Win where
  base : Nat
  limit : Nat
  ctrl : Word
  deriving DecidableEq, Repr

/-- A sending leg: the chunks of one sending step for one destination engine (R378). -/
structure Leg where
  step : Nat
  rid : Nat
  dest : Nat
  rank : Nat
  str : Nat
  /-- 0 unicast; 1 lace, 2 row, 3 column -/
  mc : Nat := 0
  lace : Nat := 0
  /-- chunks sent for the first time -/
  sent : Nat := 0
  len : Nat
  out : List LegChunk := []
  started : Bool := false
  /-- the tick from which the next leg may start: RETX_WAIT after the last retransmission began (R379) -/
  after : Option Nat := none
  /-- SEQs of retransmissions that have not begun (R379) -/
  owing : List Nat := []
  /-- the ring discipline of its cells -/
  ring : Nat := 0
  /-- the windows its step was launched with -/
  win : List Win := []
  inc : Option Nat := none
  deriving DecidableEq, Repr

/-- What finished legs toward one engine and destination stream leave (R379): the tick from which a next leg may start, and
SEQs of retransmissions that have not begun. -/
structure Gap where
  dest : Nat
  str : Nat
  after : Nat := 0
  owing : List Nat := []
  deriving DecidableEq, Repr

/-- A SHARD_UPDATE chunk in progress (R364): its operands as read, its combiner, and whether it is computed. -/
structure SChunk where
  j : Nat
  grad : List Byte := []
  master : List Byte := []
  mom : List Byte := []
  comb : Nat := 0
  /-- a combiner has replaced master and moments by their new values -/
  computed : Bool := false
  /-- its writes have been issued -/
  written : Bool := false
  deriving DecidableEq, Repr

/-- A step between launch and end. -/
structure Run where
  /-- its number in its stream: the same step may run again in a LOOP -/
  rid : Nat
  idx : Nat
  rc : Rec
  /-- local_ticks of firing -/
  fired : Nat
  base : Nat
  bias : Nat
  policy : Nat := 0
  rounding : Nat := 0
  /-- engine ID of the peer rank, resolved at launch -/
  peerId : Nat := 0x1FFF
  peerRank : Nat := 0
  /-- source rank of a COMBINE_SEND, 0xFFFF for none -/
  auxRank : Nat := 0xFFFF
  auxId : Nat := 0x1FFF
  members : List (Nat × Nat) := []
  /-- the partition's windows and rank map in force at launch (R263) -/
  win : List Win := []
  map : List Nat := []
  self : Nat := 0
  /-- PARn_ANNEAL_MAX and the rank of DATELINE_RANK, as at launch (R263) -/
  annealMax : Nat := 0
  dlRank : Nat := 0
  /-- the slot of a board-kind peer -/
  slot : Nat := 0
  ended : Bool := false
  /-- chunks sent, accesses issued, or positions handed on, in order -/
  done : Nat := 0
  poss : List Pos := []
  /-- accesses completed -/
  completed : Nat := 0
  expired : Bool := false
  /-- the MTC value of R405, fixed as the deadline expires -/
  limit : Nat := 0
  late : Bool := false
  /-- capture ID (R532) -/
  cap : Option Nat := none
  /-- waiting for a staging block: until this tick at most, or, where true, until its deadline (R293) -/
  blockWait : Option (Nat × Bool) := none
  /-- the SEAL cell of the last chunk sent, while it may still wait (R283) -/
  lastSeal : Option Cell := none
  /-- SHARD_UPDATE: the update block as read, chunks in progress, the next to begin, the tick the last began -/
  ub : Option (List Byte) := none
  shards : List SChunk := []
  nextShard : Nat := 0
  lastBegin : Option Nat := none
  /-- chunks whose writes are all acknowledged -/
  acked : List Nat := []
  /-- working-copy chunks written in part: their bits so far, by output chunk -/
  edges : Tbl Nat := []
  deriving DecidableEq, Repr

/-- A receiving step that has ended while its landed records are held (R383). -/
structure ClosedStep where
  run : Run
  step : Nat
  lastOff : Nat
  /-- the tick 4 × RETX_WAIT after its end (R383) -/
  due : Nat
  /-- the sources a later receiving step of the stream has taken a chunk from since (R383) -/
  gone : List Nat := []
  deriving DecidableEq, Repr

/-- A landed record (R380, R381). -/
structure Landed where
  stream : Nat
  src : Nat
  /-- the run it belongs to, and the stream its receipts name (R280) -/
  rid : Nat
  rstream : Nat
  /-- the own rank its receipts name -/
  self : Nat := 0
  step : Nat
  idx : Nat
  /-- (SEQ, chunk check), one per slot SEQ mod 512 -/
  entries : List (Nat × Nat) := []
  /-- positions landed at or above P -/
  above : List Nat := []
  p : Nat := 0
  /-- 4 × RETX_WAIT after its last landing (R383) -/
  due : Nat := 0
  deriving DecidableEq, Repr

/-- A chunk being assembled (R106). -/
structure Asm where
  /-- the DEST field of its cells (R103) -/
  dest : Nat
  src : Nat
  stream : Nat
  seq : Nat
  cells : List (Nat × List Byte) := []
  sealP : Option (List Byte) := none
  vc1 : Bool := false
  mc : Bool := false
  /-- the tick the last of the 65 cells came -/
  full : Option Nat := none
  deriving DecidableEq, Repr

/-- A stream. -/
structure Stream where
  st : StrSt := .idle
  part : Nat := 0
  req : Req := {}
  /-- Last header: STEP_COUNT, FLAGS -/
  steps : Nat := 0
  hflags : Nat := 0
  need : Nat := 0
  /-- the header has been read and tested -/
  hdrOk : Bool := false
  base : Nat := 0
  bias : Nat := 0
  /-- index of the next step to arm, and of the step last armed -/
  next : Nat := 0
  lastArmed : Nat := 0
  /-- the record of step `next`, once read -/
  rec1 : Option Rec := none
  /-- the tick of the read request -/
  recAt : Option Nat := none
  /-- the armed step: index, record, launch time, tick of arming -/
  arm : Option (Nat × Rec × Nat × Nat) := none
  lateArmed : Bool := false
  /-- the tick on which the step last fired ended (R287) -/
  endedAt : Option Nat := none
  /-- the step before `next` has fired with OVERLAP, or a LOOP acted on this tick (R290) -/
  overlap : Bool := true
  loopAt : Option Nat := none
  runs : List Run := []
  loops : List (Nat × Nat) := []
  /-- its reserve, the blocks of it in use, and the blocks drawn beyond it (R291) -/
  reserve : Nat := 0
  inUse : Nat := 0
  drawn : Nat := 0
  lateArm : Bool := false
  late : Bool := false
  lateCount : Nat := 0
  inj : Bool := false
  captured : Bool := false
  status : Nat := 0
  /-- its completion has been written -/
  finished : Bool := false
  faultStep : Nat := 0xFFFF
  detail : Nat := 0
  cmap : List ((Nat × Nat) × Nat) := []
  closed : List ClosedStep := []
  legs : List Leg := []
  /-- what finished legs that were retransmitted leave, by destination and destination stream (R379) -/
  gaps : List Gap := []
  /-- buffer chunks written by a NARROW (bit 0), from a chunk that arrived on VC1 (bit 1), or with folded data among their
  contributions (bit 2) (R113, R179) -/
  marks : List ((Nat × Nat) × Nat) := []
  /-- next OPN, and number of the next run -/
  opn : Nat := 0
  rid : Nat := 0
  /-- the first run number of the present request -/
  rid0 : Nat := 0
  /-- next PSEQ toward each slot; the last is that of the service port SVC1, which data copies use (R539) -/
  pseq : List Nat := [0, 0, 0, 0, 0, 0, 0, 0, 0, 0, 0, 0, 0, 0, 0, 0, 0]
  deriving DecidableEq, Repr

/-- An anneal buffer entry (R392). -/
structure Anneal where
  stream : Nat
  last : Nat
  idx : Nat
  pos : Nat
  rank : Nat
  sstep : Nat
  count : Nat
  fmt : Nat
  elements : Nat
  seq : Nat
  late : Bool := false
  ordered : Bool := false
  /-- its block is one of the stream's reserve (R291) -/
  res : Bool := false
  data : List Byte
  deriving DecidableEq, Repr

/-- A partition's hidden state. -/
structure Par where
  /-- a descriptor read is in progress -/
  reading : Bool := false
  /-- the request in STARTING without a stream yet (R272) -/
  starting : Option Req := none
  /-- the stream of the request in STARTING -/
  startStr : Option Nat := none
  outstanding : Nat := 0
  anneal : List Anneal := []
  /-- ledger entries software has not read (R396) -/
  unread : List Nat := []
  deriving DecidableEq, Repr

/-- Package writes to a register on this tick (R267): the register they changed and DOORBELL_BAD before the first, and the values
written, in order. -/
structure PkgWrote where
  was : Word
  bad : Bool
  vals : List Word
  deriving DecidableEq, Repr

/-! ### One-sided access (Board Memory) -/

/-- Kinds of access. -/
inductive AccKind where
  | put | get | atomic
  deriving DecidableEq, Repr

/-- A held tag: a remote access outstanding (R237). -/
structure Tag where
  stream : Nat
  opn : Nat
  kind : AccKind
  step : Nat
  rid : Nat := 0
  slot : Nat
  port : Nat
  dest : Nat
  addr : Nat
  len : Nat
  loc : Nat
  part : Nat
  pseq : Nat := 0
  op : Nat := 0
  operand : Nat := 0
  compare : Nat := 0
  data : List Byte := []
  retries : Nat := 0
  /-- 8 × RETX_WAIT after its first issue (Table 7.6) -/
  limit : Nat := 0
  /-- the expiry of its timer, once the current issue's tail has been sent -/
  due : Option Nat := none
  busyAt : Option Nat := none
  rx : List (Nat × List Byte) := []
  /-- a data copy of a capture: its ID, and the number of its entry where it is one (R539) -/
  copy : Option (Nat × Option Nat) := none
  inj : Bool := false
  deriving DecidableEq, Repr

/-- States of an assembly slot at the target (R243, R244). -/
inductive SlotSt where
  | filling | checking | held | landing
  deriving DecidableEq, Repr

/-- An assembly slot: a PUT or a held ATOMIC at the target. -/
structure Slot where
  port : Nat
  stream : Nat
  opn : Nat
  st : SlotSt := .filling
  cells : List (Nat × List Byte) := []
  tail : Option (List Byte) := none
  src : Nat := 0x1FFF
  /-- 2 × RETX_WAIT after its first cell (R243) -/
  due : Nat
  fullAt : Option Nat := none
  /-- 4 × RETX_WAIT after it was held (R245) -/
  skip : Nat := 0
  deriving DecidableEq, Repr

/-- What the target keeps for a source port and STREAM (R244, R252). -/
structure Order where
  expect : Nat := 0
  old : Nat := 0
  deriving DecidableEq, Repr

/-- A GET the target is reading for. -/
structure GetJob where
  port : Nat
  stream : Nat
  opn : Nat
  src : Nat
  addr : Nat
  len : Nat
  pseq : Nat
  inj : Bool := false
  part : Nat := 0
  deriving DecidableEq, Repr

/-- Whom a package write belongs to. -/
inductive Owner where
  /-- the completion record of a request: partition, stream, signal word to follow (address and value) -/
  | completion (part : Nat) (stream : Option Nat) (signal : Option (Nat × Nat))
  | signalWord (part : Nat)
  | step (stream rid idx : Nat)
  | put (port stream opn : Nat)
  /-- a write of chunk `chunk` of a SHARD_UPDATE: of its part of output chunk `out` of the working copy, or of master chunk or
  moment group -/
  | shard (stream rid chunk : Nat) (out : Option Nat)
  | replay (stream : Nat)
  deriving DecidableEq, Repr

/-- A package write transaction in flight (R255, R256). -/
structure Txn where
  id : Nat
  addr : Nat
  bytes : List Byte
  owner : Owner
  issued : Nat
  resends : Nat := 0
  /-- its beats have been issued; until then it waits (R249, R255) -/
  sent : Bool := true
  deriving DecidableEq, Repr


/-! ### Captures and replay (Telemetry and Step Replay) -/

/-- A run of check items not yet written as a unit (R536). -/
structure CapRun where
  kind : Nat
  target : Nat
  first : Nat
  items : List (Nat × Nat) := []
  deriving DecidableEq, Repr

/-- A capture (R530–R539). -/
structure Cap where
  id : Nat
  stream : Nat
  idx : Nat
  part : Nat
  /-- the unit index END is kept in -/
  endUnit : Nat
  units : Nat := 3
  entries : Nat := 0
  /-- entries not yet written as a unit, and the units of those written -/
  ebuf : List (List Byte) := []
  eloc : List (Option Nat) := []
  runs : List CapRun := []
  truncated : Bool := false
  lost : Bool := false
  flip : Bool := false
  inj : Bool := false
  data : Bool := false
  dataStart : Nat := 0
  items : Nat := 0
  ended : Bool := false
  status : Nat := 0
  endedAt : Nat := 0
  deriving DecidableEq, Repr

/-- A data item in the copy buffer (R539). -/
structure CopyItem where
  cap : Nat
  entry : Option Nat
  stream : Nat
  part : Nat
  step : Nat
  /-- the target of its unit (Table 17.9), 255 for contribution entries, and its place in the unit -/
  target : Nat
  place : Nat
  /-- its data offset, once its unit has its place in the ring -/
  off : Option Nat := none
  bytes : List Byte
  deriving DecidableEq, Repr

/-- A replay from its GO until its end (R542, R546). -/
structure Replay where
  stream : Nat
  cap : Nat
  /-- it runs from the tick after GO; until then, the HEAD0 unit and the addresses its tests were made with -/
  ready : Bool := false
  unit : Nat := 0
  bufs : List Nat := []
  data : Nat := 0
  emit : Nat := 0
  /-- the fault of the step, if any -/
  fault : Option Nat := none
  mism : Nat := 0
  /-- the first mismatch: its item index and whether it is an input -/
  first : Option (Nat × Bool) := none
  deriving DecidableEq, Repr

/-! ### Reset and boot (Boot, Configuration Image and Journal; Pins, Power and Reset) -/

/-- What the boot descriptor in force says beside its read frame, SCK_DIV and MODE, which stand in NVM_READ_CMD and
NVM_READ_FMT (Table 15.4). -/
structure DescS where
  /-- the default settings of R465 are in force -/
  deflt : Bool := true
  wren : Nat := 0
  prog : Nat := 0
  erase : Nat := 0
  eraseLog : Nat := 12
  status : Nat := 0
  busy : Nat := 0
  progTmo : Nat := 0
  eraseTmo : Nat := 0
  deriving DecidableEq, Repr

/-- Where the boot sequence stands. -/
structure BootS where
  /-- the tick on which the boot record was committed, or its write had failed (Table 15.2, step 5) -/
  recordOut : Option Nat := none
  desc : DescS := {}
  /-- candidate slots not yet tried, in order: 0 slot A, 1 slot B (R470) -/
  cands : Option (List Nat) := none
  /-- step 5 has been entered since the last cold reset or reload began (R607) -/
  entered5 : Bool := false
  /-- the boot follows PORST# (R475) -/
  fromCold : Bool := true
  /-- the journal's last BOOT incarnation has been taken in since PORST# (R423) -/
  scanned : Bool := false
  /-- records waiting for the journal since before this boot (R483, R485) -/
  older : Nat := 0
  /-- journal sectors to be erased before the next record is written, and sectors skipped after a failed erase (R482) -/
  eraseDue : List Nat := []
  skip : List Nat := []
  deriving DecidableEq, Repr

/-- The resets and the pins that start them (Pins, Power and Reset). -/
structure RstS where
  /-- in cold reset -/
  cold : Bool := true
  /-- PORST# is asserted -/
  pin : Bool := true
  /-- local_ticks at the recognition of the cold reset -/
  coldAt : Nat := 0
  /-- the internal cold reset is over -/
  ended : Bool := false
  /-- a supply dip caused it (R596) -/
  dip : Bool := false
  /-- the JTAG instruction (Table 20.7); IDCODE after a reset of the test access port -/
  jtag : Nat := 1
  /-- levels at the strap pins: BOOT_SRC [1:0], TIME_ROOT [2], NVM_LANES [4:3] -/
  straps : Nat := 0
  /-- WARM# is asserted -/
  warmPin : Bool := false
  /-- the recognition of the WARM# reset being served (R606) -/
  warmAt : Option Nat := none
  /-- a warm reset or reload is in progress and has not entered step 5 (R608) -/
  prog : Bool := false
  /-- the reset in progress runs as a reload (R607) -/
  asReload : Bool := false
  /-- resets written and not yet started: due tick, CAUSE, reload (R426) -/
  soft : List (Nat × Nat × Bool) := []
  deriving DecidableEq, Repr

/-! ### Flash and management port (Flash and Management Serial Ports) -/

/-- Users of the flash port (Table 16.2). -/
inductive FUser where
  | none | boot | journal | window | software
  deriving DecidableEq, Repr

/-- A software sequence: its registers as they stood at GO, and whether its sequence frame has been sent and has ended
(R497). -/
structure SwSeq where
  cmd : Word
  addr : Word
  ctrl : Word
  sent : Bool := false
  ended : Bool := false
  deriving DecidableEq, Repr

/-- The flash port. -/
structure FlashS where
  owner : FUser := .none
  /-- the flash is busy, since this tick (R494) -/
  busy : Bool := false
  since : Nat := 0
  /-- the busy state ends at the erase timeout, not the program timeout -/
  long : Bool := false
  /-- the journal's unit is an erase -/
  erasing : Bool := false
  /-- the journal record being written, and whether its second program has begun (R481) -/
  rcd : List Byte := []
  second : Bool := false
  /-- the journal's program or erase frame has ended, and its status is polled -/
  polling : Bool := false
  /-- a window read that waits or is being read: flash address, words (R495) -/
  window : Option (Nat × Nat) := none
  sw : Option SwSeq := none
  /-- a sequence that a reset ended, whose frame in progress completes (R499) -/
  stopped : Option SwSeq := none
  deriving DecidableEq, Repr

/-- The management port (R502–R512). -/
structure MgtS where
  fseq : Nat := 0
  /-- the reply to the last executed frame: status word, then data words -/
  reply : List Word := [0]
  /-- the reply waits for its flash frame -/
  wait : Bool := false
  /-- until this tick the reply may not be ready yet (R509) -/
  lateAt : Nat := 0
  lost : Bool := false
  /-- no status word has been sent since PORST# -/
  fresh : Bool := true
  lastWord : Word := 0
  tripped : Bool := false
  /-- local_ticks at the last release of MGT_CS# -/
  idleFrom : Nat := 0
  deriving DecidableEq, Repr

/-! ### The fabric manager's access (Integrity, Faults and Spares) -/

/-- A CTRL replay cache entry (R421). -/
structure CacheEnt where
  src : Nat
  tag : Nat
  /-- the tick it entered -/
  at_ : Nat
  cell : Cell
  deriving DecidableEq, Repr

/-- What the fabric manager's access keeps. -/
structure MgrS where
  /-- the tick the adoption window opened -/
  adoptAt : Option Nat := none
  cache : List CacheEnt := []
  /-- the last cells sent by GLB_CTRL_SEND and TEL_SVY_SEND -/
  ctrlSent : Option Cell := none
  svySent : Option Cell := none
  /-- the tick whose opportunities of injection points 4 and 11 have been counted -/
  oppAt : Option Nat := none
  deriving DecidableEq, Repr

/-- The congestion map as a whole (R521, R524). -/
structure MapS where
  /-- MTC of the first tick of the window in progress -/
  window : Nat := 0
  /-- the next record is the first since ENABLE was set -/
  first : Bool := false
  /-- ticks were jumped over in this window -/
  jumped : Bool := false
  /-- MTC of the first tick of the last completed window -/
  last : Nat := 0
  deriving DecidableEq, Repr

/-- Something whose ticks of waiting are counted, beside cells, legs and positions. -/
inductive WaitMark where
  /-- chunk `j` of run `rid` of stream `k`, which would leave by `ports`, while 512 of its leg have no final outcome (R378) -/
  | window (k rid j : Nat) (ports : List Nat)
  /-- access `j` of a run to a slot, with no tag for it (R237) -/
  | tag (k rid j slot : Nat) (kind : AccKind)
  /-- a data copy with no tag for it (R237, R539) -/
  | copy
  /-- a run's read of address `a` at the gate of a SHARD_UPDATE (R372) -/
  | gate (k rid a : Nat)
  /-- chunk `j` of a SHARD_UPDATE with no combiner slot for it (R317, R365) -/
  | slot (k rid j : Nat)
  deriving DecidableEq, Repr

/-- The machine. -/
structure State where
  /-- the commands waiting, first in, first out -/
  pending : List Instr := []
  /-- writes to the byte memories by the command in progress; empty between commands -/
  writes : List MemWrite := []
  /-- the staging store's bytes (R253); unlisted bytes read 0 (R424) -/
  stg : List Host.Cell := []
  /-- the flash's bytes (R462); unlisted bytes read 0xFF (log entry 4) -/
  flash : List Host.Cell := []
  /-- registers by management address, where they differ from `resetReg` -/
  regs : Tbl Word := []
  /-- pending values of RWS registers and rank map words, by address (R448) -/
  staged : Tbl Word := []
  /-- those written on this tick, which apply at no apply point of it (R448) -/
  stagedNow : Tbl Word := []
  /-- pending values of Boot registers, by address, oldest first (R449) -/
  bootPend : List (Nat × Word) := []
  /-- table memory words holding an uncorrectable error (R413) -/
  eccBad : List Nat := []
  /-- staging words (offset div 8) holding an uncorrectable error (R254) -/
  stgBad : List Nat := []
  t : TimeS := {}
  clk : ClkS := {}
  roots : RootS := {}
  ports : Tbl Port := []
  waiting : List Waiting := []
  /-- what waits otherwise, for the counts of each tick of waiting -/
  waits : List WaitMark := []
  hold : List Held := []
  notices : List NoticeKey := []
  /-- cells the engine has sent to itself, awaiting delivery -/
  localQ : List Cell := []
  dets : Tbl DetS := []
  jq : List JRec := []
  pushq : List PRec := []
  pseq : Nat := 0
  awl : Tbl AwlPoint := []
  ep : EpochS := {}
  streams : Tbl Stream := []
  pars : Tbl Par := []
  asms : List Asm := []
  /-- landed records, at most 2,048 (R382) -/
  landed : List Landed := []
  /-- receipts to be queued, with the tick from which they are due (R387) -/
  receipts : List (Nat × Cell) := []
  tags : List Tag := []
  slots : List Slot := []
  orders : Tbl Order := []
  gets : List GetJob := []
  /-- package writes in flight and the number of the next -/
  txns : List Txn := []
  txnId : Nat := 0
  /-- the set of ACTIVE PKG ports the beats in flight were issued with (R255) -/
  pkgSet : List Nat := []
  /-- PUTs whose first cell found no assembly slot, by source port, STREAM and OPN, and the tick they are forgotten (R243) -/
  lostPuts : List (Nat × Nat × Nat × Nat) := []
  /-- signal words waiting for their completion record's acknowledgement: partition, address, value (R298) -/
  signals : List (Nat × Nat × Nat) := []
  /-- latches of 64-bit reads, by address and access path (R82, R627) -/
  latches : Tbl Word := []
  tel : Tbl TelPort := []
  caps : List Cap := []
  copyBuf : List CopyItem := []
  replay : Option Replay := none
  boot : BootS := {}
  rst : RstS := {}
  fl : FlashS := {}
  mgt : MgtS := {}
  mgr : MgrS := {}
  map : MapS := {}
  /-- event bits set and counter increments made on this tick, by address (R451) -/
  touch : Tbl Nat := []
  /-- package writes to PARn_DOORBELL and PARn_CPL_HEAD on this tick, by address (R267) -/
  pkgWrote : Tbl PkgWrote := []
  /-- table memory words written on this tick, as they stood at the end of the previous one (R162) -/
  tblOld : Tbl Word := []
  /-- how many free values have been used -/
  free : Nat := 0
  /-- what has left by the pins -/
  out : List Out := []
  deriving DecidableEq, Repr

/-- The fixed format descriptors (Table 10.6). -/
def resetFmt (n : Nat) : Word :=
  match n with
  | 0 => 0x800FF78C
  | 1 => 0x800FE78B
  | 2 => 0x8001EA5B
  | 3 => 0x8020E34A
  | 4 => 0x8001E25A
  | 5 => 0x81A0E34A
  | 6 => 0x81C0C70A
  | 7 => 0x80401F0C
  | _ => 0

/-- The reset value of the register at an address (R624, Tables 21.4–21.17). -/
def resetReg (a : Nat) : Word :=
  if a = R.glbId then 0x4F4E4807
  else if a = R.glbStepping then 0x00004101
  else if a = R.glbEngineId then 0x1FFF
  else if a = R.glbAlertPinMask then 0x0007480C
  else if a = R.glbAlertRingMask then 0x000FFFFF
  else if a = R.glbAdopt then 0x1FFF0000
  else if a = R.glbMgrId then 0x1FFF1FFF
  else if a = R.glbJournalMask then 0x0007480C
  else if a = R.glbBootStatus then 0x0000C000
  else if a = R.glbTempWarn then 0x290
  else if a = R.glbCtrlTxDest then 0x1FFF
  else if a = R.clkConfig then 1
  else if a = R.mtcRackRoot then 0x1FFF
  else if a = R.mtcMachineRoot then 0x1FFF
  else if a = R.mtcStatus then 0x1F00
  else if a = R.mtcRoots then 0x1FFF1FFF
  else if 0x40000 ≤ a ∧ a < 0x60000 then
    (if a % 0x1000 = 0x004 then 0x04000001
     else if a % 0x1000 = 0x00C then 0x1FFF
     else if a % 0x1000 = 0x014 then 0x1FFF
     else 0)
  else if a = R.tblDrain then 0x4000
  else if a = R.tblDeflectMax then 3
  else if a = R.tblLaceHold then 0x100
  else if a = R.tblRowMask then 0x7FFF
  else if 0xA0000 ≤ a ∧ a < 0xB0000 then (if a % 0x100 = 0xD4 then 0x7FFC1FFF else 0)
  else if a = R.strRetxWait then 0x8000
  else if 0xC0000 ≤ a ∧ a < 0xD0000 then
    (if a % 0x1000 = 0x028 then 4
     else if a % 0x1000 = 0x034 then 4
     else if a % 0x1000 = 0x070 then 2
     else 0)
  else if 0xE0000 ≤ a ∧ a < 0xE0020 then resetFmt ((a - 0xE0000) / 4)
  else if a = R.memPkgTimeout then 0x4000
  else if a = R.nvmReadCmd then 3
  else if a = R.nvmReadFmt then 0x6000
  else if a = R.nvmFcmd then 0x00100000
  else if a = R.mgtConfig then 0x00190010
  else if a = R.telConfig then 1
  else if a = R.telSvyTxDest then 0x1FFF
  else if a = R.rplDataSize then 0x400
  else 0

/-- The engine after PORST#, before its release is seen: every register at its reset value, no version CURRENT, every
port DOWN, memories clear, nothing waiting (R424, R604, R624). -/
def State.reset : State := {}

end Sys2Proof.Machine
end

