-- ==== Sys2Proof/Machine/Ops.lean ====
section
/-! DEFINITION. The named operations over the state: registers, counters, byte memories, free values, detectors, and
the frame every command's meaning is run in. -/
namespace Sys2Proof.Machine

/-! ### Registers and counters -/

/-- The value a register holds (its one home; computed registers are formed in RegAccess). -/
def rd (s : State) (a : Nat) : Word := tget (resetReg a) a s.regs

/-- The value a register holds, as a number. -/
def rdN (s : State) (a : Nat) : Nat := (rd s a).toNat

/-- Store a register's value. -/
def wr (a : Nat) (v : Word) (s : State) : State := { s with regs := tsetD (resetReg a) a v s.regs }

/-- Store a register's value given as a number. -/
def wrN (a n : Nat) (s : State) : State := wr a (BitVec.ofNat 32 n) s

/-- A field of a register. -/
def rfld (s : State) (a hi lo : Nat) : Nat := fld (rd s a) hi lo

/-- Replace a field of a register. -/
def wfld (a hi lo v : Nat) (s : State) : State := wr a (putFld (rd s a) hi lo v) s

/-- A bit of a register. -/
def rbit (s : State) (a i : Nat) : Bool := wbit (rd s a) i

/-- Set or clear a bit of a register. -/
def wbitAt (a i : Nat) (b : Bool) (s : State) : State := wfld a i i (b2n b) s

/-- What the engine has set or counted at an address on this tick (R451). -/
def touched (s : State) (a : Nat) : Nat := tget 0 a s.touch

/-- Note it. -/
def touch (a v : Nat) (s : State) : State := { s with touch := tset a v s.touch }

/-- Set an event bit. -/
def ev (a i : Nat) (s : State) : State := touch a (touched s a ||| 2 ^ i) (wbitAt a i true s)

/-- Set an event bit and show in the register's INJECTED bit whether an injection caused it (R564). -/
def evI (a i ib : Nat) (inj : Bool) (s : State) : State :=
  if inj then ev a ib (ev a i s) else wbitAt a ib false (ev a i s)

/-- Add to a 32-bit counter, which saturates at 0xFFFF_FFFF. -/
def cntBy (a k : Nat) (s : State) : State :=
  touch a (touched s a + k) (wrN a (min (rdN s a + k) 0xFFFFFFFF) s)

/-- Add 1 to a counter. -/
def cnt (a : Nat) (s : State) : State := cntBy a 1 s

/-- local_ticks (R59). -/
def now (s : State) : Nat := s.t.ticks

/-- The MTC as a number; time stamps are its end-of-tick value (R52). -/
def mtcN (s : State) : Nat := s.t.mtc.toNat

/-- GLB_ENGINE_ID. -/
def ownId (s : State) : Nat := rfld s R.glbEngineId 12 0

/-- GLB_INCARNATION. -/
def incarnation (s : State) : Nat := rfld s R.glbIncarnation 3 0

/-- GLB_BOOT_STATUS.STEP. -/
def bootStep (s : State) : Nat := rfld s R.glbBootStatus 3 0

/-- GLB_SEAL.SEALED. -/
def isSealed (s : State) : Bool := rbit s R.glbSeal 0

/-- RETX_WAIT in ticks. -/
def retxWait (s : State) : Nat := rdN s R.strRetxWait

/-- Something leaves by the pins. -/
def emit (o : Out) (s : State) : State := { s with out := s.out ++ [o] }

/-! ### Structured tables -/

/-- Port `n`. -/
def port (s : State) (n : Nat) : Port := tget {} n s.ports

/-- Change port `n`. -/
def modPort (n : Nat) (f : Port → Port) (s : State) : State := { s with ports := tset n (f (port s n)) s.ports }

/-! ### The byte memories (R253, R462): Host.Cell lists, addresses strictly rising, no byte equal to the unlisted value -/

/-- What an unlisted staging byte reads as: R424 zeroes the store (log entry 3). -/
def stgFill : Byte := 0

/-- What an unlisted flash byte reads as: an erased byte (log entry 4). -/
def flashFill : Byte := 0xFF

/-- One byte of a memory whose unlisted bytes read `d`. -/
def Memory.get (d : Byte) (m : List Host.Cell) (a : Nat) : Byte := tget d a m

/-- Write one byte, keeping the canonical form. -/
def Memory.set (d : Byte) (m : List Host.Cell) (a : Nat) (b : Byte) : List Host.Cell := tsetD d a b m

/-- Write bytes from `a` upward. -/
def Memory.put (d : Byte) (m : List Host.Cell) (a : Nat) : List Byte → List Host.Cell
  | [] => m
  | b :: t => Memory.put d (Memory.set d m a b) (a + 1) t

/-- `n` bytes from `a` upward. -/
def Memory.read (d : Byte) (m : List Host.Cell) (a : Nat) : Nat → List Byte
  | 0 => []
  | n + 1 => Memory.get d m a :: Memory.read d m (a + 1) n

/-- No listed byte equals what an unlisted byte reads as. -/
def noFill (d : Byte) : List Host.Cell → Bool
  | [] => true
  | (_, b) :: t => (b != d) && noFill d t

/-- The canonical form of a byte memory. -/
def Memory.wf (d : Byte) (m : List Host.Cell) : Bool := trising m && noFill d m

/-- `n` bytes from `a` upward read as unlisted bytes do. -/
def Memory.clear (m : List Host.Cell) (a n : Nat) : List Host.Cell := m.filter (fun c => decide (c.1 < a ∨ a + n ≤ c.1))

/-- One write, or one clearing. -/
def Memory.write (d : Byte) (m : List Host.Cell) (w : MemWrite) : List Host.Cell :=
  if w.clear = 0 then Memory.put d m w.addr w.bytes else Memory.clear m w.addr w.clear

/-- Apply the writes of one memory, in order. -/
def Memory.apply (fl : Bool) (d : Byte) (m : List Host.Cell) : List MemWrite → List Host.Cell
  | [] => m
  | w :: t => Memory.apply fl d (if w.flash = fl then Memory.write d m w else m) t

/-- The byte at `a` after one write. -/
def overlayOne (d : Byte) (a : Nat) (b : Byte) (w : MemWrite) : Byte :=
  if w.clear ≠ 0 then (if w.addr ≤ a ∧ a < w.addr + w.clear then d else b)
  else if w.addr ≤ a ∧ a < w.addr + w.bytes.length then w.bytes.getD (a - w.addr) 0
  else b

/-- The byte at `a` after the writes of the command in progress. -/
def overlay (fl : Bool) (d : Byte) (a : Nat) (b : Byte) : List MemWrite → Byte
  | [] => b
  | w :: t => overlay fl d a (if w.flash = fl then overlayOne d a b w else b) t

/-- A staging byte. -/
def stgGet (s : State) (a : Nat) : Byte := overlay false stgFill a (Memory.get stgFill s.stg a) s.writes

/-- `n` staging bytes. -/
def stgRead (s : State) (a : Nat) : Nat → List Byte
  | 0 => []
  | n + 1 => stgGet s a :: stgRead s (a + 1) n

/-- Write staging bytes. -/
def stgWrite (a : Nat) (b : List Byte) (s : State) : State :=
  { s with writes := s.writes ++ [{ flash := false, addr := a, bytes := b }] }

/-- A flash byte. -/
def flashGet (s : State) (a : Nat) : Byte := overlay true flashFill a (Memory.get flashFill s.flash a) s.writes

/-- `n` flash bytes. -/
def flashRead (s : State) (a : Nat) : Nat → List Byte
  | 0 => []
  | n + 1 => flashGet s a :: flashRead s (a + 1) n

/-- Store flash bytes. -/
def flashWrite (a : Nat) (b : List Byte) (s : State) : State :=
  { s with writes := s.writes ++ [{ flash := true, addr := a, bytes := b }] }

/-- `n` staging bytes are zeroed. -/
def stgClear (a n : Nat) (s : State) : State :=
  { s with writes := s.writes ++ [{ flash := false, addr := a, bytes := [], clear := n }] }

/-- `n` flash bytes are erased. -/
def flashErase (a n : Nat) (s : State) : State :=
  { s with writes := s.writes ++ [{ flash := true, addr := a, bytes := [], clear := n }] }

/-! ### The frame of a meaning -/

/-- What stands of a meaning's result `s1` that began in `s0`: the queue is `s0`'s, machine time is `s0`'s unless the
command is one of time (R51), and the memories are `s0`'s with the command's writes applied. -/
def commit (time : Bool) (s0 s1 : State) : State :=
  { s1 with
    pending := s0.pending
    writes := []
    t := if time then s1.t else s0.t
    stg := Memory.apply false stgFill s0.stg s1.writes
    flash := Memory.apply true flashFill s0.flash s1.writes }

/-- `f`, but for an engine in cold reset, which does nothing until its release (R604, R605). -/
def live (f : State → State) (s : State) : State := if s.rst.cold then s else f s

/-- Run a meaning that leaves machine time alone. -/
def run (f : State → State) (s : State) : Host.Outcome State Fault Refusal :=
  .next (commit false s (live f { s with writes := [] }))

/-- Run a meaning of machine time: one of the few commands that may change the MTC. -/
def runT (f : State → State) (s : State) : Host.Outcome State Fault Refusal :=
  .next (commit true s (live f { s with writes := [] }))

/-- Run a meaning of the reset pins, the supplies, the test access port or the root PLL, which act in cold reset too. -/
def runPin (f : State → State) (s : State) : Host.Outcome State Fault Refusal :=
  .next (commit true s (f { s with writes := [] }))

/-- `f` where `c` holds; otherwise the command is not due and nothing changes (log entry 1). -/
def whenB (c : Bool) (f : State → State) (s : State) : State := if c then f s else s

/-- Do `f` for each of a list, in order. -/
def forEach {α : Type} (l : List α) (f : α → State → State) (s : State) : State := l.foldl (fun s a => f a s) s

/-- The numbers from `lo` to `hi`, both included. -/
def range (lo hi : Nat) : List Nat := List.range' lo (hi + 1 - lo)

/-! ### Free values (log entry 6) -/

/-- A byte nothing constrains. -/
def freeByte (s : State) : Byte × State := (Config.freeByte s.free, { s with free := s.free + 1 })

/-- `n` bytes nothing constrains. -/
def freeBytes (n : Nat) (s : State) : List Byte × State :=
  ((List.range n).map (fun i => Config.freeByte (s.free + i)), { s with free := s.free + n })

/-- A choice nothing constrains. -/
def freeBit (s : State) : Bool × State := (Config.freeBit s.free, { s with free := s.free + 1 })

/-- A NONCE nothing constrains. -/
def freeNonce (s : State) : BitVec 16 × State := (Config.freeNonce s.free, { s with free := s.free + 1 })

/-- A word nothing constrains. -/
def freeWord (s : State) : Word × State := (Config.freeWord s.free, { s with free := s.free + 1 })

/-! ### Detectors (R407–R412) -/

/-- What a raising reports (Table 13.2, Table 13.3); 0xFF and 0x1FFF stand for none. -/
structure Det where
  i : Nat
  inj : Bool := false
  port : Nat := 0xFF
  stream : Nat := 0xFF
  part : Nat := 0xFF
  engine : Nat := 0x1FFF
  code : Nat := 0
  addr : Nat := 0
  deriving DecidableEq, Repr

/-- A detector's suppression interval. -/
def detS (s : State) (i : Nat) : DetS := tget {} i s.dets

/-- The event record of a raising (Table 13.3). -/
def eventRecord (s : State) (d : Det) (head : Nat) : List Byte :=
  bytesLE 8 (mtcN s) ++ bytesLE 1 (d.i % 32)
    ++ bytesLE 1 (b2n d.inj + 2 * b2n (rbit s R.glbAlertPinMask d.i))
    ++ bytesLE 2 (detS s d.i).suppressed ++ bytesLE 1 d.port ++ bytesLE 1 d.stream ++ bytesLE 1 d.part
    ++ bytesLE 1 (incarnation s) ++ bytesLE 2 (d.engine % 8192) ++ bytesLE 2 d.code ++ bytesLE 8 d.addr
    ++ bytesLE 4 head

/-- The eight words of a 32-byte record, lowest byte in bits [7:0]. -/
def recordWords (b : List Byte) (n : Nat) : List Word :=
  (List.range n).map (fun w => BitVec.ofNat 32 (fieldLE b (4 * w) 4))

/-- Store a table memory word whole: fresh check bits (R413, Table 13.4). -/
def tblWrite (a : Nat) (v : Word) (s : State) : State :=
  { wr a v s with
    eccBad := s.eccBad.filter (· != a)
    tblOld := match tfind a s.tblOld with | some _ => s.tblOld | none => tset a (rd s a) s.tblOld }

/-- The word a lookup finds: the value at the end of the previous tick (R162). -/
def rdPrev (s : State) (a : Nat) : Word := tget (rd s a) a s.tblOld

/-- Store consecutive table memory words. -/
def tblWrites (a : Nat) : List Word → State → State
  | [], s => s
  | v :: t, s => tblWrites (a + 4) t (tblWrite a v s)

/-- GLB_EVENT_HEAD − GLB_EVENT_TAIL, modulo 2³² (R411). -/
def eventDepth (s : State) : Nat := (rd s R.glbEventHead - rd s R.glbEventTail).toNat

/-- Queue a copy for the push master (R514). -/
def pushQueue (kind : Nat) (b : List Byte) (s : State) : State :=
  if rbit s R.mgtConfig 0 then
    (if s.pushq.length < 16 then
      { s with pushq := s.pushq ++ [{ kind := kind, bytes := b, pseq := s.pseq }], pseq := (s.pseq + 1) % 65536 }
    else ev R.mgtEvents 4 (cnt R.mgtPushDropCount s))
  else s

/-- A detector is raised: its status bit and count, and whether an injection caused it (R408). -/
def raiseMark (d : Det) (s : State) : State :=
  let s := cnt (R.glbDetCount d.i) (ev R.glbAlertStatus d.i s)
  if d.inj then ev R.glbAlertInjected d.i s else wbitAt R.glbAlertInjected d.i false s

/-- Within 16,384 ticks of the detector's last event record (R410). -/
def raiseQuiet (d : Det) (s : State) : Bool :=
  match (detS s d.i).lastRec with
  | some l => decide (now s < l + 16384)
  | none => false

/-- An event record enters the ring; one that finds it full is lost (R410, R411). -/
def raiseRing (d : Det) (r : List Byte) (s : State) : State :=
  if eventDepth s = 256 then cnt R.glbEventLostCount s
  else
    let head := rdN s R.glbEventHead
    let s := wrN R.glbEventHead (head + 1) (tblWrites (R.eventWord (head % 256) 0) (recordWords r 8) s)
    { s with dets := tset d.i { lastRec := some (now s), suppressed := 0 } s.dets }

/-- The effects of R408 and R410 and the pushing of R514: everything but the journal. Answers the record, if one is
produced. -/
def raiseCore (d : Det) (s : State) : State × Option (List Byte) :=
  let s := raiseMark d s
  if rbit s R.glbAlertRingMask d.i then
    (if raiseQuiet d s then
      ({ s with dets := tset d.i { detS s d.i with suppressed := min ((detS s d.i).suppressed + 1) 65535 } s.dets }, none)
    else
      let r := eventRecord s d (rdN s R.glbEventHead)
      (raiseRing d r (if rbit s R.mgtPushMask d.i then pushQueue 0x18 r s else s), some r))
  else (s, none)

/-- The journal is on (R486). -/
def journalOn (s : State) : Bool := rbit s R.jnlStatus 0

/-- Queue a journal record; a record that finds 16 waiting is lost and raises detector 18 (R483). -/
def jnlQueue (r : JRec) (s : State) : State :=
  if journalOn s then
    (if s.jq.length < 16 then { s with jq := s.jq ++ [r] }
    else (raiseCore { i := 18 } (cnt R.jnlLostCount s)).1)
  else s

/-- Raise a detector (R408–R412). -/
def raise (d : Det) (s : State) : State :=
  let r := raiseCore d s
  match r.2 with
  | some b =>
    if rbit r.1 R.glbJournalMask d.i ∧ d.i ≠ 18 then jnlQueue { kind := 2, body := b, inj := d.inj } r.1 else r.1
  | none => r.1

/-- ALERT# (R409): asserted while an unmasked status bit is set. -/
def alertPin (s : State) : Bool := (rd s R.glbAlertStatus &&& rd s R.glbAlertPinMask) != 0

/-! ### Injection points (R548–R565) -/

/-- Injection point `i`. -/
def awl (s : State) (i : Nat) : AwlPoint := tget {} i s.awl

/-- The armed settings an opportunity on this tick sees: a write to AWL_ARM acts from the next tick (R552). -/
def awlSeen (s : State) (p : AwlPoint) : ArmS := if p.wrote = some (now s) then p.old else p.cur

/-- Replace the armed settings seen on this tick. -/
def awlPutSeen (s : State) (p : AwlPoint) (x : ArmS) : AwlPoint :=
  if p.wrote = some (now s) then { p with old := x } else { p with cur := x }

/-- Store a point and show it in AWL_STATUS. -/
def awlStore (i : Nat) (p : AwlPoint) (s : State) : State :=
  wbitAt R.awlStatus i p.cur.on { s with awl := tset i p s.awl }

/-- Where AWL_COUNT of point `i` notes the increments of this tick. -/
def awlCountKey (i : Nat) : Nat := 0x8000000 + i

/-- The filter of a point lets the opportunity pass (R550); `none` where the point does not use the field. -/
def awlFilter (f : Word) (prt str par : Option Nat) : Bool :=
  (match prt with | some n => !wbit f 5 || decide (fld f 4 0 = n) | none => true)
  && (match str with | some n => !wbit f 14 || decide (fld f 13 6 = n) | none => true)
  && (match par with | some n => !wbit f 19 || decide (fld f 18 15 = n) | none => true)

/-- The mode injects on this counted opportunity (Table 18.3). -/
def awlHits (x : ArmS) (m : Nat) : Bool :=
  match x.kind with
  | 0 => true
  | 1 => decide (x.opp % x.n = 0)
  | 2 => decide (x.atTime ≤ m)
  | _ => true

/-- An opportunity of point `i` (R554, R555): the state with it counted, and whether it is injected. One on the last tick of the
lease counts, a later one does not (R563). -/
def awlFire (i : Nat) (prt str par : Option Nat) (s : State) : State × Bool :=
  let p := awl s i
  let x := awlSeen s p
  if x.on && decide (now s ≤ x.leaseEnd) && awlFilter x.filter prt str par && (!x.gate || x.kind == 2 || decide (x.atTime ≤ mtcN s)) then
    let x := { x with opp := x.opp + 1 }
    if awlHits x (mtcN s) then
      let x := { x with inj := x.inj + 1 }
      let atLimit := decide (x.limit ≠ 0 ∧ x.limit ≤ x.inj)
      let oneShot := decide (x.kind = 0 ∨ x.kind = 2)
      let x := { x with on := !(oneShot || atLimit) }
      let p := awlPutSeen s { p with count := BitVec.ofNat 32 (min (p.count.toNat + 1) 0xFFFFFFFF) } x
      let s := touch (awlCountKey i) (touched s (awlCountKey i) + 1) (awlStore i p s)
      (if atLimit then ev R.awlEvents 4 s else s, true)
    else (awlStore i (awlPutSeen s p x) s, false)
  else (s, false)

/-- Point `i` is armed as the engine's cells show it (R566). -/
def awlArmed (s : State) (i : Nat) : Bool := (awl s i).cur.on

/-! ### Ranks (R35–R38) -/

/-- The partition a table memory word belongs to: the one of a rank map word or a ledger word; 0xFF for none. -/
def tblPart (a : Nat) : Nat :=
  if 0x1800000 ≤ a ∧ a < 0x1880000 then (a - 0x1800000) / 0x8000
  else if 0x1060000 ≤ a ∧ a < 0x1080000 then (a - 0x1060000) / 0x2000
  else 0xFF

/-- A table memory word is met uncorrectable: count, note the address, raise detector 3 (R413); `p` is the port of the cell
whose lookup met it, 0xFF for none (Table 13.3). -/
def tblEccHit (p a : Nat) (inj : Bool) (s : State) : State :=
  raise { i := 3, inj := inj, port := p, part := tblPart a, addr := a } (wrN R.glbTblEccAddr a (cnt R.glbTblEccUncorrCount s))

/-- The rank map entry of rank `r` as a use of it meets it: an uncorrectable or injected word reads as 0x1FFF. -/
def rankUse (n r : Nat) (s : State) : State × Nat :=
  let a := R.rankMap n r
  if a ∈ s.eccBad then (tblEccHit 0xFF a false s, 0x1FFF)
  else
    let f := awlFire 3 (some 31) none (some n) s
    if f.2 then (tblEccHit 0xFF a true f.1, 0x1FFF) else (f.1, rfld s a 12 0)

/-- The stored rank map entry of rank `r`. -/
def rankOf (s : State) (n r : Nat) : Nat := rfld s (R.rankMap n r) 12 0

/-- The entry of rank `r` in the map `m` that a step was launched with, as a later use of it meets the word (R263, R413). -/
def rankUseIn (n r : Nat) (m : List Nat) (s : State) : State × Nat :=
  let u := rankUse n r s
  (u.1, if u.2 = 0x1FFF then 0x1FFF else m.getD r 0x1FFF)

/-- PARn_RANKS. -/
def ranks (s : State) (n : Nat) : Nat := rfld s (R.parRanks n) 13 0

/-- The search of R38 over a list of ranks: each entry read is a use of it (Table 13.4). -/
def searchSelf (n : Nat) : List Nat → State → State × Option Nat
  | [], s => (s, none)
  | r :: t, s =>
    let u := rankUse n r s
    if u.2 = ownId s ∧ u.2 ≠ 0x1FFF then (u.1, some r) else searchSelf n t u.1

/-- Set PARn_SELF_RANK from the applied map (R38). -/
def selfRank (n : Nat) (s : State) : State :=
  let u := searchSelf n (List.range (ranks s n)) s
  match u.2 with
  | some r => wrN (R.parSelfRank n) (0x80000000 + r) u.1
  | none => wrN (R.parSelfRank n) 0 u.1

/-- PARn_SELF_RANK.SELF. -/
def ownRank (s : State) (n : Nat) : Nat := rfld s (R.parSelfRank n) 12 0

/-! ### Boot step 7 and joining (R75, R460) -/

/-- Enter step 7: DONE (R460). -/
def enterStep7 (s : State) : State := wbitAt R.glbBootStatus 4 true (wfld R.glbBootStatus 3 0 7 s)

/-- Set JOINED; step 6 then ends (R75, Table 15.2). -/
def setJoined (s : State) : State :=
  let s := wbitAt R.mtcStatus 0 true s
  let s := { s with roots := { s.roots with joinAfter := false } }
  if bootStep s = 6 then enterStep7 s else s

/-- Step 5 has ended: step 6 begins, and ends at once when JOINED is set (Table 15.2). -/
def enterStep6 (s : State) : State :=
  let s := wfld R.glbBootStatus 3 0 6 s
  let s := { s with roots := { s.roots with step6 := some (now s) } }
  if rbit s R.mtcStatus 0 then enterStep7 s else s

end Sys2Proof.Machine
end

