-- ==== Sys2Proof/Machine/Cells.lean ====
section
/-! DEFINITION. The Ecmir cell: the welt (Table 3.2), the hop check (R89), the receive checks (Table 3.5, R158, R446). -/
namespace Sys2Proof.Machine

/-- A welt field (Table 3.2). -/
def welt (c : Cell) (hi lo : Nat) : Nat := nbits c.welt.toNat hi lo

/-- A cell with a welt field replaced. -/
def setWelt (hi lo v : Nat) (c : Cell) : Cell := { c with welt := BitVec.ofNat 64 (nput c.welt.toNat hi lo v) }

def wDest (c : Cell) : Nat := welt c 63 51
def wSrc (c : Cell) : Nat := welt c 50 38
def wEpoch (c : Cell) : Nat := welt c 37 37
def wVc (c : Cell) : Nat := welt c 36 35
def wType (c : Cell) : Nat := welt c 34 31
def wStream (c : Cell) : Nat := welt c 30 23
def wSeq (c : Cell) : Nat := welt c 22 13
def wIndex (c : Cell) : Nat := welt c 12 7
def wDefl (c : Cell) : Nat := welt c 6 4
def wHops (c : Cell) : Nat := welt c 3 1
def wMcast (c : Cell) : Bool := welt c 0 0 == 1

/-- The welt of the given fields. -/
def mkWelt (dest src epoch vc type stream seq index defl hops mcast : Nat) : W64 :=
  BitVec.ofNat 64
    (dest % 8192 * 2 ^ 51 + src % 8192 * 2 ^ 38 + epoch % 2 * 2 ^ 37 + vc % 4 * 2 ^ 35 + type % 16 * 2 ^ 31
      + stream % 256 * 2 ^ 23 + seq % 1024 * 2 ^ 13 + index % 64 * 2 ^ 7 + defl % 8 * 2 ^ 4 + hops % 8 * 2 + mcast % 2)

/-- A unicast cell as its source injects it: HOPS, DEFL and MCAST zero (R100); EPOCH is written at injection. -/
def mkCell (dest src vc type stream seq index : Nat) (payload : List Byte) : Cell :=
  { welt := mkWelt dest src 0 vc type stream seq index 0 0 0, payload := payload }

/-- Two cells are the same but for their epoch and VC: a flip rewrites the one, and a circuit the other. -/
def sameCell (a b : Cell) : Bool := setWelt 37 35 0 a == setWelt 37 35 0 b

/-- Bytes 0–71 of a cell. -/
def cellBody (c : Cell) : List Byte := bytesBE 8 c.welt.toNat ++ c.payload

/-- The 76 bytes of a cell on the wire, with the hop check computed as it leaves (R89, R90). -/
def cellWire (c : Cell) : List Byte := cellBody c ++ bytesBE 4 (crc32 (cellBody c))

/-- The welt and payload of 76 bytes. -/
def parseCell (b : List Byte) : Cell := { welt := BitVec.ofNat 64 (fieldBE b 0 8), payload := slice b 8 64 }

/-- The hop check of 76 arriving bytes is right (R89). -/
def hopOk (b : List Byte) : Bool := b.length == 76 && fieldBE b 72 4 == crc32 (b.take 72)

/-- A payload of 64 bytes from a shorter list of fields, zero-filled. -/
def pad64 (b : List Byte) : List Byte := slice b 0 64

/-- The cell is an explicit-path CTRL cell (R190). -/
def isExplicit (c : Cell) : Bool := wType c == 9 && (c.payload.getD 0 0).toNat.testBit 7

/-- VC and MCAST are allowed for the TYPE, and the multicast fields are well formed (check 5 of Table 3.5, R96). -/
def weltOk (c : Cell) : Bool :=
  let ty := wType c
  let vcOk :=
    if ty = 1 ∨ ty = 2 then decide (wVc c ≤ 1)
    else if ty = 3 ∨ ty = 9 ∨ ty = 10 ∨ ty = 11 then wVc c == 2
    else wVc c == 0
  let mcOk :=
    if wMcast c then
      decide (ty = 1 ∨ ty = 2) && decide (wDefl c ≤ 2) && (welt c 63 61 == 0)
        && (wDefl c == 0 || welt c 60 51 == 0)
    else true
  vcOk && mcOk && (wSrc c != 0x1FFF)

/-- The state of a table version (Table 14.1). -/
inductive VState where
  | current | draining | idle
  deriving DecidableEq, Repr

/-- The state of version `v` (R436). -/
def verState (s : State) (v : Nat) : VState :=
  if s.ep.closed then .idle
  else if v = s.ep.inj then .current
  else if s.ep.draining then .draining
  else .idle

/-- The MTC has reached `f`, other than by a jump of this tick (R442, R444). -/
def reached (s : State) (f : Nat) : Bool :=
  decide (f ≤ mtcN s) && (match s.t.jumpFrom with | some o => decide (f ≤ o.toNat) | none => true)

/-- The flip tick has come. -/
def flipDue (s : State) : Bool :=
  match s.ep.armed with
  | some f => reached s f.toNat
  | none => false

/-- The drain-end tick has come (R444). -/
def drainDue (s : State) : Bool := s.ep.draining && reached s s.ep.drainEnd.toNat

/-- The state of version `v` on this tick: a drain that ends on it, and a flip that takes place on it, come before any write or
cell of the tick (R442, R444, R445), whichever of the commands is served first. -/
def verNow (s : State) (v : Nat) : VState :=
  if s.ep.closed then .idle
  else if flipDue s then (if v = s.ep.inj then .draining else .current)
  else if drainDue s then (if v = s.ep.inj then .current else .idle)
  else verState s v

/-- What the receive checks make of an arriving cell. -/
inductive Arr where
  | gone | idleFill | sync | endpoint | mcast | transit
  deriving DecidableEq, Repr

/-- A discard counted in a per-port counter of Table 3.5 with its event bit. -/
def cellDrop (n cntr bit : Nat) (inj : Bool) (s : State) : State :=
  evI (R.prtCellEvents n) bit 5 inj (cnt cntr s)

/-- The epoch test of R446 with injection point 7. Explicit-path cells pass (R447). Answers whether the cell goes on. -/
def epochTest (n : Nat) (c : Cell) (s : State) : State × Bool :=
  let stale (inj : Bool) (s : State) : State :=
    raise { i := 7, inj := inj, port := n, engine := wSrc c, code := wEpoch c }
      (evI R.tblFlipEvents 3 6 inj (cnt R.tblStaleCount s))
  if isExplicit c then (s, true)
  else
    let early := match s.ep.armed with
      | some f => decide (f.toNat ≤ mtcN s + 64)
      | none => false
    let r : State × Bool := match verNow s (wEpoch c) with
      | .idle => if early then (ev R.tblFlipEvents 4 (cnt R.tblEarlyCount s), true) else (stale false s, false)
      | _ => (s, true)
    if r.2 then
      let f := awlFire 7 (some n) none none r.1
      if f.2 then (stale true f.1, false) else (f.1, true)
    else r

/-- The receive checks of Table 3.5 in order, with the SVC test of R158, the epoch test and injection points 0, 7, 19. -/
def arrive (n : Nat) (b : List Byte) (s : State) : State × Arr × Cell :=
  let c := parseCell b
  let s := modPort n (fun p => { p with rx := p.rx.erase b }) s
  let hopBad (inj : Bool) (s : State) : State × Arr × Cell :=
    (raise { i := 0, inj := inj, port := n } (cellDrop n (R.prtHopchkCount n) 0 inj s), .gone, c)
  if !hopOk b then hopBad false s
  else if wType c = 0 then (s, .idleFill, c)
  else
    let f := awlFire 0 (some n) none none s
    let s := f.1
    if f.2 then hopBad true s
    else if wType c = 8 then (s, .sync, c)
    else
      let s := modPort n (fun p => { p with traffic := now s }) s
      let bad (cntr bit code : Nat) (inj : Bool) (s : State) : State × Arr × Cell :=
        (raise { i := 19, inj := inj, port := n, engine := wDest c, code := code } (cellDrop n cntr bit inj s), .gone, c)
      if 12 ≤ wType c then bad (R.prtTypeRsvdCount n) 1 4 false s
      else if !weltOk c then bad (R.prtWeltBadCount n) 2 5 false s
      else if !wMcast c && wDest c == 0x1FFF then bad (R.prtNoEngineCount n) 3 6 false s
      else
        let f := awlFire 19 (some n) none none s
        let s := f.1
        if f.2 then bad (R.prtWeltBadCount n) 2 5 true s
        else if (n = 19 ∨ n = 20)
            ∧ ¬ (wMcast c = false ∧ wDest c = ownId s ∧ (wType c ∈ [4, 5, 6, 7, 9])) then
          (raise { i := 19, port := n, engine := wDest c, code := 23 } (cnt (R.prtSvcRefusedCount n) s), .gone, c)
        else
          let e := epochTest n c s
          let s := e.1
          if !e.2 then (s, .gone, c)
          else if wMcast c then (s, .mcast, c)
          else if wDest c = ownId s then (s, .endpoint, c)
          else if wHops c = 7 then bad (R.prtHopLimitCount n) 4 9 false s
          else (s, .transit, c)

/-- Cell `b` is one port `n` has received: the port takes cells, being ACTIVE or in ALIGN outside an overload, or it has
delimited `b` before leaving those states (Table 4.2, R128, R149). -/
def rxOk (s : State) (n : Nat) (b : List Byte) : Bool :=
  let p := port s n
  decide (4 ≤ n ∧ n ≤ 30)
    && (p.st == .active || (p.st == .align && !(p.ovlRun && (p.ovlOn || p.ovlTail))) || p.rx.contains b)

/-- Arrival of a cell that is to be delivered to the engine's own endpoint: from a port, or from the engine itself over
LOCAL, port 31. Answers the cell where it is delivered. -/
def arriveLocal (n : Nat) (b : List Byte) (s : State) : State × Option Cell :=
  if n = 31 then
    let c := parseCell b
    if c ∈ s.localQ then ({ s with localQ := s.localQ.erase c }, some c) else (s, none)
  else
    let r := arrive n b s
    match r.2.1 with
    | .endpoint => (r.1, some r.2.2)
    | _ => (r.1, none)

end Sys2Proof.Machine
end

