-- ==== Sys2Proof/Machine/Switch.lean ====
section
/-! DEFINITION. Routing: usable ports, output queues and admission, table routing and deflection, rings, circuits,
explicit paths, and injection at the source (Routing, Deflection, Rings and Circuits). -/
namespace Sys2Proof.Machine

/-! ### Usable ports and queues -/

/-- The port's state lets cells be routed to it (Table 4.2). -/
def routable (p : Port) : Bool :=
  p.st == .active || p.st == .doze || (p.st == .align && p.lite)

/-- A usable output port (R163); `transit` tells a transit cell, which never leaves by an SVC port. -/
def usable (s : State) (transit : Bool) (n : Nat) : Bool :=
  decide (4 ≤ n ∧ n ≤ 30) && routable (port s n) && !(transit && decide (n = 19 ∨ n = 20))

/-- The cells in a queue. -/
def queue (p : Port) : QCls → List Cell
  | .vc3 => p.qVc3
  | .vc2 => p.qVc2
  | .circuit => p.qCirc
  | .vc0s => p.qVc0s
  | .vc0r => p.qVc0r
  | .vc1r => p.qVc1r

/-- A port with a queue replaced. -/
def putQueue (k : QCls) (l : List Cell) (p : Port) : Port :=
  match k with
  | .vc3 => { p with qVc3 := l }
  | .vc2 => { p with qVc2 := l }
  | .circuit => { p with qCirc := l }
  | .vc0s => { p with qVc0s := l }
  | .vc0r => { p with qVc0r := l }
  | .vc1r => { p with qVc1r := l }

/-- How many cells a queue holds when full (Table 5.3). -/
def queueCap : QCls → Nat
  | .vc3 => 2
  | .vc2 => 16
  | .circuit => 32
  | .vc0s => 24
  | .vc0r => 32
  | .vc1r => 32

/-- Free places of a queue. -/
def queueFree (s : State) (n : Nat) (k : QCls) : Nat := queueCap k - (queue (port s n) k).length

/-- All cells queued at a port. -/
def queuedCells (p : Port) : Nat :=
  p.qVc3.length + p.qVc2.length + p.qCirc.length + p.qVc0s.length + p.qVc0r.length + p.qVc1r.length

/-- What the congestion map counts for port `n`. -/
def modTel (n : Nat) (f : TelPort → TelPort) (s : State) : State :=
  { s with tel := tset n (f (tget {} n s.tel)) s.tel }

/-- A discard the map of port `n` counts (Table 17.1). -/
def telDisc (n k : Nat) (inj : Bool) (s : State) : State :=
  modTel n (fun x => { x with disc := x.disc + k, inj := x.inj || inj }) s

/-- Start or join a resume of a DOZE or SLEEP port (R144, R145): WAKE is sent once, the cause bit is set, and the resume
is counted once. The end that led the last training leads again (R146). -/
def resume (n : Nat) (remote : Bool) (s : State) : State :=
  let p := port s n
  let begin1 := p.st == .doze || p.st == .sleep
  if begin1 || p.resuming then
    let s := ev (R.prtEvents n) (if remote then 10 else 9) s
    let s := if begin1 then emit (.wake n) (cnt (R.prtResumeCount n) s) else s
    let s := if p.st == .sleep && p.leader then emit (.training n) s else s
    modPort n (fun p =>
      let rcvd := p.wakeRcvd || remote
      { p with
        st := if p.st == .doze then .align else if p.st == .sleep then .train else p.st
        lite := if p.st == .doze then true else p.lite
        fromSleep := if p.st == .doze then false else if p.st == .sleep then true else p.fromSleep
        entered := if begin1 then now s else p.entered
        resuming := true
        wakeSent := true
        wakeRcvd := rcvd
        wakeBoth := if rcvd && p.wakeBoth.isNone then some (now s) else p.wakeBoth }) s
  else s

/-- Put a cell in a queue of port `n`; a DOZE port starts a resume (R144). DESIGN CHOICE (log 22): a cell queued during a resume
that a remote WAKE began sets no LOCAL_WAKE; R144 names it a cause in DOZE only. -/
def enqueue (n : Nat) (k : QCls) (c : Cell) (s : State) : State :=
  let s := modPort n (fun p => putQueue k (queue p k ++ [c]) p) s
  if (port s n).st == .doze then resume n false s else s

/-! ### Table memories as lookups meet them (R413, Table 13.4) -/

/-- A route or lace word as a cell's lookup meets it; `none` where it is uncorrectable or injected so. `arr` is the
arrival port, 31 for injected cells. -/
def tblLookup (a arr : Nat) (s : State) : State × Option Word :=
  let p := if arr = 31 then 0xFF else arr
  if a ∈ s.eccBad then (tblEccHit p a false s, none)
  else
    let f := awlFire 3 (some arr) none none s
    if f.2 then (tblEccHit p a true f.1, none) else (f.1, some (rdPrev s a))

/-- A decoded route entry (Table 5.2). -/
structure Route where
  ring : Bool
  a2 : Nat
  a1 : Nat
  primary : Nat
  deriving DecidableEq, Repr

/-- The route of an entry word; `none` where the lookup finds none (R160). -/
def routeOf (w : Word) : Option Route :=
  let alt (v : Nat) : Nat := if v ≤ 3 then 31 else v
  if wbit w 31 ∧ fld w 17 16 ≤ 1 ∧ 4 ≤ fld w 4 0 ∧ fld w 4 0 ≤ 30 then
    some { ring := fld w 17 16 == 1, a2 := alt (fld w 14 10), a1 := alt (fld w 9 5), primary := fld w 4 0 }
  else none

/-- Look up destination `d` in version `v`; entry 0x1FFF is never looked up (R160). -/
def routeLookup (v d arr : Nat) (s : State) : State × Option Route :=
  if d = 0x1FFF then (s, none)
  else
    let r := tblLookup (R.routeTbl v d) arr s
    (r.1, r.2.bind routeOf)

/-- A no-route discard (R169, R170); `n` the arrival port, 0xFF for an injected cell. -/
def noRoute (n : Nat) (c : Cell) (s : State) : State :=
  raise { i := 19, port := n, engine := wDest c, code := 20 } (evI R.tblRouteEvents 0 2 false (cnt R.tblNoRouteCount s))

/-- A discard of R170, R177 or R184 at port `n`: counter, event bit, detector 6, map. -/
def routeDrop (n cntr bit : Nat) (inj : Bool) (c : Cell) (s : State) : State :=
  raise { i := 6, inj := inj, port := n, engine := wDest c, code := bit }
    (telDisc n 1 inj (evI (R.prtRouteEvents n) bit 7 inj (cnt cntr s)))

def noAlternate (n : Nat) (c : Cell) (s : State) : State := routeDrop n (R.prtDeflectDiscardCount n) 2 false c s
def deflectLimit (n : Nat) (inj : Bool) (c : Cell) (s : State) : State :=
  routeDrop n (R.prtDeflectDiscardCount n) 1 inj c s

/-- A transit cell is admitted: HOPS is raised, unless injection point 6 discards it. -/
def enter (n : Nat) (k : QCls) (c : Cell) (s : State) : State :=
  let f := awlFire 6 (some n) none none s
  if f.2 then deflectLimit n true c f.1 else enqueue n k (setWelt 3 1 (wHops c + 1) c) f.1

/-- The queue of a table-routed cell. -/
def tableQueue (c : Cell) : QCls := if wVc c = 2 then .vc2 else .vc0s

/-- The first usable port of a list. -/
def firstUsable (s : State) (transit : Bool) (bad : Nat → Bool) : List Nat → Option Nat
  | [] => none
  | n :: t => if usable s transit n && !bad n then some n else firstUsable s transit bad t

/-- TBL_DEFLECT_MAX. -/
def deflectMax (s : State) : Nat := rfld s R.tblDeflectMax 2 0

/-- Table routing of a transit cell that arrived on port `arr` (R170–R174). -/
def tableTransit (arr : Nat) (r : Route) (c : Cell) (s : State) : State :=
  let k := tableQueue c
  let go (p : Nat) (s : State) : State :=
    if 0 < queueFree s p k then enter p k c s
    else if deflectMax s < wDefl c + 1 then deflectLimit p false c s
    else
      match firstUsable s true (fun q => q == arr || q == p || queueFree s q k == 0) [r.a1, r.a2] with
      | none => noAlternate p c s
      | some q =>
        let s := modTel p (fun x => { x with defl := x.defl + 1 }) (evI (R.prtRouteEvents p) 0 7 false (cnt (R.prtDeflectCount p) s))
        enter q k (setWelt 6 4 (wDefl c + 1) c) s
  if usable s true r.primary then go r.primary s
  else
    match firstUsable s true (fun q => q == arr) [r.a1, r.a2] with
    | none => noAlternate r.primary c s
    | some p => go p (evI (R.prtRouteEvents r.primary) 3 7 false (cnt (R.prtFailoverCount r.primary) s))

/-- A transit ring cell (R176, R177). -/
def ringTransit (r : Route) (c : Cell) (s : State) : State :=
  let k : QCls := if wVc c = 1 then .vc1r else .vc0r
  if !usable s true r.primary then noAlternate r.primary c s
  else if 0 < queueFree s r.primary k then enter r.primary k c s
  else routeDrop r.primary (R.prtRingFullCount r.primary) 4 false c s

/-! ### Circuits (R182–R188) -/

/-- The valid circuit entry of arrival port `arr` and stream `st`, searched below `k`. -/
def findCircuit (s : State) (arr st : Nat) : Nat → Option Nat
  | 0 => none
  | k + 1 =>
    match findCircuit s arr st k with
    | some i => some i
    | none =>
      let w := rdPrev s (R.circuitTbl k)
      if wbit w 31 ∧ fld w 26 22 = arr ∧ fld w 21 14 = st then some k else none

/-- The valid entry of an arrival port and a stream as the table stands now: what OPEN_CIRCUIT and CLOSE_CIRCUIT meet (R186,
R187). -/
def circuitNow (s : State) (arr st : Nat) : Option Nat :=
  (range 0 127).find? (fun i =>
    wbit (rd s (R.circuitTbl i)) 31 && rfld s (R.circuitTbl i) 26 22 == arr && rfld s (R.circuitTbl i) 21 14 == st)

/-- Recount PARn_CIRCUITS_OPEN of every partition from the valid entries. -/
def recountCircuits (s : State) : State :=
  forEach (range 0 15) (fun n s =>
    wrN (R.parCircuitsOpen n)
      ((range 0 127).countP (fun i => wbit (rd s (R.circuitTbl i)) 31 && fld (rd s (R.circuitTbl i)) 30 27 == n)) s) s

/-- Circuit lookup of a DATA or SEAL cell (R183). An uncorrectable entry is cleared and does not match (Table 13.4). -/
def circuitLookup (arr : Nat) (c : Cell) (s : State) : State × Option Nat :=
  if (wType c = 1 ∨ wType c = 2) ∧ !wMcast c then
    match findCircuit s arr (wStream c) 128 with
    | none => (s, none)
    | some i =>
      let r := tblLookup (R.circuitTbl i) arr s
      match r.2 with
      | some w => (r.1, some (fld w 13 9))
      | none => (recountCircuits (tblWrite (R.circuitTbl i) 0 r.1), none)
  else (s, none)

/-- A circuit whose port is unusable: its cell is table-routed (R184). -/
def circuitFallback (o : Nat) (s : State) : State :=
  evI (R.prtRouteEvents o) 6 7 false (cnt (R.prtCircuitFallbackCount o) s)

/-! ### Explicit paths (R190–R193) -/

/-- An explicit-path discard (R192); `n` the arrival port, 0xFF for an injected cell. -/
def pathFail (n : Nat) (c : Cell) (s : State) : State :=
  raise { i := 19, port := n, engine := wDest c, code := 21 } (evI R.tblRouteEvents 1 2 false (cnt R.tblPathFailCount s))

/-- Send an explicit-path cell on path byte `i`; `n` its arrival port, 0xFF for an injected cell; answers whether it was
sent. -/
def pathSend (n i : Nat) (transit : Bool) (c : Cell) (s : State) : State × Bool :=
  let len := nbits (c.payload.getD 0 0).toNat 2 0
  let p := (c.payload.getD (i + 1) 0).toNat
  if len = 0 ∨ len ≤ i then (pathFail n c s, false)
  else if ¬ ((4 ≤ p ∧ p ≤ 18) ∨ (21 ≤ p ∧ p ≤ 30)) then (pathFail n c s, false)
  else if !usable s transit p ∨ queueFree s p .vc2 = 0 then (pathFail n c s, false)
  else if transit then (enter p .vc2 c s, true)
  else (enqueue p .vc2 c s, true)

/-! ### A transit cell (R170) -/

/-- Forward a transit unicast cell that arrived on port `arr`. No ring rule applies to a cell that matches a circuit (R175),
not even where it falls back to table routing (R185). -/
def transit (arr : Nat) (c : Cell) (s : State) : State :=
  if isExplicit c then (pathSend arr (wHops c + 1) true c s).1
  else
    let r := circuitLookup arr c s
    let s := r.1
    let table (matched : Bool) (s : State) : State :=
      let q := routeLookup (wEpoch c) (wDest c) arr s
      match q.2 with
      | none => noRoute arr c q.1
      | some e =>
        if !matched && (wVc c == 1 || (wVc c == 0 && e.ring)) then ringTransit e c q.1 else tableTransit arr e c q.1
    match r.2 with
    | some o =>
      if usable s true o then
        (if 0 < queueFree s o .circuit then enter o .circuit c s
        else routeDrop o (R.prtCircuitFullCount o) 5 false c s)
      else table true (circuitFallback o s)
    | none => table false s

/-! ### Injection at the source (R161, R168, R169, R178, R179, R184) -/

/-- What injection made of a cell. -/
inductive Inj where
  | queued (port : Nat)
  | waiting (port : Nat)
  | local
  | dropped
  deriving DecidableEq, Repr

/-- Injected cells may leave by port `n`: a port of the SVC pair carries only cells for the bridge learned in ALIGN (R158).
DESIGN CHOICE (log 45): the bridge ID is PRTn_PEER.ID as it stands, which a KEEP may have renamed since (R137); a route entry
that names an SVC port for another DEST is handled as one whose port is unusable. -/
def injectPortOk (s : State) (c : Cell) (n : Nat) : Bool :=
  usable s false n && !((n == 19 || n == 20) && rfld s (R.prtPeer n) 12 0 != wDest c)

/-- The port and queue of a route entry for an injected cell (R169, R178, R179). -/
def injectBy (ring : Nat) (c : Cell) (e : Route) (s : State) : State × Option (Nat × QCls) :=
  if ring ≠ 0 ∨ wVc c = 1 then
    (if injectPortOk s c e.primary then (s, some (e.primary, if wVc c = 1 then .vc1r else .vc0r)) else (noRoute 0xFF c s, none))
  else if injectPortOk s c e.primary then (s, some (e.primary, tableQueue c))
  else
    match (if injectPortOk s c e.a1 then some e.a1 else if injectPortOk s c e.a2 then some e.a2 else none) with
    | some p => (evI (R.prtRouteEvents e.primary) 3 7 false (cnt (R.prtFailoverCount e.primary) s), some (p, tableQueue c))
    | none => (noRoute 0xFF c s, none)

/-- Table routing of an injected cell, looked up in the current injection epoch. -/
def injectTable (ring : Nat) (c : Cell) (s : State) : State × Option (Nat × QCls) :=
  let q := routeLookup s.ep.inj (wDest c) 31 s
  match q.2 with
  | none => (noRoute 0xFF c q.1, none)
  | some e => injectBy ring c e q.1

/-- A ring cell on VC1 that leaves by no ring buffer, having matched a circuit, rides VC0: no VC change applies to it (R577). -/
def asQueued (k : QCls) (c : Cell) : Cell :=
  if (k = .circuit ∨ k = .vc0s) ∧ wVc c = 1 then setWelt 36 35 0 c else c

/-- Where an injected unicast cell goes: a port and a queue. A cell that matches a circuit whose port is unusable is routed by
table, as no ring cell (R175, R185). -/
def injectRoute (ring : Nat) (c : Cell) (s : State) : State × Option (Nat × QCls) :=
  let r := circuitLookup 31 c s
  match r.2 with
  | some o => if usable r.1 false o then (r.1, some (o, .circuit)) else injectTable 0 (setWelt 36 35 (if wVc c = 1 then 0 else wVc c) c) (circuitFallback o r.1)
  | none => injectTable ring c r.1

/-- The free places an injection needs: two under BUBBLE (R178), one otherwise. -/
def injectNeed (ring : Nat) (k : QCls) : Nat := if ring = 1 ∧ k = .vc0r then 2 else 1

/-- A cell waits at its source (R168). -/
def addWaiting (w : Waiting) (s : State) : State := { s with waiting := s.waiting ++ [w] }

/-- A cell for the engine's own endpoint. -/
def toLocal (c : Cell) (s : State) : State := { s with localQ := s.localQ ++ [c] }

/-- No earlier cell of the stream waits; cells the engine produces itself wait for none. -/
def firstOf (s : State) (str : Nat) : Bool := s.waiting.all (fun w => w.stream != str || str == 256)

/-- A cell of a stream that has not advanced to it waits: it is looked up, and tried, when it comes to it (R168). `n` is the
port of a one-sided cell, 31 for a cell to be looked up. -/
def behind (str ring n : Nat) (mc : Bool) (c : Cell) (s : State) : State × Inj :=
  (addWaiting { stream := str, cell := c, port := n, cls := .vc0s, ring := ring, mc := mc, fresh := true, since := now s } s,
    .waiting n)

/-- A cell whose port and queue are chosen is queued, or waits. -/
def injectAt (str ring : Nat) (c : Cell) (p : Nat) (k : QCls) (s : State) : State × Inj :=
  if injectNeed ring k ≤ queueFree s p k then (enqueue p k (asQueued k c) s, .queued p)
  else (addWaiting { stream := str, cell := c, port := p, cls := k, ring := ring, since := now s } s, .waiting p)

/-- Inject a cell that carries the injection epoch and for which no earlier one waits. -/
def injectCell (str ring : Nat) (c : Cell) (s : State) : State × Inj :=
  if wDest c = ownId s then (toLocal c s, .local)
  else
    match (injectRoute ring c s).2 with
    | none => ((injectRoute ring c s).1, .dropped)
    | some (p, k) => injectAt str ring c p k (injectRoute ring c s).1

/-- Inject a unicast cell for stream `str` (256: the engine itself): HOPS and DEFL zero, EPOCH the injection epoch
(R100). It is queued, waits at its source behind the stream's earlier cells, goes to the engine's own endpoint, or is
discarded. -/
def inject (str ring : Nat) (c : Cell) (s : State) : State × Inj :=
  if firstOf s str then injectCell str ring (setWelt 37 37 s.ep.inj c) s
  else behind str ring 31 false (setWelt 37 37 s.ep.inj c) s

/-- The state an injection leaves. -/
def afterInject (x : State × Inj) : State := x.1

/-- Inject a cell the engine produces itself. -/
def injectOwn (c : Cell) (s : State) : State := afterInject (inject 256 0 c s)

/-- Send a cell on a named port's VC0 standard queue: the board accesses of R25. -/
def injectPort (str n : Nat) (c : Cell) (s : State) : State × Inj :=
  if !firstOf s str then behind str 0 n false (setWelt 37 37 s.ep.inj c) s
  else if usable s false n then injectAt str 0 (setWelt 37 37 s.ep.inj c) n .vc0s s
  else (noRoute 0xFF (setWelt 37 37 s.ep.inj c) s, .dropped)

/-- A one-sided cell: it leaves by its slot's own port and is never looked up (R25). -/
def oneSided (c : Cell) : Bool := decide (4 ≤ wType c ∧ wType c ≤ 7)

/-- The first waiting cell of stream `str`. -/
def firstWaiting (s : State) (str : Nat) : Option Waiting := s.waiting.find? (fun w => w.stream == str)

/-- The cell is the one last sent by GLB_CTRL_SEND or TEL_SVY_SEND. -/
def isSent (o : Option Cell) (c : Cell) : Bool :=
  match o with
  | some d => sameCell c d
  | none => false

/-- A cell that waited at its source is discarded: SEND_FAIL where it came from GLB_CTRL_SEND or TEL_SVY_SEND (R422). -/
def cellLost (c : Cell) (s : State) : State :=
  if isSent s.mgr.ctrlSent c then ev R.glbCtrlEvents 0 (if isSent s.mgr.svySent c then ev R.telSvyEvents 0 s else s)
  else if isSent s.mgr.svySent c then ev R.telSvyEvents 0 s
  else s

/-- A cell waits no longer. -/
def dropWaiting (w : Waiting) (s : State) : State := { s with waiting := s.waiting.erase w }

/-- A cell whose port has become unusable is looked up afresh, and discarded with no usable port (R169). -/
def admitAfresh (w : Waiting) (s : State) : State :=
  if oneSided w.cell then noRoute 0xFF w.cell s
  else
    let r := injectRoute w.ring w.cell s
    match r.2 with
    | none => cellLost w.cell r.1
    | some (p, k) =>
      if injectNeed w.ring k ≤ queueFree r.1 p k then enqueue p k (asQueued k w.cell) r.1
      else { r.1 with waiting := { w with port := p, cls := k, fresh := false } :: r.1.waiting }

/-- The first attempt of a unicast cell its stream has now come to (R168); it waits in no list meanwhile. -/
def firstTry (w : Waiting) (s : State) : State :=
  if oneSided w.cell then
    (if !usable s false w.port then noRoute 0xFF w.cell s
    else if injectNeed w.ring w.cls ≤ queueFree s w.port w.cls then enqueue w.port w.cls w.cell s
    else { s with waiting := { w with fresh := false } :: s.waiting })
  else if wDest w.cell = ownId s then toLocal w.cell s
  else admitAfresh w s

/-- Offer a waiting unicast cell: its first attempt, or another, admitted where its queue has room (R168). -/
def offerCell (w : Waiting) (s : State) : State :=
  if w.fresh then firstTry w (dropWaiting w s)
  else if usable s false w.port then
    (if injectNeed w.ring w.cls ≤ queueFree s w.port w.cls then enqueue w.port w.cls (asQueued w.cls w.cell) (dropWaiting w s) else s)
  else admitAfresh w (dropWaiting w s)

/-- Offer what stream `str` waits with first; of the engine's own cells, which wait for none, every one (R168). -/
def injectionAdmit (str : Nat) (s : State) : State :=
  if str = 256 then forEach (s.waiting.filter (fun w => w.stream == 256)) offerCell s
  else match firstWaiting s str with
  | none => s
  | some w => offerCell w s

/-- A waiting cell has been offered and counts its waiting: the first of its stream, a copy of that cell (R211), or a cell
the engine produced itself. -/
def offered (s : State) (w : Waiting) : Bool :=
  !w.fresh && (w.stream == 256 || firstWaiting s w.stream == some w
    || (w.mc && (match firstWaiting s w.stream with | some v => sameCell v.cell w.cell | none => false)))

/-- One tick of waiting at the source is counted at port `n` (R168). -/
def countWait (n : Nat) (s : State) : State :=
  modTel n (fun x => { x with iwait := x.iwait + 1 }) (cnt (R.prtInjectWaitCount n) s)

/-- One tick of waiting at the source is counted for every cell that has been offered (R168, R211). -/
def countWaits (s : State) : State := forEach (s.waiting.filter (offered s)) (fun w s => countWait w.port s) s

/-- Something begins to wait, or goes on waiting. -/
def markWait (w : WaitMark) (s : State) : State := if s.waits.contains w then s else { s with waits := s.waits ++ [w] }

end Sys2Proof.Machine
end

