-- ==== Sys2Proof/Machine/StreamOps.lean ====
section
/-! DEFINITION. What steps and requests are built from: streams and partitions, staging blocks, windows, local accesses
and package transactions, completion records, faults (Streams, Requests and Lasts; Board Memory, R222–R236, R255). -/
namespace Sys2Proof.Machine

/-! ### Streams and partitions -/

/-- Stream `n`. -/
def str (s : State) (n : Nat) : Stream := tget {} n s.streams

/-- Change stream `n`. -/
def modStr (n : Nat) (f : Stream → Stream) (s : State) : State := { s with streams := tset n (f (str s n)) s.streams }

/-- The hidden state of partition `n`. -/
def par (s : State) (n : Nat) : Par := tget {} n s.pars

/-- Change partition `n`. -/
def modPar (n : Nat) (f : Par → Par) (s : State) : State := { s with pars := tset n (f (par s n)) s.pars }

/-- PARn_STREAM_RANGE. -/
def strBase (s : State) (n : Nat) : Nat := rfld s (R.parStreamRange n) 7 0
def strCount (s : State) (n : Nat) : Nat := rfld s (R.parStreamRange n) 16 8

/-- The streams of partition `n` (R261); there are 256. -/
def strsOf (s : State) (n : Nat) : List Nat := List.range' (strBase s n) (min (strCount s n) (256 - strBase s n))

/-- Stream `k` lies in partition `n`'s range. -/
def owns (s : State) (n k : Nat) : Bool := decide (strBase s n ≤ k ∧ k < strBase s n + strCount s n)

/-- The partition that owns stream `k`. -/
def ownerOf (s : State) (k : Nat) : Option Nat := (range 0 15).find? (fun n => owns s n k)

/-- The run numbered `rid` of stream `n`. -/
def runOf (s : State) (n rid : Nat) : Option Run := (str s n).runs.find? (fun r => r.rid == rid)

/-- Change the run numbered `rid` of stream `n`. -/
def modRun (n rid : Nat) (f : Run → Run) (s : State) : State :=
  modStr n (fun x => { x with runs := x.runs.map (fun r => if r.rid = rid then f r else r) }) s

/-- The oldest run of step `idx` of stream `n` that has not ended. -/
def runAt (s : State) (n idx : Nat) : Option Run := (str s n).runs.find? (fun r => r.idx == idx && !r.ended)

/-- Steps of stream `n` between launch and end. -/
def inflight (s : State) (n : Nat) : Nat := (str s n).runs.countP (fun r => !r.ended)

/-- The partition of a stream is isolated (R541). -/
def isolated (s : State) (k : Nat) : Bool :=
  match ownerOf s k with
  | some n => rbit s (R.parReplay n) 2
  | none => false

/-! ### Staging blocks (R275, R291) -/

/-- A stream with one more block in use: the reserve is used first (R291). -/
def Stream.takeB (x : Stream) : Stream :=
  if x.inUse < x.reserve then { x with inUse := x.inUse + 1 } else { x with drawn := x.drawn + 1 }

/-- A stream with `n` blocks given back: those drawn beyond the reserve first. -/
def Stream.giveB (n : Nat) (x : Stream) : Stream := { x with drawn := x.drawn - n, inUse := x.inUse - (n - x.drawn) }

/-- Blocks of partition `n` reserved and drawn (PARn_STAGE_USED). -/
def stageUsed (s : State) (n : Nat) : Nat :=
  (s.streams.foldl (fun a x => if owns s n x.1 then a + x.2.reserve + x.2.drawn else a) 0)
    + (par s n).anneal.countP (fun a => !a.res)

/-- Free blocks of partition `n`. -/
def stageFree (s : State) (n : Nat) : Nat := 256 * rfld s (R.parStageQuota n) 6 0 - stageUsed s n

/-- A block is available to stream `k` of partition `n`: from its reserve first. -/
def blockFree (s : State) (n k : Nat) : Bool :=
  decide ((str s k).inUse < (str s k).reserve) || decide (0 < stageFree s n)

/-- Take one block, or give back one or several. -/
def takeBlock (k : Nat) (s : State) : State := modStr k Stream.takeB s
def giveBlocks (k n : Nat) (s : State) : State := modStr k (Stream.giveB n) s
def giveBlock (k : Nat) (s : State) : State := giveBlocks k 1 s

/-- The reserve of stream `k` of partition `n` is released (R291): blocks of it still in use count as drawn from now on, and
so do those of anneal entries. -/
def releaseReserve (n k : Nat) (s : State) : State :=
  let e := (par s n).anneal.countP (fun a => a.stream == k && a.res)
  modPar n (fun p => { p with anneal := p.anneal.map (fun a => if a.stream = k then { a with res := false } else a) })
    (modStr k (fun x => { x with reserve := 0, drawn := x.drawn + (x.inUse - e), inUse := 0 }) s)

/-! ### Addresses and windows (R222–R236) -/

/-- The engine's own slot (R29). -/
def ownSlot (s : State) : Nat := rfld s R.glbPosition 3 0

/-- The slot of a board address. -/
def slotOf (a : Nat) : Nat := a / 2 ^ 44 % 16

/-- The offset of a board address in its slot. -/
def offOf (a : Nat) : Nat := a % 2 ^ 44

/-- Bytes of the staging store. -/
def storeSize : Nat := 96 * 2 ^ 20

/-- MEM_STAGE_BASE as a slot offset. -/
def stageBase (s : State) : Nat := rfld s R.memStageBase 16 0 * 2 ^ 27

/-- Where an access lies (R226). -/
inductive Place where
  | store (off : Nat)
  | accel
  | bad
  deriving DecidableEq, Repr

/-- Where `len` bytes at slot offset `o` lie: in the store, in the accelerator, or across or past the store (R226). -/
def placeOf (s : State) (o len : Nat) : Place :=
  let b := stageBase s
  if b ≤ o ∧ o + len ≤ b + storeSize then .store (o - b)
  else if o < b + storeSize + 2 ^ 25 ∧ b < o + len then .bad
  else .accel

/-- The access breaks R222 or, for PUT and GET, R223. -/
def badShape (atomic : Bool) (a len : Nat) : Bool :=
  decide (2 ^ 44 < offOf a + len)
    || (if atomic then decide (a % 4 ≠ 0 ∨ len ≠ 4) else decide (a % 64 ≠ 0 ∨ len % 64 ≠ 0 ∨ len < 64 ∨ 4096 < len))

/-- Kinds of window check. -/
inductive WKind where
  | read | write | atomic
  deriving DecidableEq, Repr

/-- The windows of partition `n` (R232). -/
def winsOf (s : State) (n : Nat) : List Win :=
  (range 0 7).map (fun m =>
    { base := rdN s (R.parWinBaseLo n m) + rfld s (R.parWinBaseHi n m) 15 0 * 2 ^ 32
      limit := rdN s (R.parWinLimitLo n m) + rfld s (R.parWinLimitHi n m) 15 0 * 2 ^ 32
      ctrl := rd s (R.parWinCtrl n m) })

/-- A window covers the bytes and allows the kind (R232, R233). -/
def windowHas (w : Win) (a len : Nat) (k : WKind) (bridge : Bool) : Bool :=
  decide (w.base ≤ w.limit ∧ w.base ≤ a ∧ a + len ≤ w.limit + 4096)
    && (match k with | .read => wbit w.ctrl 0 | .write => wbit w.ctrl 1 | .atomic => wbit w.ctrl 2)
    && (!bridge || wbit w.ctrl 3)

/-- Some window of a list allows the access (R233). -/
def windowOk (ws : List Win) (a len : Nat) (k : WKind) (bridge : Bool) : Bool :=
  ws.any (fun w => windowHas w a len k bridge)

/-- A failed window check: count, event, detector 8 (R234, R235, R257); `code` 0 initiator, 1 target, 2 package; `p` and
`k` the port and the stream of the record, 0xFF for none (Table 13.3). -/
def windowFault (inj : Bool) (p k n other code a : Nat) (s : State) : State :=
  raise { i := 8, inj := inj, port := p, stream := k, part := n, engine := other, code := code, addr := a }
    (evI R.memEvents 0 8 inj (cnt R.memWindowFaultCount s))

/-- Mark the stream's request as touched by an injection (R564). -/
def markInj (k : Nat) (inj : Bool) (s : State) : State :=
  if inj then modStr k (fun x => { x with inj := true }) s else s

/-- An injection acted on stream `x`, if any (R564). -/
def markWho (x : Option Nat) (s : State) : State :=
  match x with
  | some k => markInj k true s
  | none => s

/-- A window check for partition `n`, made for this engine's stream `x` if any, with injection point 8; a failure's record
names port `p` and stream `st`; answers whether it passed. -/
def windowCheckAt (p st : Nat) (x : Option Nat) (ws : List Win) (n a len : Nat) (k : WKind) (bridge : Bool) (other code : Nat) (s : State) : State × Bool :=
  if windowOk ws a len k bridge then
    let f := awlFire 8 none none (some n) s
    if f.2 then (windowFault true p st n other code a (markWho x f.1), false) else (f.1, true)
  else (windowFault false p st n other code a s, false)

/-- A window check made for this engine's stream `x` if any: no port is involved. -/
def windowCheck (x : Option Nat) (ws : List Win) (n a len : Nat) (k : WKind) (bridge : Bool) (other code : Nat) (s : State) : State × Bool :=
  windowCheckAt 0xFF (x.getD 0xFF) x ws n a len k bridge other code s

/-! ### The staging store as accesses read it (R254) -/

/-- An uncorrectable staging word is met (R254); `p` and `k` the port and the stream of the record, 0xFF for none. -/
def stgEccHit (inj : Bool) (p k n w : Nat) (s : State) : State :=
  raise { i := 2, inj := inj, port := p, stream := k, part := n, addr := w }
    (wrN R.memEccAddr (w % 2 ^ 24) (evI R.memEvents 6 8 inj (cnt R.memEccUncorrCount s)))

/-- The first uncorrectable word among the bytes. -/
def badWord (s : State) (o len : Nat) : Option Nat := s.stgBad.find? (fun w => decide (o < 8 * w + 8 ∧ 8 * w < o + len))

/-- Read staging bytes for partition `n`, with injection point 2; `none` where a word is uncorrectable; an error's record
names port `p` and stream `st`. -/
def storeReadAt (p st : Nat) (x : Option Nat) (n o len : Nat) (s : State) : State × Option (List Byte) :=
  match badWord s o len with
  | some w => (stgEccHit false p st n w s, none)
  | none =>
    let f := awlFire 2 none none (some n) s
    if f.2 then (stgEccHit true p st n (o / 8) (markWho x f.1), none) else (f.1, some (stgRead f.1 o len))

/-- A read of staging bytes made for this engine's stream `x` if any: no port is involved. -/
def storeRead (x : Option Nat) (n o len : Nat) (s : State) : State × Option (List Byte) :=
  storeReadAt 0xFF (x.getD 0xFF) x n o len s

/-- Write staging bytes; whole words get fresh check bits (R254). -/
def storeWrite (o : Nat) (b : List Byte) (s : State) : State :=
  stgWrite o b { s with stgBad := s.stgBad.filter (fun w => decide (8 * w < o ∨ o + b.length < 8 * w + 8)) }

/-! ### Local accesses and package transactions (R224, R255) -/

/-- Some PKG port is ACTIVE. -/
def pkgUp (s : State) : Bool := (range 0 3).any (fun n => (port s n).st == .active)

/-- What became of a local access: done at once, issued to the accelerator, or failed with a completion status. -/
inductive Acc where
  | done | issued
  | err (status : Nat)
  deriving DecidableEq, Repr

/-- BAD_ACCESS is counted. -/
def badAccess (s : State) : State := ev R.memEvents 1 (cnt R.memBadAccessCount s)

/-- The ACTIVE PKG ports. -/
def activePkg (s : State) : List Nat := (range 0 3).filter (fun n => (port s n).st == .active)

/-- The PKG port of the beat at address `a` by a set of ACTIVE ports: its own, or the next ACTIVE one upward modulo 4 (R255). -/
def beatPort (l : List Nat) (a : Nat) : Nat := (((range 0 3).map (fun i => (a / 64 + i) % 4)).find? (l.contains ·)).getD (a / 64 % 4)

/-- The PKG ports of the 64-byte beats of an access (R255). -/
def beatPorts (l : List Nat) (a len : Nat) : List Nat :=
  (List.range ((a + len + 63) / 64 - a / 64)).map (fun i => beatPort l (64 * (a / 64 + i)))

/-- New beats may be issued: the set of ACTIVE PKG ports is the one in use, or no beat is in flight (R255). -/
def pkgOpen (s : State) : Bool := activePkg s == s.pkgSet || !s.txns.any (fun t => t.sent)

/-- The stream whose access to its own slot a transaction is part of. -/
def Owner.stream : Owner → Option Nat
  | .step k _ _ => some k
  | .shard k _ _ _ => some k
  | _ => none

/-- A transaction of stream `k`, older than number `id`, touches a 64-byte line of the bytes (R249). -/
def lineBusy (s : State) (k : Option Nat) (id a len : Nat) : Bool :=
  k.isSome && s.txns.any (fun t => t.owner.stream == k && decide (t.id < id)
    && decide (a / 64 ≤ (t.addr + t.bytes.length - 1) / 64 ∧ t.addr / 64 ≤ (a + len - 1) / 64))

/-- A read of stream `k` from accelerator memory waits: for an older write of its own to the same line (R249), or while the
beats issued with another set of PKG ports drain (R255). -/
def readHeld (s : State) (k : Option Nat) (a len : Nat) : Bool :=
  pkgUp s && placeOf s (offOf a) len == .accel && (!pkgOpen s || lineBusy s k s.txnId a len)

/-- Send the beats of a package write. -/
def txnSend (t : Txn) (s : State) : State :=
  emit (.pkgWrite t.id t.addr t.bytes (beatPorts (activePkg s) t.addr t.bytes.length)) { s with pkgSet := activePkg s }

/-- Take a package write transaction: its beats are issued at once where they may be (R249, R255). -/
def pkgIssue (a : Nat) (b : List Byte) (o : Owner) (s : State) : State :=
  let go := pkgOpen s && !lineBusy s o.stream s.txnId a b.length
  let t : Txn := { id := s.txnId, addr := a, bytes := b, owner := o, issued := now s, sent := go }
  let s := { s with txnId := s.txnId + 1, txns := s.txns ++ [t] }
  if go then txnSend t s else s

/-- A beat on PKG port `n` failed its check (R156). -/
def beatFailed (n : Nat) (inj : Bool) (s : State) : State :=
  let s := raise { i := 5, inj := inj, port := n } (cnt (R.prtFecUncorrCount n) s)
  if inj then ev R.memEvents 8 s else s

/-- The beats of a read that arrive in order, each an opportunity of injection point 5; the port of the first it fails. -/
def beatsIn : List Nat → State → State × Option Nat
  | [], s => (s, none)
  | n :: t, s =>
    let f := awlFire 5 (some n) none none s
    if f.2 then (f.1, some n) else beatsIn t f.1

/-- The issues of a package read, at most as many as the first argument says (R256). The bytes of the second each name the
beat by which one issue fails; after those an issue returns `b`, or is never acknowledged where there is none. -/
def readIssues (id a len : Nat) (b : Option (List Byte)) : Nat → List Byte → State → State × Option (List Byte)
  | 0, _, s => (s, none)
  | n + 1, f, s =>
    let ports := beatPorts (activePkg s) a len
    let s := emit (.pkgRead id a len ports) { s with pkgSet := activePkg s }
    let again (p : Nat) (inj : Bool) (s : State) : State :=
      let s := beatFailed p inj s
      if n = 0 then s else cnt R.memPkgRetryCount s
    match f with
    | e :: f => readIssues id a len b n f (again (ports.getD e.toNat 0) false s)
    | [] =>
      match b with
      | none => (s, none)
      | some b =>
        let r := beatsIn ports s
        match r.2 with
        | none => (r.1, some b)
        | some p => readIssues id a len (some b) n [] (again p true r.1)

/-- A package read (R255, R256). `data` is what came of it (log entry 44): as many bytes as were asked for, with up to three
bytes before them, each the number of the beat by which an issue failed its check; any other list says that no issue was
acknowledged within MEM_PKG_TIMEOUT ticks, after as many failed issues as it has bytes. -/
def pkgRead (a len : Nat) (data : List Byte) (s : State) : State × Option (List Byte) :=
  let f := data.length - len
  let r := if len ≤ data.length ∧ f ≤ 3 then
      readIssues s.txnId a len (some (data.drop f)) 4 (data.take f) { s with txnId := s.txnId + 1 }
    else readIssues s.txnId a len none 4 data { s with txnId := s.txnId + 1 }
  if r.2.isSome then r else (ev R.memEvents 7 r.1, none)

/-- A write of partition `n` to the own slot (R224, R226, R234, R255). -/
def localWrite (x : Option Nat) (ws : List Win) (n a : Nat) (b : List Byte) (o : Owner) (s : State) : State × Acc :=
  if slotOf a ≠ ownSlot s ∨ 2 ^ 44 < offOf a + b.length then (badAccess s, .err 0x11)
  else
    match placeOf s (offOf a) b.length with
    | .bad => (badAccess s, .err 0x11)
    | pl =>
      let w := windowCheck x ws n a b.length .write false 0x1FFF 0 s
      if !w.2 then (w.1, .err 0x12)
      else
        match pl with
        | .store off => (storeWrite off b w.1, .done)
        | _ => if pkgUp w.1 then (pkgIssue a b o w.1, .issued) else (w.1, .err 0x14)

/-- A read of partition `n` from the own slot; `data` is what comes of the package read where the bytes are the
accelerator's (`pkgRead`). -/
def localRead (x : Option Nat) (ws : List Win) (n a len : Nat) (data : List Byte) (s : State) : State × Except Nat (List Byte) :=
  if slotOf a ≠ ownSlot s ∨ 2 ^ 44 < offOf a + len then (badAccess s, .error 0x11)
  else
    match placeOf s (offOf a) len with
    | .bad => (badAccess s, .error 0x11)
    | pl =>
      let w := windowCheck x ws n a len .read false 0x1FFF 0 s
      if !w.2 then (w.1, .error 0x12)
      else
        match pl with
        | .store off =>
          let r := storeRead x n off len w.1
          (match r.2 with
          | some b => (r.1, .ok b)
          | none => (r.1, .error 0x13))
        | _ =>
          if pkgUp w.1 then
            let r := pkgRead a len data w.1
            (match r.2 with
            | some b => (r.1, .ok b)
            | none => (r.1, .error 0x13))
          else (w.1, .error 0x14)

/-- The tests of a local address that reads or writes nothing yet (R224, R226, R234). -/
def localTest (x : Option Nat) (ws : List Win) (n a len : Nat) (k : WKind) (s : State) : State × Option Nat :=
  if slotOf a ≠ ownSlot s ∨ 2 ^ 44 < offOf a + len then (badAccess s, some 0x11)
  else
    match placeOf s (offOf a) len with
    | .bad => (badAccess s, some 0x11)
    | _ =>
      let w := windowCheck x ws n a len k false 0x1FFF 0 s
      if w.2 then (w.1, none) else (w.1, some 0x12)

/-- The tests of a local range that is accessed in parts (R222, R234): each part meets R226 by itself. -/
def rangeTest (x : Option Nat) (ws : List Win) (n a len : Nat) (k : WKind) (s : State) : State × Option Nat :=
  if slotOf a ≠ ownSlot s ∨ 2 ^ 44 < offOf a + len then (badAccess s, some 0x11)
  else
    let w := windowCheck x ws n a len k false 0x1FFF 0 s
    if w.2 then (w.1, none) else (w.1, some 0x12)

end Sys2Proof.Machine
end

