-- ==== Sys2Proof/Machine/Capture.lean ====
section
/-! DEFINITION. Captures: the replay ring, its units and entries, and the data copy buffer (Telemetry and Step Replay,
R530–R540). -/
namespace Sys2Proof.Machine

/-! ### The ring (R531) -/

/-- Units the ring holds. -/
def ringUnits (s : State) : Nat := rfld s R.rplRingSize 4 0 * 16384

/-- The staging offset of unit `u`. -/
def unitAddr (s : State) (u : Nat) : Nat := storeSize - ringUnits s * 64 + (u % ringUnits s) * 64

/-- Units between RPL_TAIL and RPL_HEAD. -/
def ringUsed (s : State) : Nat := (rd s R.rplHead - rd s R.rplTail).toNat

/-- Write a unit at its place. -/
def unitWrite (u : Nat) (b : List Byte) (s : State) : State := storeWrite (unitAddr s u) (slice b 0 64) s

/-- A unit's header: capture ID, KIND, number of items (R533). -/
def unitHead (id kind n : Nat) : List Byte := bytesLE 2 id ++ bytesLE 1 kind ++ bytesLE 1 n

/-- The 32 bytes of a step record (Table 8.6). -/
def recBytes (r : Rec) : List Byte :=
  bytesLE 1 r.opcode ++ bytesLE 1 r.flags ++ bytesLE 2 r.peer ++ bytesLE 4 r.launch ++ bytesLE 4 r.deadline
    ++ bytesLE 1 r.buf ++ bytesLE 1 r.fmt ++ bytesLE 1 r.opRing ++ bytesLE 1 r.peerStream ++ bytesLE 4 r.inOff
    ++ bytesLE 4 r.outOff ++ bytesLE 4 r.length ++ bytesLE 2 r.dateline ++ bytesLE 2 r.aux

/-! ### Open captures -/

/-- The capture with an ID. -/
def capOf (s : State) (id : Nat) : Option Cap := s.caps.find? (fun c => c.id == id)

/-- Change a capture. -/
def modCap (id : Nat) (f : Cap → Cap) (s : State) : State :=
  { s with caps := s.caps.map (fun c => if c.id = id then f c else c) }

/-- Captures that have not ended. -/
def openCaps (s : State) : Nat := s.caps.countP (fun c => !c.ended)

/-- Write one more unit of a capture; one that finds the ring full is lost (R532). Answers its unit index. -/
def capUnit (id kind n : Nat) (body : List Byte) (s : State) : State × Option Nat :=
  let s := modCap id (fun c => { c with units := c.units + 1 }) s
  if ringUnits s ≤ ringUsed s then
    (modCap id (fun c => { c with truncated := true }) (ev R.rplEvents 0 (cnt R.rplUnitLostCount s)), none)
  else
    let u := rdN s R.rplHead
    (wrN R.rplHead ((u + 1) % 2 ^ 32) (unitWrite u (unitHead id kind n ++ body) s), some u)

/-- A unit of `n` items has its place in the ring: its data items, those `skip` leaves out apart, are numbered in order, and
each that is in the copy buffer gets its offset (R538). -/
def numberItems (id target n : Nat) (skip : Nat → Bool) (s : State) : State :=
  forEach (List.range n) (fun i s =>
    match capOf s id with
    | none => s
    | some c =>
      if skip i then s
      else
        let off := (c.dataStart + c.items * 4096) % (rfld s R.rplDataSize 15 0 * 2 ^ 20)
        modCap id (fun c => { c with items := c.items + 1 })
          { s with copyBuf := s.copyBuf.map (fun x =>
              if x.cap = id ∧ x.target = target ∧ x.place = i ∧ x.off.isNone = true then { x with off := some off } else x) }) s

/-- Write the pending contribution entries as a unit. -/
def capFlushEntries (id : Nat) (s : State) : State :=
  match capOf s id with
  | none => s
  | some c =>
    if c.ebuf.isEmpty then s
    else
      let r := capUnit id 3 c.ebuf.length c.ebuf.flatten s
      let s := numberItems id 255 c.ebuf.length (fun i => fieldLE (c.ebuf.getD i []) 16 1 == 5) r.1
      modCap id (fun c => { c with ebuf := [], eloc := c.eloc ++ [r.2] }) s

/-- Write a run of check items as a unit (R536). -/
def capFlushRun (id : Nat) (r : CapRun) (s : State) : State :=
  let body := bytesLE 1 r.target ++ bytesLE 3 0 ++ bytesLE 4 r.first
    ++ r.items.flatMap (fun i => bytesLE 4 i.1 ++ bytesLE 2 i.2 ++ bytesLE 2 0)
  let s := modCap id (fun c => { c with runs := c.runs.filter (fun x => x.target != r.target) })
    (capUnit id r.kind r.items.length body s).1
  numberItems id r.target r.items.length (fun _ => r.kind != 4) s

/-- Put a data item in the copy buffer (R538, R539): item `place` of the unit of `target` being filled; `entry` is the number
of the contribution entry it belongs to. -/
def capData (id target place : Nat) (entry : Option Nat) (bytes : List Byte) (s : State) : State :=
  match capOf s id with
  | none => s
  | some c =>
    if !c.data then s
    else
      let s := wrN R.rplDataNext ((rdN s R.rplDataNext + 4096) % (rfld s R.rplDataSize 15 0 * 2 ^ 20)) s
      if s.copyBuf.length < 64 then
        { s with copyBuf := s.copyBuf ++
            [{ cap := id, entry := entry, stream := c.stream, part := c.part, step := c.idx, target := target, place := place, bytes := bytes }] }
      else ev R.rplEvents 1 (modCap id (fun c => { c with lost := true }) s)

/-- Write a contribution entry (R535). `bytes` is the chunk; ABSENT entries have none. -/
def capEntry (cap : Option Nat) (pos rank contrib check off decision flags delta : Nat) (bytes : List Byte) (s : State) : State :=
  match cap with
  | none => s
  | some id =>
    match capOf s id with
    | none => s
    | some c =>
      let b := bytesLE 4 pos ++ bytesLE 2 rank ++ bytesLE 2 contrib ++ bytesLE 4 check ++ bytesLE 4 (min off 0xFFFFFFFF)
        ++ bytesLE 1 decision ++ bytesLE 1 flags ++ bytesLE 2 delta
      let s := modCap id (fun c => { c with ebuf := c.ebuf ++ [b], entries := c.entries + 1, inj := c.inj || flags.testBit 2 }) s
      let s := if decision = 5 then s else capData id 255 c.ebuf.length (some c.entries) bytes s
      if c.ebuf.length = 2 then capFlushEntries id s else s

/-- Record a check item (R536): kind 4 INPUT, 5 OUTPUT. `bytes` are the item's bytes, copied for INPUT items. -/
def capItem (cap : Option Nat) (kind target n check count : Nat) (bytes : List Byte) (s : State) : State :=
  match cap with
  | none => s
  | some id =>
    match capOf s id with
    | none => s
    | some c =>
      let copy (i : Nat) (s : State) : State := if kind = 4 then capData id target i none bytes s else s
      let start (s : State) : State :=
        copy 0 <| modCap id (fun c => { c with runs := c.runs ++ [{ kind := kind, target := target, first := n, items := [(check, count)] }] }) s
      match c.runs.find? (fun r => r.target == target) with
      | none => start s
      | some r =>
        if n = r.first + r.items.length then
          let r1 := { r with items := r.items ++ [(check, count)] }
          let s := copy r.items.length (modCap id (fun c => { c with runs := c.runs.map (fun x => if x.target = target then r1 else x) }) s)
          if r1.items.length = 7 then capFlushRun id r1 s else s
        else start (capFlushRun id r s)

/-- The END unit (Table 17.10). -/
def capEndBytes (c : Cap) : List Byte :=
  unitHead c.id 6 0 ++ bytesLE 4 c.entries ++ bytesLE 4 c.units ++ bytesLE 1 c.status
    ++ bytesLE 1 (b2n c.truncated + 2 * b2n c.lost + 4 * b2n c.flip + 8 * b2n c.inj) ++ bytesLE 2 0
    ++ bytesLE 8 c.endedAt ++ bytesLE 4 c.dataStart ++ bytesLE 4 c.items

/-- A capture is kept while data items of it may still fail (R539). -/
def capDrop (id : Nat) (s : State) : State :=
  if s.copyBuf.any (fun i => i.cap == id) || s.tags.any (fun t => match t.copy with | some x => x.1 == id | none => false) then s
  else { s with caps := s.caps.filter (fun c => !(c.id == id && c.ended)) }

/-- The step of a capture ends with a status (R532, R537). -/
def capEnd (cap : Option Nat) (status : Nat) (inj : Bool) (s : State) : State :=
  match cap with
  | none => s
  | some id =>
    match capOf s id with
    | none => s
    | some c =>
      if c.ended then s
      else
        let s := capFlushEntries id s
        let s := match capOf s id with
          | some c => forEach c.runs (capFlushRun id) s
          | none => s
        let s := modCap id (fun c => { c with ended := true, status := status, endedAt := mtcN s, inj := c.inj || inj }) s
        let s := match capOf s id with
          | some c => unitWrite c.endUnit (capEndBytes c) s
          | none => s
        capDrop id s

/-- A data item was not copied (R539). -/
def capLost (id : Nat) (s : State) : State :=
  let s := ev R.rplEvents 1 (modCap id (fun c => { c with lost := true }) s)
  let s := match capOf s id with
    | some c => if c.ended then unitWrite c.endUnit (capEndBytes c) s else s
    | none => s
  capDrop id s

/-- A data item was copied: COPIED is set in its entry (R539). -/
def capCopied (id : Nat) (entry : Option Nat) (s : State) : State :=
  let s := match entry, capOf s id with
    | some e, some c =>
      (match c.eloc[e / 3]? with
      | some (some u) =>
        let a := unitAddr s u + 4 + 20 * (e % 3) + 17
        storeWrite a [stgGet s a ||| 1] s
      | some none => s
      | none =>
        let k := e - 3 * c.eloc.length
        modCap id (fun c => { c with ebuf := c.ebuf.set k (patch (c.ebuf.getD k []) 17 [((c.ebuf.getD k []).getD 17 0) ||| 1]) }) s)
    | _, _ => s
  capDrop id s

/-- A replay ends (R546): RPL_RESULT, RPL_FAULT and RPL_EVENTS are written. The stream is the caller's. -/
def replayEnd (r : Replay) (inj : Bool) (s : State) : State :=
  let code := match r.fault, r.first with
    | some _, _ => 3
    | none, some (_, true) => 1
    | none, some (_, false) => 2
    | none, none => 0
  let s := wrN R.rplResult (code * 16 + r.cap * 65536) s
  let s := match r.fault with | some f => wrN R.rplFault f s | none => s
  let s := if r.mism = 0 then s else ev R.rplEvents 3 s
  { evI R.rplEvents 2 5 inj s with replay := none }

/-- A flip falls within every open capture (R537). -/
def capFlip (s : State) : State := { s with caps := s.caps.map (fun c => if c.ended then c else { c with flip := true }) }

/-- A step that may be captured (R530). -/
def capturable (op : Nat) : Bool := decide (op = 1 ∨ op = 2 ∨ op = 3 ∨ op = 4 ∨ op = 5 ∨ op = 6 ∨ op = 7 ∨ op = 13)

/-- Open the capture of a step that has fired (R530, R532, R534). -/
def captureOpen (k : Nat) (r : Run) (lateArm : Bool) (s : State) : State × Option Nat :=
  let x := str s k
  let n := x.part
  let reg := rd s (R.parReplay n)
  let asked := r.rc.flags.testBit 3 || x.req.flags.testBit 3 || x.hflags.testBit 2
  if capturable r.rc.opcode && wbit reg 0 && asked && !wbit reg 2 then
    if openCaps s < 32 ∧ ringUsed s + 3 ≤ ringUnits s then
      let id := rdN s R.rplNextId % 65536
      let u := rdN s R.rplHead
      let data := wbit reg 1
      let head0 := unitHead id 1 0 ++ bytesLE 4 x.req.step ++ bytesLE 8 r.base ++ bytesLE 8 (mtcN s) ++ bytesLE 8 x.req.seed
        ++ bytesLE 4 x.req.last ++ bytesLE 2 r.idx ++ bytesLE 1 k ++ bytesLE 1 n
        ++ bytesLE 1 (s.ep.inj % 2 + 2 * b2n lateArm + 4 * b2n data) ++ bytesLE 1 (r.policy % 4 + 4 * (r.rounding % 4))
        ++ bytesLE 2 (ownRank s n) ++ bytesLE 2 (ranks s n) ++ bytesLE 1 (incarnation s) ++ bytesLE 1 0 ++ bytesLE 4 r.bias
      let head1 := unitHead id 2 0 ++ recBytes r.rc
      let s := unitWrite (u + 1) head1 (unitWrite u head0 s)
      let s := wrN R.rplNextId ((id + 1) % 65536) (wrN R.rplHead ((u + 3) % 2 ^ 32) s)
      let c : Cap :=
        { id := id, stream := k, idx := r.idx, part := n, endUnit := (u + 2) % 2 ^ 32, data := data
          dataStart := rdN s R.rplDataNext }
      ({ modStr k (fun x => { x with captured := true }) s with
        caps := s.caps.filter (fun c => c.id != id) ++ [c]
        copyBuf := s.copyBuf.filter (fun i => i.cap != id) }, some id)
    else (cnt R.rplSkipCount s, none)
  else (s, none)

/-- Write UB_CHECK into HEAD1 once the update block is read (Table 17.6). -/
def capUb (cap : Option Nat) (ub : Nat) (s : State) : State :=
  match cap with
  | none => s
  | some id =>
    match capOf s id with
    | none => s
    | some c => storeWrite (unitAddr s ((c.endUnit + 2 ^ 32 - 1) % 2 ^ 32) + 36) (bytesLE 4 ub) s

/-- A write to RPL_TAIL (R531). -/
def rplTailWrite (t : Word) (s : State) : State :=
  if (rd s R.rplHead - t).toNat ≤ ringUnits s then wr R.rplTail t s else s

/-- RPL_TAIL_WRITE (R531). -/
def execRplTailWrite (t : Word) (s : State) : Host.Outcome State Fault Refusal := run (rplTailWrite t) s

end Sys2Proof.Machine
end

