-- ==== Sys2Proof/Machine/Finish.lean ====
section
/-! DEFINITION. How steps, requests and streams finish: the anneal ledger, completion records and signal words, faults, and
the end of a step (Streams, Requests and Lasts, R294–R299; Deadlines, R383, R395–R397). -/
namespace Sys2Proof.Machine

/-! ### The anneal ledger (R396, R397) -/

/-- What a ledger entry says (Table 12.3). -/
structure Entry where
  part : Nat
  sstep : Nat
  atStep : Nat
  pos : Nat
  rank : Nat
  idx : Nat
  decision : Nat
  stream : Nat
  inj : Bool := false
  ordered : Bool := false
  late : Bool := false
  amount : Nat
  seq : Nat
  deriving DecidableEq, Repr

/-- The 32 bytes of a ledger entry. -/
def entryBytes (s : State) (e : Entry) : List Byte :=
  bytesLE 8 (mtcN s) ++ bytesLE 4 e.sstep ++ bytesLE 4 e.atStep ++ bytesLE 4 e.pos ++ bytesLE 2 e.rank
    ++ bytesLE 2 (e.idx % 4096 + e.decision * 4096) ++ bytesLE 1 e.stream
    ++ bytesLE 1 (b2n e.inj + 2 * b2n e.ordered + 4 * b2n e.late) ++ bytesLE 2 e.amount ++ bytesLE 2 (e.seq % 1024)
    ++ bytesLE 2 0

/-- Write a decision to the ledger (R396). -/
def ledger (e : Entry) (s : State) : State :=
  let n := e.part
  let i := rdN s (R.parLedgerCount n) % 256
  let s := if (par s n).unread.contains i then ev (R.parLateEvents n) 5 s else s
  let s := tblWrites (R.ledgerWord n (8 * i)) (recordWords (entryBytes s e) 8) s
  let s := modPar n (fun p => { p with unread := p.unread.filter (· != i) ++ [i] }) s
  let s := wrN (R.parLedgerCount n) ((rdN s (R.parLedgerCount n) + 1) % 2 ^ 32) s
  let s := if e.inj then ev (R.parLateEvents n) 6 s else s
  let s := if e.decision ≤ 5 then ev (R.parLateEvents n) 0 s else s
  if e.decision = 3 then ev (R.parLateEvents n) 1 s
  else if e.decision = 4 then ev (R.parLateEvents n) 2 s
  else if e.decision = 7 then ev (R.parLateEvents n) 3 s
  else if e.decision = 8 then ev (R.parLateEvents n) 4 s
  else s

/-- A late decision of a step of stream `k` (R397); `cur` tells that the stream's present request made it. -/
def lateDecision (k : Nat) (cur : Bool) (e : Entry) (s : State) : State :=
  let s := cnt (R.strLateCount k) (ledger e s)
  let s := markInj k (e.inj && cur) s
  if cur then modStr k (fun x => { x with late := true, lateCount := x.lateCount + 1 }) s else s

/-- PARn_ANNEAL_MAX. -/
def annealMax (s : State) (n : Nat) : Nat := rfld s (R.parAnnealMax n) 3 0

/-- Drop an anneal entry with decision 7 EXPIRED or 8 FLUSHED (R395). -/
def annealDrop (n decision atStep : Nat) (a : Anneal) (s : State) : State :=
  ledger
    { part := n, sstep := a.sstep, atStep := atStep, pos := a.pos, rank := a.rank, idx := a.idx, decision := decision
      stream := a.stream, ordered := a.ordered, late := a.late, amount := a.count, seq := a.seq }
    (modPar n (fun p => { p with anneal := p.anneal.erase a })
      (if a.res then modStr a.stream (fun x => { x with inUse := x.inUse - 1 }) s else s))

/-- Drop the entries a completing request of stream `k` leaves out of range (R395). -/
def annealExpire (n k step : Nat) (s : State) : State :=
  forEach ((par s n).anneal.filter (fun a =>
    a.stream == k && decide (annealMax s n ≤ (step + 2 ^ 32 - a.sstep) % 2 ^ 32))) (annealDrop n 7 step) s

/-- Drop the entries a test picks as FLUSHED (R395). -/
def annealFlush (n step : Nat) (pick : Anneal → Bool) (s : State) : State :=
  forEach ((par s n).anneal.filter pick) (annealDrop n 8 step) s

/-! ### Completion (R296–R299) -/

/-- The ring base address in a register pair. -/
def ringBase (s : State) (lo hi : Nat) : Nat := rdN s lo + rfld s hi 15 0 * 2 ^ 32

/-- The completion record (Table 8.11). -/
def completionRecord (s : State) (n : Nat) (k : Option Nat) (q : Req) (status : Nat) : List Byte :=
  let x := match k with | some i => str s i | none => {}
  let i := match k with | some i => i | none => 0xFF
  let tail := rdN s (R.parCplTail n)
  let size := 2 ^ rfld s (R.parCplSize n) 4 0
  let phase := b2n (decide (tail / size % 2 = 0))
  let ran := k.isSome
  let losses := if ran then rdN s (R.strBranchLossCount i) else 0
  let first := if ran then rd s (R.strBranchLossFirst i) else 0x7FFC1FFF
  bytesLE 2 q.tag ++ bytesLE 1 status
    ++ bytesLE 1 (phase + 2 * b2n (decide (0 < losses)) + 4 * b2n x.lateArm + 8 * b2n x.late + 16 * b2n x.inj
        + 32 * b2n x.captured)
    ++ bytesLE 4 q.step ++ bytesLE 8 (mtcN s) ++ bytesLE 2 x.faultStep ++ bytesLE 1 i ++ bytesLE 1 n
    ++ bytesLE 4 losses ++ bytesLE 2 (fld first 12 0) ++ bytesLE 1 (fld first 17 13)
    ++ bytesLE 1 (min x.lateCount 255) ++ bytesLE 4 x.detail

/-- The signal word of a completion (R298). -/
def signalValue (q : Req) (status : Nat) : Nat :=
  q.step % 2 ^ 32 + q.tag % 65536 * 2 ^ 32 + status % 256 * 2 ^ 48 + 2 ^ 56

/-- SHARD_UPDATE chunks of stream `k` with a package write in flight: run and chunk. -/
def shardsOut (s : State) (k : Nat) : List (Nat × Nat) :=
  (s.txns.filterMap (fun t => match t.owner with | .shard m i j _ => if m = k then some (i, j) else none | _ => none)).eraseDups

/-- Blocks stream `k` still holds once its request is over: those of assemblies, and those that package writes read (R117,
R427). -/
def heldAfter (s : State) (k : Nat) : Nat := s.asms.countP (fun a => a.stream == k) + 3 * (shardsOut s k).length

/-- A stream whose request is over returns to IDLE. Closed steps stay while their landed records are held (R383). -/
def toIdle (k : Nat) (s : State) : State :=
  modStr k (fun x => { ({} : Stream) with
    part := x.part, opn := x.opn, rid := x.rid, rid0 := x.rid, pseq := x.pseq, closed := x.closed, gaps := x.gaps
    drawn := heldAfter s k }) s

/-- The completion record of partition `n`'s request has been acknowledged, or has failed: the signal word is due after
an acknowledgement (R298, R299), and the stream is IDLE. -/
def completionDone (ok : Bool) (n : Nat) (k : Option Nat) (sig : Option (Nat × Nat)) (s : State) : State :=
  let s := if ok then s else ev (R.parEvents n) 2 s
  let s := match k with
    | some i => if (str s i).st == .quenching then s else toIdle i s
    | none => s
  match sig with
  | some (a, v) => if ok then { s with signals := s.signals ++ [(n, a, v)] } else s
  | none => s

/-- Complete a request of partition `n`: the record is written to entry CPL_TAIL, which advances, and the claim ends
(R296). -/
def complete (n : Nat) (k : Option Nat) (q : Req) (status : Nat) (s : State) : State :=
  let tail := rdN s (R.parCplTail n)
  let size := 2 ^ rfld s (R.parCplSize n) 4 0
  let a := ringBase s (R.parCplBaseLo n) (R.parCplBaseHi n) + 32 * (tail % size)
  let sig := if q.flags.testBit 0 then some (q.sigAddr, signalValue q status) else none
  let b := completionRecord s n k q status
  let s := match k with
    | some i => annealExpire n i q.step s
    | none => s
  let s := wrN (R.parCplTail n) ((tail + 1) % 2 ^ 32) (modPar n (fun p => { p with outstanding := p.outstanding - 1 }) s)
  let r := localWrite none (winsOf s n) n a b (.completion n k sig) s
  match r.2 with
  | .done => completionDone true n k sig r.1
  | .issued => r.1
  | .err _ => completionDone false n k sig r.1

/-! ### The end of a request by fault or quench (R188, R294, R427) -/

/-- Close the circuits a test picks, setting AUTOCLOSE for their partitions (R188). -/
def closeCircuits (pick : Word → Bool) (s : State) : State :=
  let s := forEach (range 0 127) (fun i s =>
    let w := rd s (R.circuitTbl i)
    if wbit w 31 && pick w then
      ev R.parCircuitEvents (16 + fld w 30 27) (tblWrite (R.circuitTbl i) 0 s)
    else s) s
  recountCircuits s

/-- Close the circuits of stream `k`. -/
def closeOwned (k : Nat) (s : State) : State :=
  if (range 0 127).any (fun i => wbit (rd s (R.circuitTbl i)) 31 && fld (rd s (R.circuitTbl i)) 8 1 == k) then
    closeCircuits (fun w => fld w 8 1 == k) s
  else s

/-- Discard the incomplete assemblies of stream `k`, each counted (R110). A complete one keeps its block, lands, and draws its
RECEIPT (R117). -/
def dropAsms (k : Nat) (s : State) : State :=
  let gone (a : Asm) : Bool := a.stream == k && a.full.isNone
  cntBy (R.strIncompleteCount k) (s.asms.countP gone) { s with asms := s.asms.filter (fun a => !gone a) }

/-- A retransmission that has not begun still waits at its source or in an output queue: its INDEX 0 cell. -/
def resendHeld (s : State) (dest st seq : Nat) : Bool :=
  let hit (c : Cell) : Bool :=
    wType c == 1 && wIndex c == 0 && !wMcast c && wDest c == dest && wStream c == st && wSeq c == seq && wSrc c == ownId s
  s.waiting.any (fun w => hit w.cell) || s.ports.any (fun p => (p.2.qVc0s ++ p.2.qVc0r ++ p.2.qVc1r ++ p.2.qCirc).any hit)

/-- What the legs of a stopped stream leave behind (R379): the waits of those that were retransmitted. -/
def gapsLeft (x : Stream) (s : State) : List Gap :=
  let own : List Gap := x.legs.filterMap (fun g =>
    if g.after.isNone ∧ g.owing.isEmpty = true then none
    else some { dest := g.dest, str := g.str, after := g.after.getD 0, owing := g.owing })
  (x.gaps ++ own).map (fun g => { g with owing := g.owing.filter (resendHeld s g.dest g.str) })

/-- Stop everything stream `k` does: no step armed or in progress, no wait, no access, no circuit, no staging; captures
end with the status (R294, R532). Data copies of its captures go on (R539). -/
def stopStream (k status : Nat) (s : State) : State :=
  let s := forEach (str s k).runs (fun r s => capEnd r.cap status (str s k).inj s) s
  let s := dropAsms k s
  let s := { s with
    waiting := s.waiting.filter (fun w => w.stream != k)
    landed := s.landed.filter (fun l => l.stream != k)
    tags := s.tags.filter (fun t => t.stream != k || t.copy.isSome) }
  let s := closeOwned k s
  modStr k (fun x => { x with
    arm := none, rec1 := none, recAt := none, runs := [], gaps := gapsLeft x s, legs := [], closed := [], loops := []
    drawn := heldAfter s k })
    (releaseReserve (str s k).part k s)

/-- Fault stream `k` at step `idx` (R294). A stream faults at most once per request. -/
def faultStream (k idx status : Nat) (s : State) : State :=
  let x := str s k
  match x.st with
  | .idle => s
  | .faulted => s
  | .quenching => s
  | _ =>
    if x.finished then s
    else
    let s := wrN (R.strFault k) (idx % 4096 * 256 + status) s
    let s := modStr k (fun x => { x with st := .faulted, status := status, faultStep := idx, finished := true }) (stopStream k status s)
    let s := modPar x.part (fun p => if p.startStr = some k then { p with startStr := none } else p) s
    complete x.part (some k) x.req status s

/-- Fault with a memory status and the failing address in DETAIL (Table 8.11). -/
def faultMem (k idx status a : Nat) (s : State) : State :=
  faultStream k idx status (modStr k (fun x => { x with detail := a / 4096 % 2 ^ 32 }) s)

/-- What follows a local access of a step: a failure faults its stream (R234, R282). -/
def orFault (k idx a : Nat) (r : State × Acc) : State :=
  match r.2 with
  | .err e => faultMem k idx e a r.1
  | _ => r.1

/-! ### The end of a step (R110, R283, R383) -/

/-- The opcode of a run, and its DEST_KIND (Table 8.7). -/
def Run.op (r : Run) : Nat := r.rc.opcode
def Run.kind (r : Run) : Nat := nbits r.rc.flags 6 4

/-- The run takes chunks: RECV, RECV_COMBINE or COMBINE_SEND, not kind BOARD. -/
def Run.receives (r : Run) : Bool :=
  ((r.op == 2 || r.op == 3) && r.kind != 4) || (r.op == 4 && r.auxRank != 0xFFFF)

/-- A receiving step expects chunks from engine `src` (R198, Table 9.4). -/
def Run.expects (r : Run) (src : Nat) : Bool :=
  r.receives && !r.ended
    && (if r.op = 4 then r.auxId == src else if r.kind = 5 then true else r.peerId == src)

/-- Discard the incomplete assemblies only this step was waiting for, each counted (R110). DESIGN CHOICE (log 43): where several
running steps expect its source an incomplete chunk is kept until the last of them ends. -/
def dropIncomplete (k : Nat) (r : Run) (s : State) : State :=
  let gone (a : Asm) : Bool :=
    a.stream == k && a.full.isNone && { r with ended := false }.expects a.src
      && !(str s k).runs.any (fun q => q.rid != r.rid && q.expects a.src)
  let n := s.asms.countP gone
  giveBlocks k n
    (cntBy (R.strIncompleteCount k) n { s with asms := s.asms.filter (fun a => !gone a) })

/-- The deadline of a run (R288). -/
def Run.deadline (r : Run) : Nat := (r.base + r.rc.deadline) % 2 ^ 64

/-- Close a receiving step: its landed records are held (R383); a 17th closed step releases those of the oldest. -/
def closeStep (k : Nat) (r : Run) (s : State) : State :=
  let x := str s k
  let c : ClosedStep := { run := r, step := x.req.step, lastOff := x.req.last, due := now s + 4 * retxWait s }
  let l := x.closed ++ [c]
  if 16 < l.length then
    match l with
    | o :: t =>
      let s := modStr k (fun x => { x with closed := t }) s
      { s with landed := s.landed.filter (fun d => !(d.stream == k && d.rid == o.run.rid)) }
    | [] => s
  else modStr k (fun x => { x with closed := l }) s

/-- A step ends (R283). -/
def endRun (k rid : Nat) (s : State) : State :=
  match runOf s k rid with
  | none => s
  | some r =>
    let s := capEnd r.cap 0 false s
    let s := if r.receives then closeStep k { r with ended := true } (dropIncomplete k r s) else s
    modStr k (fun x => { x with
      runs := x.runs.filter (fun q => q.rid != rid), endedAt := if rid + 1 = x.rid then some (now s) else x.endedAt }) s

/-- A package write of a run is still in flight. -/
def writesOut (s : State) (k rid : Nat) : Bool :=
  s.txns.any (fun t => match t.owner with | .step j q _ => j == k && q == rid | _ => false)

/-- Everything step `rid` of stream `k` started has its final outcome (R283): it has ended, and no leg, access or write of
it is left. -/
def earlierDone (s : State) (k : Nat) : Bool :=
  (str s k).legs.isEmpty && !s.tags.any (fun t => t.stream == k && t.copy.isNone)
    && !s.txns.any (fun t => match t.owner with
      | .step j q _ => j == k && decide ((str s k).rid0 ≤ q)
      | .shard j q _ _ => j == k && decide ((str s k).rid0 ≤ q)
      | _ => false)

/-! ### The count map (R309, R310) -/

/-- The contributor count of a buffer chunk. -/
def countOf (s : State) (k sel chunk : Nat) : Nat :=
  match (str s k).cmap.find? (fun e => e.1 == (sel, chunk)) with
  | some e => e.2
  | none => 1

/-- Record the contributor count of a written chunk. -/
def setCount (k sel chunk c : Nat) (s : State) : State :=
  let m := (str s k).cmap
  let rest := m.filter (fun e => e.1 != (sel, chunk))
  if c ≤ 1 then modStr k (fun x => { x with cmap := rest }) s
  else if rest.length < 4096 then modStr k (fun x => { x with cmap := rest ++ [((sel, chunk), c)] }) s
  else ev (R.strCollEvents k) 0 s

end Sys2Proof.Machine
end

