-- ==== Sys2Proof/Machine/Formats.lean ====
section
/-! DEFINITION. Element formats: descriptors and their checks, layout in a chunk, values, rounding, and the keyed counter
generator (Combiners, Formats and Rounding). Values are exact; nothing is rounded but where the spec rounds. -/
namespace Sys2Proof.Machine

/-! ### Descriptors (Table 10.4, Table 10.5) -/

/-- Element width in bits of a WIDTH code; 0 for a reserved code. -/
def widthOf (c : Nat) : Nat :=
  match c with
  | 0 => 4
  | 1 => 6
  | 2 => 8
  | 3 => 16
  | 4 => 32
  | _ => 0

/-- A decoded format descriptor (Table 10.4). -/
structure Fmt where
  width : Nat
  signed : Bool
  expW : Nat
  fracW : Nat
  bias : Nat
  special : Nat
  block : Bool
  scale : Bool
  noNan : Bool
  deriving DecidableEq, Repr

/-- The fields of a descriptor. -/
def fmtOf (w : Word) : Fmt :=
  { width := widthOf (fld w 2 0), signed := wbit w 3, expW := fld w 7 4, fracW := fld w 12 8, bias := fld w 20 13
    special := fld w 22 21, block := wbit w 23, scale := wbit w 24, noNan := wbit w 25 }

/-- Bits that differ between equal formats: everything but VALID. -/
def sameFmt (a b : Word) : Bool := fld a 30 0 == fld b 30 0

def Fmt.isInt (f : Fmt) : Bool := f.special == 2
def Fmt.ieee (f : Fmt) : Bool := f.special == 0

/-- The largest finite magnitude pattern of a float format (R326). -/
def maxPat (f : Fmt) : Nat :=
  if f.ieee then (2 ^ f.expW - 1) * 2 ^ f.fracW - 1
  else if f.noNan then 2 ^ (f.expW + f.fracW) - 1
  else 2 ^ (f.expW + f.fracW) - 2

/-- EMAX_FIELD (R326). -/
def emaxField (f : Fmt) : Nat := maxPat f / 2 ^ f.fracW

/-- The span of a format in bits (R329). -/
def spanOf (f : Fmt) : Nat :=
  (if f.isInt then f.width else emaxField f + f.fracW) + (if f.scale then 254 else 0)

/-- The accumulator class (R329). -/
def accClass (f : Fmt) : Nat :=
  if spanOf f + 14 ≤ 48 then 48 else if spanOf f + 14 ≤ 64 then 64 else 320

/-- A user descriptor passes Table 10.5. -/
def fmtOk (w : Word) : Bool :=
  let f := fmtOf w
  decide (fld w 2 0 ≤ 4) && decide (f.special ≠ 3) && (fld w 30 26 == 0)
    && (if f.isInt then f.expW == 0 && (b2n f.signed + f.fracW == f.width) && decide (f.bias ≤ 31)
      else (b2n f.signed + f.expW + f.fracW == f.width) && decide ((if f.ieee then 2 else 1) ≤ f.expW ∧ f.expW ≤ 8)
        && decide (f.fracW ≤ 23))
    && (f.block == f.scale) && (!f.block || decide (f.width ≤ 8)) && (!f.noNan || f.special == 1)
    && decide (spanOf f + 14 ≤ 320)

/-- Elements per chunk (Table 10.3). -/
def perChunk (f : Fmt) : Nat :=
  if f.block then (if f.width = 8 then 3968 else if f.width = 6 then 5216 else 7680)
  else if f.width = 32 then 1024
  else if f.width = 16 then 2048
  else if f.width = 8 then 4096
  else if f.width = 6 then 5461
  else 8192

/-- The byte at which a block-scaled chunk's scales begin (Table 10.3). -/
def scaleBase (f : Fmt) : Nat := perChunk f * f.width / 8

/-- The bits of a chunk its elements and scales occupy, from bit 0 (Table 10.3). -/
def usedBits (f : Fmt) : Nat := if f.block then 8 * (scaleBase f + perChunk f / 32) else f.width * perChunk f

/-- A chunk with the bits past its elements and scales zero (R103, Table 10.3). -/
def zeroTail (f : Fmt) (b : List Byte) : List Byte :=
  let u := usedBits f
  if 32768 ≤ u then b
  else
    b.take (u / 8)
      ++ (if u % 8 = 0 then [] else [b.getD (u / 8) 0 &&& BitVec.ofNat 8 (2 ^ (u % 8) - 1)])
      ++ List.replicate (4096 - (u + 7) / 8) 0

/-! ### Values (R326–R328) -/

/-- A value: not a number, an infinity, or (−1)^neg × m × 2^e. -/
inductive Val where
  | nan
  | inf (neg : Bool)
  | fin (neg : Bool) (m : Nat) (e : Int)
  deriving DecidableEq, Repr

/-- +0. -/
def Val.zero : Val := .fin false 0 0

/-- The value of an element pattern before its block scale (R326, R327). -/
def elemVal (f : Fmt) (p : Nat) : Val :=
  if f.isInt then
    (if f.signed ∧ 2 ^ (f.width - 1) ≤ p then .fin true (2 ^ f.width - p) (-(f.bias : Int)) else .fin false p (-(f.bias : Int)))
  else
    let mag := p % 2 ^ (f.expW + f.fracW)
    let neg := f.signed && p.testBit (f.expW + f.fracW)
    let e := mag / 2 ^ f.fracW
    let fr := mag % 2 ^ f.fracW
    if f.ieee ∧ e = 2 ^ f.expW - 1 then (if fr = 0 then .inf neg else .nan)
    else if f.special = 1 ∧ !f.noNan ∧ mag = 2 ^ (f.expW + f.fracW) - 1 then .nan
    else if e = 0 then .fin neg fr (1 - (f.bias : Int) - f.fracW)
    else .fin neg (2 ^ f.fracW + fr) ((e : Int) - f.bias - f.fracW)

/-- A value times 2^(S − 127); S = 0xFF makes it a NaN (R328). -/
def scaleVal (s : Nat) : Val → Val
  | .fin n m e => if s = 255 then .nan else .fin n m (e + (s : Int) - 127)
  | v => if s = 255 then .nan else v

/-- The value of element `k` of a chunk given as one little-endian number (R319, R320). -/
def chunkElem (f : Fmt) (chunk k : Nat) : Val :=
  let v := elemVal f ((chunk >>> (f.width * k)) % 2 ^ f.width)
  if f.scale then scaleVal ((chunk >>> (8 * (scaleBase f + k / 32))) % 256) v else v

/-- The bit pattern of element `k`. -/
def chunkPat (f : Fmt) (chunk k : Nat) : Nat := (chunk >>> (f.width * k)) % 2 ^ f.width

/-! ### Exact results -/

/-- A result before rounding: a NaN, an infinity, or (−1)^neg × num / den with den above 0. -/
inductive Res where
  | nan
  | inf (neg : Bool)
  | fin (neg : Bool) (num den : Nat)
  deriving DecidableEq, Repr

/-- 2^e as a fraction. -/
def pow2 (e : Int) : Nat × Nat := if 0 ≤ e then (2 ^ e.toNat, 1) else (1, 2 ^ (-e).toNat)

/-- A value as a result. -/
def resOf : Val → Res
  | .nan => .nan
  | .inf n => .inf n
  | .fin n m e => .fin n (m * (pow2 e).1) (pow2 e).2

/-- ⌊log2 (num / den)⌋ for num and den above 0. -/
def log2Q (num den : Nat) : Int :=
  let a := Nat.log2 num
  let b := Nat.log2 den
  if den * 2 ^ a ≤ num * 2 ^ b then (a : Int) - b else (a : Int) - b - 1

/-- The sum of finite values, exact: a numerator and an exponent. -/
def sumFin : List Val → Int × Int
  | [] => (0, 0)
  | .fin n m e :: t =>
    let r := sumFin t
    let e0 := min e r.2
    let v : Int := m * 2 ^ (e - e0).toNat
    ((if n then -v else v) + r.1 * 2 ^ (r.2 - e0).toNat, e0)
  | _ :: t => sumFin t

/-- A value is NaN, +Inf, −Inf, or −0. -/
def Val.isNan (v : Val) : Bool := v == .nan
def Val.isNegZero : Val → Bool
  | .fin true 0 _ => true
  | _ => false

/-- The exact sum of contributions divided by `count` (R330, R331, R336, R342). -/
def exactSum (l : List Val) (count : Nat) : Res :=
  if l.any Val.isNan then .nan
  else
    let p := l.any (· == .inf false)
    let n := l.any (· == .inf true)
    if p && n then .nan
    else if p then .inf false
    else if n then .inf true
    else
      let r := sumFin l
      if r.1 = 0 then .fin (l.all Val.isNegZero && !l.isEmpty) 0 1
      else .fin (decide (r.1 < 0)) (r.1.natAbs * (pow2 r.2).1) ((pow2 r.2).2 * count)

/-! ### Rounding (R339–R344) -/

/-- Rounding modes: 0 to nearest even, 1 toward zero, 2 stochastic (R338). -/
abbrev Mode := Nat

/-- Whether k + rem/den rounds up to k + 1: `odd` tells an odd k, `r` is the random word (R339, R340). -/
def roundUp (mode : Mode) (odd : Bool) (r rem den : Nat) : Bool :=
  match mode with
  | 0 => decide (den < 2 * rem) || (decide (2 * rem = den) && odd)
  | 1 => false
  | _ => decide (r < rem * 2 ^ 32 / den)

/-- The magnitude pattern of num/den in a float format whose exponents go on without limit, before rounding: the pattern
at or below it, and the remainder as a fraction of a step. -/
def patBelow (f : Fmt) (num den : Nat) : Nat × Nat × Nat :=
  if num = 0 then (0, 0, 1)
  else
    let l := log2Q num den
    let emin : Int := 1 - (f.bias : Int)
    let q : Int := max l emin - f.fracW
    let a := num * (pow2 (-q)).1
    let b := den * (pow2 (-q)).2
    let k := a / b
    (if emin ≤ l then ((l + f.bias - 1).toNat) * 2 ^ f.fracW + k else k, a % b, b)

/-- An element written out: its pattern, whether it was saturated, whether a NaN was written without a NaN pattern. -/
structure Elem where
  pat : Nat
  sat : Bool := false
  nanz : Bool := false
  deriving DecidableEq, Repr

/-- The sign bit of a float pattern. -/
def signBit (f : Fmt) (neg : Bool) : Nat := if neg && f.signed then 2 ^ (f.expW + f.fracW) else 0

/-- A float element saturated at its maximum finite value. -/
def satFloat (f : Fmt) (neg : Bool) : Elem :=
  if neg && !f.signed then { pat := 0, sat := true } else { pat := maxPat f + signBit f neg, sat := true }

/-- The canonical NaN of a format, where it has one (Table 10.8, R341). -/
def nanPat (f : Fmt) : Option Nat :=
  if f.isInt then none
  else if f.ieee then
    (if f.fracW = 0 then none else some ((2 ^ f.expW - 1) * 2 ^ f.fracW + 2 ^ (f.fracW - 1)))
  else if f.noNan then none
  else some (2 ^ (f.expW + f.fracW) - 1)

/-- Largest and smallest integer of an integer format, as magnitudes. -/
def intMax (f : Fmt) : Nat := 2 ^ f.fracW - 1
def intMin (f : Fmt) : Nat := if f.signed then 2 ^ f.fracW else 0

/-- An integer pattern. -/
def intPat (f : Fmt) (neg : Bool) (n : Nat) : Nat := if neg then (2 ^ f.width - n) % 2 ^ f.width else n

/-- Round a result to a format (R339–R341, R344). `blk` tells an element of a block-scaled output, which saturates also
where the element format has infinities (R343). -/
def roundElem (f : Fmt) (mode : Mode) (blk : Bool) (r : Nat) : Res → Elem
  | .nan =>
    match nanPat f with
    | some p => { pat := p }
    | none => { pat := 0, nanz := true }
  | .inf neg =>
    if f.isInt then { pat := intPat f neg (if neg then intMin f else intMax f), sat := true }
    else if f.ieee && !blk then
      (if neg && !f.signed then { pat := 0, sat := true } else { pat := (2 ^ f.expW - 1) * 2 ^ f.fracW + signBit f neg })
    else satFloat f neg
  | .fin neg num den =>
    if f.isInt then
      let a := num * 2 ^ f.bias
      let lim := if neg then intMin f else intMax f
      let k := a / den
      let n := k + b2n (roundUp mode (k % 2 == 1) r (a % den) den)
      if lim < n then { pat := intPat f neg lim, sat := true } else { pat := intPat f neg n }
    else
      let b := patBelow f num den
      let p := b.1 + b2n (roundUp mode (b.1 % 2 == 1) r b.2.1 b.2.2)
      if neg && !f.signed then (if p = 0 then { pat := 0 } else { pat := 0, sat := true })
      else if f.ieee && !blk then
        (if p ≤ maxPat f then { pat := p + signBit f neg }
        else if mode = 1 then { pat := maxPat f + signBit f neg }
        else { pat := (2 ^ f.expW - 1) * 2 ^ f.fracW + signBit f neg })
      else if maxPat f < p then satFloat f neg
      else { pat := p + signBit f neg }

/-- The exponent of the largest power of two an element holds (R343). -/
def emaxElem (f : Fmt) : Int := if f.isInt then (f.fracW : Int) - f.bias - 1 else (emaxField f : Int) - f.bias

/-- The larger of two magnitudes given as fractions. -/
def maxQ (a b : Nat × Nat) : Nat × Nat := if a.1 * b.2 < b.1 * a.2 then b else a

/-- The largest finite magnitude of a block. -/
def blockMax (l : List Res) : Nat × Nat :=
  l.foldl (fun a r => match r with | .fin _ n d => maxQ a (n, d) | _ => a) (0, 1)

/-- A block's X and whether it was clamped (R343). -/
def blockX (f : Fmt) (l : List Res) : Int × Bool :=
  let m := blockMax l
  if m.1 = 0 then (-127, false)
  else
    let x := log2Q m.1 m.2 - emaxElem f
    if x < -127 then (-127, true) else if 127 < x then (127, true) else (x, false)

/-- A result whose magnitude lies above the largest finite value of a float format. -/
def aboveMax (f : Fmt) : Res → Bool
  | .fin _ n d =>
    match elemVal f (maxPat f) with
    | .fin _ m e => decide (m * (pow2 e).1 * d < n * (pow2 e).2)
    | _ => false
  | .inf _ => true
  | .nan => false

/-- A result divided by 2^x. -/
def divPow (x : Int) : Res → Res
  | .fin n a b => .fin n (a * (pow2 (-x)).1) (b * (pow2 (-x)).2)
  | v => v

/-- A block written out: element patterns, scale byte, saturations, NaN-to-zero events, clamp. -/
structure Block where
  pats : List Nat
  scale : Nat := 0
  sat : Nat := 0
  nanz : Nat := 0
  clamp : Bool := false
  deriving DecidableEq, Repr

/-- Round a block of results with their random words to a block-scaled format (R343–R345). -/
def roundBlock (f : Fmt) (mode : Mode) (l : List (Res × Nat)) : Block :=
  let x := blockX f (l.map (·.1))
  let es := l.map (fun p => roundElem f mode true p.2 (divPow x.1 p.1))
  let k := es.countP (·.nanz)
  if k ≠ 0 then { pats := es.map (fun _ => 0), scale := 255, nanz := k }
  else { pats := es.map (·.pat), scale := (x.1 + 127).toNat, sat := es.countP (·.sat), clamp := x.2 }

/-- Cut a list into blocks of 32; `n` bounds how many. -/
def blocks32 {α : Type} : Nat → List α → List (List α)
  | 0, _ => []
  | n + 1, l => if l.isEmpty then [] else l.take 32 :: blocks32 n (l.drop 32)

/-- Patterns of `w` bits as one number, the first lowest (R319). -/
def packPats (w : Nat) : List Nat → Nat
  | [] => 0
  | p :: t => p % 2 ^ w + packPats w t * 2 ^ w

/-- What writing a chunk did: its bytes and its events (R345). -/
structure Made where
  bytes : List Byte
  sat : Nat := 0
  nanz : Nat := 0
  clamp : Bool := false
  deriving DecidableEq, Repr

/-- Form an output chunk from results and their random words; elements past the list are zero (R346, R349). -/
def makeChunk (f : Fmt) (mode : Mode) (l : List (Res × Nat)) : Made :=
  if f.scale then
    let bs := (blocks32 240 l).map (roundBlock f mode)
    let n := packPats f.width (bs.flatMap (·.pats)) + packPats 8 (bs.map (·.scale)) * 2 ^ (8 * scaleBase f)
    { bytes := bytesLE 4096 n, sat := (bs.map (·.sat)).sum, nanz := (bs.map (·.nanz)).sum, clamp := bs.any (·.clamp) }
  else
    let es := l.map (fun p => roundElem f mode false p.2 p.1)
    { bytes := bytesLE 4096 (packPats f.width (es.map (·.pat))), sat := es.countP (·.sat), nanz := es.countP (·.nanz) }

/-! ### The keyed counter generator (R350–R352) -/

/-- Rotate a 64-bit number left. -/
def rotl64 (x n : Nat) : Nat := (x * 2 ^ n + x / 2 ^ (64 - n)) % 2 ^ 64

/-- One round. -/
def kcgRound (s : Nat × Nat) : Nat × Nat :=
  let a := s.1 * 0x1000000001 % 2 ^ 64
  let b := rotl64 (s.2 ^^^ a) 24
  (rotl64 (a ^^^ b) 44, b)

/-- The output word for a key and a counter (R352). -/
def kcg (key counter : Nat) : Nat :=
  let s := (key ^^^ 0x6a3d5c1b9e2740f3, counter ^^^ 0x2f8ec4a10b5d7369)
  let s := kcgRound (kcgRound (kcgRound (kcgRound (kcgRound (kcgRound s)))))
  (s.1 ^^^ s.2) / 2 ^ 32

/-- The counter of a purpose, step index and element index (R350). -/
def kcgCounter (purpose step elem : Nat) : Nat := elem % 2 ^ 40 + step % 2 ^ 16 * 2 ^ 40 + purpose % 256 * 2 ^ 56

/-! ### binary32 operations (R333, R359, R367) -/

/-- The FP32 descriptor. -/
def fp32 : Fmt := fmtOf 0x800FF78C

/-- The E4M3 element of format 5 with its block scale. -/
def mxfp8 : Fmt := fmtOf 0x81A0E34A

/-- Round a result to FP32, to nearest even. -/
def toF32 (r : Res) : Val := elemVal fp32 (roundElem fp32 0 false 0 r).pat

/-- The bit pattern of an FP32 value. -/
def f32Bits (v : Val) : Nat := (roundElem fp32 0 false 0 (resOf v)).pat

/-- IEEE 754 binary32 addition. -/
def fadd (a b : Val) : Val := toF32 (exactSum [a, b] 1)

/-- The sign of a value. -/
def Val.neg : Val → Bool
  | .nan => false
  | .inf n => n
  | .fin n _ _ => n

/-- The exact product, where one is defined. -/
def mulExact (a b : Val) : Val :=
  match a, b with
  | .nan, _ => .nan
  | _, .nan => .nan
  | .inf n, .fin k m _ => if m = 0 then .nan else .inf (n != k)
  | .fin k m _, .inf n => if m = 0 then .nan else .inf (n != k)
  | .inf n, .inf k => .inf (n != k)
  | .fin n m e, .fin k l d => .fin (n != k) (m * l) (e + d)

/-- Binary32 multiplication. -/
def fmul (a b : Val) : Val := toF32 (resOf (mulExact a b))

/-- Fused multiply-add a × b + c, rounded once. -/
def ffma (a b c : Val) : Val := toF32 (exactSum [mulExact a b, c] 1)

/-- Negation. -/
def fneg : Val → Val
  | .nan => .nan
  | .inf n => .inf !n
  | .fin n m e => .fin (!n) m e

/-- Binary32 subtraction. -/
def fsub (a b : Val) : Val := fadd a (fneg b)

/-- Binary32 division. -/
def fdiv (a b : Val) : Val :=
  match a, b with
  | .nan, _ => .nan
  | _, .nan => .nan
  | .inf _, .inf _ => .nan
  | .inf n, .fin k _ _ => .inf (n != k)
  | .fin n _ _, .inf k => .fin (n != k) 0 0
  | .fin n m e, .fin k l d =>
    if l = 0 then (if m = 0 then .nan else .inf (n != k))
    else if m = 0 then .fin (n != k) 0 0
    else toF32 (.fin (n != k) (m * (pow2 (e - d)).1) (l * (pow2 (e - d)).2))

/-- ⌊√n⌋ bit by bit; `k` bits of result. -/
def isqrt (n : Nat) : Nat → Nat → Nat
  | 0, r => r
  | k + 1, r => isqrt n k (if (r + 2 ^ k) * (r + 2 ^ k) ≤ n then r + 2 ^ k else r)

/-- Binary32 square root. The root is taken of a 64-bit significand; an inexact root gets a last bit, which no rounding to
24 bits can mistake. -/
def fsqrt : Val → Val
  | .nan => .nan
  | .inf n => if n then .nan else .inf false
  | .fin n m e =>
    if m = 0 then .fin n 0 0
    else if n then .nan
    else
      let up := 62 - Nat.log2 m
      let up := if (e - up) % 2 = 0 then up else up + 1
      let x := m * 2 ^ up
      let r := isqrt x 33 0
      let m2 := 2 * r + b2n (r * r != x)
      toF32 (resOf (.fin false m2 ((e - up) / 2 - 1)))

/-- A value is finite. -/
def Val.finite : Val → Bool
  | .fin _ _ _ => true
  | _ => false

/-- A value is zero. -/
def Val.isZero : Val → Bool
  | .fin _ 0 _ => true
  | _ => false

/-- 1. -/
def f32One : Val := .fin false 1 0

/-- a < b for finite values. -/
def ltFin (a b : Val) : Bool := decide ((sumFin [a, fneg b]).1 < 0)

/-! ### Reductions (R333–R337) -/

/-- a comes before b in MAX order, +0 above −0 (R337). -/
def belowVal (a b : Val) : Bool :=
  match a, b with
  | .inf true, .inf true => false
  | .inf true, _ => true
  | _, .inf true => false
  | .inf false, _ => false
  | _, .inf false => true
  | a, b =>
    if a.isZero && b.isZero then a.neg && !b.neg else ltFin a b

/-- MAX or MIN of contributions (R337). -/
def extremum (mx : Bool) : List Val → Val
  | [] => .zero
  | a :: t => t.foldl (fun x y => if x.isNan || y.isNan then .nan else if belowVal x y == mx then y else x) a

/-- The ordered FP32 sum of contributions in the order given (R333). -/
def orderedSum : List Val → Val
  | [] => .zero
  | a :: t => t.foldl (fun x y => fadd x (toF32 (resOf y))) (toF32 (resOf a))

/-- A value divided by a count, exact. -/
def divCount (v : Val) (count : Nat) : Res :=
  match resOf v with
  | .fin n a b => .fin n a (b * count)
  | r => r

/-- A bitwise op on patterns: 4 AND, 5 OR, 6 XOR (R337). -/
def bitOp (op : Nat) (l : List Nat) : Nat :=
  match l with
  | [] => 0
  | a :: t => t.foldl (fun x y => if op = 4 then x &&& y else if op = 5 then x ||| y else x ^^^ y) a

/-- The bitwise result of contributions in a block-scaled integer format: the op acts on the encodings, elements and scale
bytes alike, and nothing is rounded (R337). Those past a contribution's own elements are 0 (R321); DESIGN CHOICE (log 43): the scale bytes too. -/
def bitChunk (f : Fmt) (op : Nat) (l : List (Nat × Nat)) : Made :=
  let pats := (List.range (perChunk f)).map (fun k => bitOp op (l.map (fun p => if k < p.2 then chunkPat f p.1 k else 0)))
  let scales := (List.range (perChunk f / 32)).map (fun i =>
    bitOp op (l.map (fun p => if 32 * i < p.2 then (p.1 >>> (8 * (scaleBase f + i))) % 256 else 0)))
  { bytes := bytesLE 4096 (packPats f.width pats + packPats 8 scales * 2 ^ (8 * scaleBase f)) }

/-- One contribution to a position: its chunk as a number and its count of elements. -/
abbrev Part := Nat × Nat

/-- The result of element `k` over contributions in rank order: 0 SUM, 1 MEAN, 2 MAX, 3 MIN, 4 AND, 5 OR, 6 XOR. An element
past a contribution's own elements is +0 (R321). -/
def reduceElem (f : Fmt) (op : Nat) (ordered : Bool) (count : Nat) (l : List Part) (k : Nat) : Res :=
  let vs := l.map (fun p => if k < p.2 then chunkElem f p.1 k else Val.zero)
  match op with
  | 0 => if ordered then resOf (orderedSum vs) else exactSum vs 1
  | 1 => if ordered then divCount (orderedSum vs) count else exactSum vs count
  | 2 => resOf (extremum true vs)
  | 3 => resOf (extremum false vs)
  | _ => resOf (elemVal f (bitOp op (l.map (fun p => if k < p.2 then chunkPat f p.1 k else 0))))

end Sys2Proof.Machine
end

