-- ==== Sys2Proof/Machine/Multicast.lean ====
section
/-! DEFINITION. Multicast: copies, the hold store, branch losses and NOTICE cells (Line and Lace Multicast). -/
namespace Sys2Proof.Machine

/-- PRTn_PEER.ID of a port; 0x1FFF for none. -/
def peerId (s : State) (n : Nat) : Nat := if 4 ≤ n ∧ n ≤ 30 then rfld s (R.prtPeer n) 12 0 else 0x1FFF

/-- TBL_LACE_HOLD. -/
def laceHold (s : State) : Nat := rfld s R.tblLaceHold 15 0

/-- Reasons of a branch loss (Table 6.3). -/
def rHoldExpired : Nat := 1
def rPortUnusable : Nat := 2
def rHoldFull : Nat := 3
def rNoLace : Nat := 4

/-- The lace ID of a lace cell; 0 for the other kinds. -/
def laceOf (c : Cell) : Nat := if wDefl c = 0 then wDest c % 1024 else 0

/-- The NOTICE payload (Table 6.3). -/
def noticePayload (s : State) (prt reason : Nat) (inj : Bool) (c : Cell) : List Byte :=
  pad64 (bytesBE 1 (wDefl c) ++ bytesBE 1 reason ++ bytesBE 2 (laceOf c) ++ bytesBE 1 prt ++ bytesBE 1 (b2n inj)
    ++ bytesBE 2 (peerId s prt) ++ bytesBE 8 (mtcN s) ++ bytesBE 1 (incarnation s))

/-- Send the NOTICE of a transit branch loss unless its key is in the suppression list (R213, R214). -/
def noticeSend (prt reason : Nat) (inj : Bool) (c : Cell) (s : State) : State :=
  if s.notices.any (fun k => k.src == wSrc c && k.stream == wStream c && k.seq == wSeq c && k.port == prt) then
    cnt R.tblMcNoticeSuppressedCount s
  else
    let key : NoticeKey := { src := wSrc c, stream := wStream c, seq := wSeq c, port := prt, added := now s }
    let l := s.notices ++ [key]
    let s := { s with notices := if 32 < l.length then l.drop 1 else l }
    injectOwn (mkCell (wSrc c) (ownId s) 2 0xB (wStream c) (wSeq c) (wIndex c) (noticePayload s prt reason inj c)) s

/-- What a branch loss does at a transit point and at the source alike (R212); its record names stream `st` and partition `n`. -/
def branchLoss (st n prt reason : Nat) (inj : Bool) (c : Cell) (s : State) : State :=
  let s := evI R.tblMcEvents 0 5 inj (cnt R.tblMcDropCount s)
  let s := if reason = rHoldFull then ev R.tblMcEvents 1 s else s
  let s := ev R.tblBranchLossMap prt s
  let s := if 4 ≤ prt ∧ prt ≤ 30 then telDisc prt 1 inj s else s
  raise { i := 13, inj := inj, port := prt, stream := st, part := n, engine := wSrc c, code := reason, addr := laceOf c } s

/-- A branch loss at a transit point (R212). -/
def transitLoss (prt reason : Nat) (inj : Bool) (c : Cell) (s : State) : State :=
  noticeSend prt reason inj c (branchLoss (wStream c) 0xFF prt reason inj c s)

/-- The loss record of a sending stream (R217). -/
def lossRecord (k engine prt peer : Nat) (s : State) : State :=
  let s := wbitAt (R.strBranchLossMap k) prt true s
  let s := cnt (R.strBranchLossCount k) s
  if rbit s (R.strBranchLossFirst k) 31 then s
  else wrN (R.strBranchLossFirst k) (2 ^ 31 + peer % 8192 * 2 ^ 18 + prt % 32 * 2 ^ 13 + engine % 8192) s

/-- A branch loss at the source (R212, R217). -/
def sourceLoss (k prt reason : Nat) (inj : Bool) (c : Cell) (s : State) : State :=
  markInj k inj (lossRecord k (ownId s) prt (peerId s prt) (branchLoss k ((ownerOf s k).getD 0xFF) prt reason inj c s))

/-- A loss of a copy waiting or held: at the source it belongs to a stream, at a transit point to none. -/
def copyLoss (src : Option Nat) (prt reason : Nat) (inj : Bool) (c : Cell) (s : State) : State :=
  match src with
  | some k => sourceLoss k prt reason inj c s
  | none => transitLoss prt reason inj c s

/-- The first attempt of a source copy of stream `k` (R195, R196, R211); answers whether it must wait. Injection point 13 drops
it as expired. -/
def mcFirst (k : Nat) (c : Cell) (prt : Nat) (s : State) : State × Bool :=
  if !usable s false prt then (copyLoss (some k) prt rPortUnusable false c s, false)
  else
    let f := awlFire 13 (some prt) none none s
    if f.2 then (copyLoss (some k) prt rHoldExpired true c f.1, false)
    else if 0 < queueFree f.1 prt .vc0s then (enqueue prt .vc0s c f.1, false)
    else (f.1, true)

/-- A source copy of stream `k`: its first attempt; it waits where its queue is full (R211). -/
def mcSource (k : Nat) (c : Cell) (prt : Nat) (s : State) : State :=
  let q := mcFirst k c prt s
  if q.2 then addWaiting { stream := k, cell := c, port := prt, cls := .vc0s, mc := true, since := now s } q.1 else q.1

/-- A transit copy (R195, R196, R205, R208). Injection point 13 drops it as expired. -/
def mcTransit (c : Cell) (prt : Nat) (s : State) : State :=
  if !usable s true prt then copyLoss none prt rPortUnusable false c s
  else
    let f := awlFire 13 (some prt) none none s
    let s := f.1
    if f.2 then copyLoss none prt rHoldExpired true c s
    else if 0 < queueFree s prt .vc0s then enqueue prt .vc0s c s
    else if s.hold.length < 128 then { s with hold := s.hold ++ [{ port := prt, cell := c, since := now s }] }
    else transitLoss prt rHoldFull false c s

/-- The lace entry of lace `l` in version `v` as a cell meets it: its MASK and DELIVER; `none` where VALID is 0. -/
def laceLookup (v l arr : Nat) (s : State) : State × Option (Nat × Bool) :=
  let a := tblLookup (R.laceTbl v l 0) arr s
  match a.2 with
  | none => (a.1, none)
  | some m =>
    let b := tblLookup (R.laceTbl v l 1) arr a.1
    match b.2 with
    | none => (b.1, none)
    | some w => (b.1, if wbit w 31 then some (m.toNat, wbit w 0) else none)

/-- The ports a lace MASK names. -/
def maskPorts (m : Nat) : List Nat := (range 4 18 ++ range 21 30).filter (fun p => m.testBit p)

/-- The ports a multicast cell of stream `k` is to leave by from its source; a cell with none is lost (R199, R201, R206). -/
def mcPorts (k : Nat) (c : Cell) (s : State) : State × List Nat :=
  if wDefl c = 1 then (s, (range 4 18).filter (fun p => rbit s R.tblRowMask (p - 4)))
  else if wDefl c = 2 then
    let r := wStream c % 8
    match firstUsable s false (fun _ => false) ((range 0 7).map (fun i => 21 + (r + i) % 8)) with
    | some p => (s, [p])
    | none => (sourceLoss k (21 + r) rPortUnusable false c s, [])
  else
    let r := laceLookup s.ep.inj (laceOf c) 31 s
    match r.2 with
    | none => (sourceLoss k 31 rNoLace false c (noRoute 0xFF c r.1), [])
    | some (m, _) => (r.1, maskPorts m)

/-- The copies of a cell of stream `k` that wait: `done` are the ports on which its others have been admitted or lost. -/
def mcServed (k : Nat) (c : Cell) (done : List Nat) (s : State) : State :=
  { s with waiting := s.waiting.map (fun w =>
      if w.stream = k ∧ w.mc = true ∧ w.port ≠ 31 ∧ sameCell w.cell c = true then { w with done := w.done ++ done } else w) }

/-- A multicast cell stream `k` has come to: it is looked up, and every copy of it has its first attempt (R195, R199, R201,
R206, R211). -/
def mcExpand (k : Nat) (c : Cell) (s : State) : State :=
  let r := mcPorts k c s
  let s := forEach r.2 (mcSource k c) r.1
  mcServed k c (r.2.filter (fun p => !s.waiting.any (fun w => w.stream == k && w.mc && w.port == p && sameCell w.cell c))) s

/-- Inject a multicast cell of stream `k`: it waits behind the stream's earlier cells, not looked up (R168, R211). -/
def injectMulticast (k : Nat) (c : Cell) (s : State) : State :=
  let c := setWelt 37 37 s.ep.inj c
  if firstOf s k then mcExpand k c s else (behind k 0 31 true c s).1

/-- Offer a waiting source copy: its first attempt, or another. -/
def admitCopy (w : Waiting) (s : State) : State :=
  if w.fresh then
    let q := mcFirst w.stream w.cell w.port s
    if q.2 then { q.1 with waiting := q.1.waiting.map (fun v => if v = w then { w with fresh := false, since := now s } else v) }
    else mcServed w.stream w.cell [w.port] (dropWaiting w q.1)
  else if usable s false w.port && decide (0 < queueFree s w.port .vc0s) then
    mcServed w.stream w.cell [w.port] (enqueue w.port .vc0s w.cell (dropWaiting w s))
  else s

/-- Offer what stream `k` waits with: its first waiting cell, or every copy of it (R168, R211). -/
def admitNext (k : Nat) (s : State) : State :=
  match firstWaiting s k with
  | none => s
  | some w =>
    if w.mc then
      (if w.port = 31 then
        let t := mcExpand k w.cell { s with waiting := [] }
        { t with waiting := t.waiting ++ s.waiting.erase w }
      else forEach (s.waiting.filter (fun v => v.stream == k && v.mc && v.port != 31 && sameCell v.cell w.cell)) admitCopy s)
    else injectionAdmit k s

/-- HOP_LIMIT of a multicast cell's copies at the receiving port (R102). -/
def mcHopLimit (n : Nat) (c : Cell) (s : State) : State :=
  raise { i := 19, port := n, engine := wDest c, code := 9 } (cellDrop n (R.prtHopLimitCount n) 4 false s)

/-- The copies of a lace cell at a transit point (R102, R195, R205). -/
def laceCopies (n : Nat) (c : Cell) (m : Nat) (s : State) : State :=
  forEach ((maskPorts m).filter (· != n)) (fun p s =>
    if wHops c = 7 then mcHopLimit n c s else mcTransit (setWelt 3 1 (wHops c + 1) c) p s) s

/-- A row or column cell failing its arrival test (R200, R202). -/
def kindBad (n : Nat) (c : Cell) (s : State) : State :=
  raise { i := 19, port := n, engine := wDest c, code := 22 } (ev R.tblMcEvents 2 (cnt R.tblMcKindBadCount s))

/-- Offer every held copy again, oldest first (R209). A copy whose port is unusable is lost. -/
def offerHeld (s : State) : State :=
  forEach s.hold (fun h s =>
    if !usable s true h.port then transitLoss h.port rPortUnusable false h.cell { s with hold := s.hold.erase h }
    else if h.since < now s ∧ 0 < queueFree s h.port .vc0s then enqueue h.port .vc0s h.cell { s with hold := s.hold.erase h }
    else s) s

/-- Drop the copies, held or waiting at the source, that were not admitted within LACE_HOLD ticks (R209, R211). -/
def expireHeld (s : State) : State :=
  let s := forEach (s.hold.filter (fun h => decide (h.since + laceHold s ≤ now s))) (fun h s =>
    transitLoss h.port rHoldExpired false h.cell { s with hold := s.hold.erase h }) s
  forEach (s.waiting.filter (fun w => w.mc && !w.fresh && decide (w.since + laceHold s ≤ now s))) (fun w s =>
    sourceLoss w.stream w.port rHoldExpired false w.cell (mcServed w.stream w.cell [w.port] (dropWaiting w s))) s

/-- Copies held for a port that has become unusable (R209). -/
def dropHeldFor (n : Nat) (s : State) : State :=
  forEach (s.hold.filter (fun h => h.port == n)) (fun h s =>
    transitLoss n rPortUnusable false h.cell { s with hold := s.hold.erase h }) s

/-- The stream with a multicast leg a NOTICE names, which carries the NOTICE's STREAM and awaits the receipt of that chunk
(R216, R280). -/
def noticeStream (s : State) (st seq kind lace : Nat) : Option Nat :=
  let hit (g : Leg) : Bool :=
    g.mc == kind + 1 && (kind != 0 || g.lace == lace) && g.str == st && g.out.any (fun o => o.seq == seq)
  (s.streams.find? (fun x => x.2.legs.any hit)).map (fun x => x.1)

/-- A NOTICE delivered at the source (R216, R217). -/
def noticeTake (c : Cell) (s : State) : State :=
  let kind := nbits (c.payload.getD 0 0).toNat 2 0
  let reason := (c.payload.getD 1 0).toNat
  let lace := fieldBE c.payload 2 2 % 1024
  let prt := nbits (c.payload.getD 4 0).toNat 4 0
  let inj := (c.payload.getD 5 0).toNat.testBit 0
  let peer := fieldBE c.payload 6 2 % 8192
  match (if 1 ≤ reason ∧ reason ≤ 4 then noticeStream s (wStream c) (wSeq c) kind lace else none) with
  | some k => markInj k inj (lossRecord k (wSrc c) prt peer s)
  | none => evI R.tblMcEvents 4 5 inj (cnt R.tblNoticeStaleCount s)

/-- A unicast cell a test picks, arriving on port `n` (31: from the engine itself), to be handled at this engine's own
endpoint: `f` is done with a cell that passes the receive checks and is addressed here; a transit cell goes on its way.
Another cell is not this command's: nothing changes. -/
def takeCell (n : Nat) (b : List Byte) (pick : Cell → Bool) (f : Cell → State → State) (s : State) : State :=
  let c := parseCell b
  if (rxOk s n b || n == 31) && pick c && !wMcast c then
    if n = 31 then
      let r := arriveLocal n b s
      match r.2 with
      | some c => f c r.1
      | none => r.1
    else
      let r := arrive n b s
      match r.2.1 with
      | .endpoint => f r.2.2 r.1
      | .transit => transit n r.2.2 r.1
      | _ => r.1
  else s

/-- `takeCell` for one TYPE. -/
def takeType (n : Nat) (b : List Byte) (ty : Nat) (f : Cell → State → State) (s : State) : State :=
  takeCell n b (fun c => wType c == ty) f s

/-! ### Commands -/

/-- HELD_COPY_OFFER (R209). -/
def execHeldCopyOffer (s : State) : Host.Outcome State Fault Refusal := run offerHeld s

/-- NOTICE (R216, R217): a cell arriving on port `n`. -/
def execNotice (n : Nat) (b : List Byte) (s : State) : Host.Outcome State Fault Refusal :=
  run (takeType n b 11 noticeTake) s

/-- NOTICE_KEY_EXPIRE (R214): keys added 16,384 ticks ago leave the list. -/
def execNoticeKeyExpire (s : State) : Host.Outcome State Fault Refusal :=
  run (fun s => { s with notices := s.notices.filter (fun k => decide (now s < k.added + 16384)) }) s

end Sys2Proof.Machine
end

