-- ==== Sys2Proof/Machine/StepOps.lean ====
section
/-! DEFINITION. Step records: their bytes, their tests at launch, the values a step takes at launch, its buffers, and when
it ends (Streams, Requests and Lasts, R277–R288; Combiners, R335, R346–R349). -/
namespace Sys2Proof.Machine

/-! ### Records and descriptors as bytes (Tables 8.3, 8.6) -/

/-- A step record from its 32 bytes. -/
def parseRec (b : List Byte) : Rec :=
  { opcode := fieldLE b 0 1, flags := fieldLE b 1 1, peer := fieldLE b 2 2, launch := fieldLE b 4 4
    deadline := fieldLE b 8 4, buf := fieldLE b 12 1, fmt := fieldLE b 13 1, opRing := fieldLE b 14 1
    peerStream := fieldLE b 15 1, inOff := fieldLE b 16 4, outOff := fieldLE b 20 4, length := fieldLE b 24 4
    dateline := fieldLE b 28 2, aux := fieldLE b 30 2 }

/-- A request descriptor from its 64 bytes. -/
def parseReq (b : List Byte) : Req :=
  { tag := fieldLE b 0 2, flags := fieldLE b 2 1, overrides := fieldLE b 3 1, last := fieldLE b 4 4, step := fieldLE b 8 4
    stream := fieldLE b 12 1, baseTime := fieldLE b 16 8
    buf := [fieldLE b 24 6, fieldLE b 30 6, fieldLE b 36 6, fieldLE b 42 6], sigAddr := fieldLE b 48 6
    seed := fieldLE b 56 8 }

def Rec.kind (r : Rec) : Nat := nbits r.flags 6 4
def Rec.overlap (r : Rec) : Bool := r.flags.testBit 0
def Rec.pstream (r : Rec) : Bool := r.flags.testBit 1
def Rec.ordered (r : Rec) : Bool := r.flags.testBit 2
def Rec.inSel (r : Rec) : Nat := nbits r.buf 1 0
def Rec.outSel (r : Rec) : Nat := nbits r.buf 3 2
def Rec.inFmt (r : Rec) : Nat := nbits r.fmt 3 0
def Rec.outFmt (r : Rec) : Nat := nbits r.fmt 7 4
def Rec.redOp (r : Rec) : Nat := nbits r.opRing 2 0
def Rec.ring (r : Rec) : Nat := nbits r.opRing 4 3

/-- Format descriptor `i`, and whether it is valid. -/
def fmtWord (s : State) (i : Nat) : Word := rd s (R.cmbFmt i)
def fmtAt (s : State) (i : Nat) : Fmt := fmtOf (fmtWord s i)
def fmtValid (s : State) (i : Nat) : Bool := wbit (fmtWord s i) 31

/-! ### Fields an opcode uses (Table 8.8, Table 11.2) -/

/-- A data step: it names LENGTH chunks. -/
def isData (op : Nat) : Bool := decide ((1 ≤ op ∧ op ≤ 7) ∨ op = 13)

/-- The fields besides the times that Table 8.8 lists for an opcode. -/
structure Uses where
  peer : Bool := false
  pstream : Bool := false
  ordered : Bool := false
  bufIn : Bool := false
  bufOut : Bool := false
  fmtIn : Bool := false
  fmtOut : Bool := false
  redOp : Bool := false
  ring : Bool := false
  inOff : Bool := false
  outOff : Bool := false
  length : Bool := false
  dateline : Bool := false
  aux : Bool := false
  deadline : Bool := false
  deriving DecidableEq, Repr

/-- The fields opcode `op` with destination kind `kind` uses. -/
def usesOf (op kind : Nat) : Uses :=
  let peer := decide (kind = 0 ∨ kind = 1 ∨ kind = 4)
  match op with
  | 1 => { peer := peer, pstream := true, bufIn := true, fmtIn := true, inOff := true, length := true, ring := true
           dateline := true, aux := decide (1 ≤ kind ∧ kind ≤ 3), deadline := true }
  | 2 => { peer := peer, pstream := true, bufOut := true, fmtIn := true, outOff := true, length := true, deadline := true }
  | 3 => { peer := peer, pstream := true, bufIn := true, bufOut := true, fmtIn := true, fmtOut := true, redOp := true
           ordered := true, inOff := true, outOff := true, length := true, aux := decide (kind = 5), deadline := true }
  | 4 => { peer := peer, pstream := true, bufIn := true, fmtIn := true, fmtOut := true, redOp := true, ordered := true
           ring := true, inOff := true, length := true, dateline := true, aux := true, deadline := true }
  | 5 => { bufIn := true, bufOut := true, fmtIn := true, inOff := true, outOff := true, length := true }
  | 6 => { bufIn := true, bufOut := true, fmtIn := true, fmtOut := true, inOff := true, outOff := true, length := true }
  | 7 => { bufIn := true, bufOut := true, fmtIn := true, fmtOut := true, inOff := true, outOff := true, length := true }
  | 8 => { aux := true, pstream := true }
  | 9 => { aux := true, pstream := true }
  | 13 => { peer := true, bufIn := true, bufOut := true, fmtIn := true, fmtOut := true, inOff := true, outOff := true
            length := true, aux := true }
  | 14 => if kind = 4 then { peer := true, bufIn := true, inOff := true, aux := true } else { aux := true }
  | 15 => { peer := true, aux := true, inOff := true }
  | _ => {}

/-- A field that is not used is zero. -/
def zeroUnless (used : Bool) (v : Nat) : Bool := used || v == 0

/-- Reductions and format pairs that are not reserved values (R335, R347). -/
def pairOk (s : State) (r : Rec) : Bool :=
  let fi := fmtAt s r.inFmt
  let fo := fmtAt s r.outFmt
  let vi := fmtValid s r.inFmt
  let vo := fmtValid s r.outFmt
  if r.opcode = 3 ∨ r.opcode = 4 then
    let ei := perChunk fi
    let eo := perChunk fo
    (decide (r.redOp ≤ 3) || ((!vi || fi.isInt) && (!vo || fo.isInt) && r.inFmt == r.outFmt))
      && (!(vi && vo)
        || (if r.opcode = 4 then ei == eo else [1, 2, 4, 8].any (fun k => eo == k * ei || ei == k * eo)))
  else true

/-- Test 2 of Table 8.9: reserved bits, fields not used, reserved values. -/
def fieldsOk (s : State) (r : Rec) : Bool :=
  let u := usesOf r.opcode r.kind
  !r.flags.testBit 7 && decide (r.kind ≤ 5) && (nbits r.buf 7 4 == 0) && (nbits r.opRing 7 5 == 0)
    && (r.redOp != 7) && (r.ring != 3)
    && zeroUnless u.peer r.peer && zeroUnless u.pstream (b2n r.pstream + r.peerStream)
    && zeroUnless u.ordered (b2n r.ordered) && zeroUnless u.bufIn r.inSel && zeroUnless u.bufOut r.outSel
    && zeroUnless u.fmtIn r.inFmt && zeroUnless u.fmtOut r.outFmt && zeroUnless u.redOp r.redOp
    && zeroUnless u.ring r.ring && zeroUnless u.inOff r.inOff && zeroUnless u.outOff r.outOff
    && zeroUnless u.length r.length && zeroUnless u.dateline r.dateline && zeroUnless u.aux r.aux
    && (if r.opcode = 3 ∧ r.kind = 5 then decide (r.aux ≤ 4095) else true)
    && (if r.opcode = 8 ∨ r.opcode = 9 then decide (r.aux < 1024) else true)
    && (if r.opcode = 13 then decide (r.aux < 4) else true)
    && pairOk s r

/-- DEST_KIND is allowed for the opcode (test 3). -/
def kindOk (r : Rec) : Bool :=
  match r.opcode with
  | 1 => decide (r.kind ≤ 4)
  | 2 => decide (r.kind = 0 ∨ r.kind = 4 ∨ r.kind = 5)
  | 3 => decide (r.kind = 0 ∨ r.kind = 5)
  | 14 => decide (r.kind = 0 ∨ r.kind = 4)
  | _ => r.kind == 0

/-- The tests of Table 8.9, and those of R355 for SHARD_UPDATE: the status of the first failure. -/
def stepTest (s : State) (k : Nat) (r : Rec) : Option Nat :=
  let u := usesOf r.opcode r.kind
  let x := str s k
  let recv := decide (r.opcode = 2 ∨ r.opcode = 3 ∨ r.opcode = 4)
  if 15 < r.opcode then some 0x04
  else if !fieldsOk s r then some 0x04
  else if !kindOk r then some 0x04
  else if isData r.opcode && r.length == 0 then some 0x04
  else if r.ring ≠ 0 ∧ ¬ ((r.opcode = 1 ∨ r.opcode = 4) ∧ r.kind = 0) then some 0x04
  else if recv && decide (r.deadline ≤ r.launch) then some 0x04
  else if !u.deadline && r.deadline != 0 then some 0x04
  else if (u.fmtIn && !fmtValid s r.inFmt) || (u.fmtOut && !fmtValid s r.outFmt) then some 0x05
  else if r.opcode = 6 ∧ ¬ (fmtAt s r.outFmt).width < (fmtAt s r.inFmt).width then some 0x04
  else if r.opcode = 7 ∧ ¬ (fmtAt s r.inFmt).width < (fmtAt s r.outFmt).width then some 0x04
  else if r.opcode = 14 ∧ r.kind = 0 ∧ !x.req.flags.testBit 0 then some 0x04
  else if r.opcode = 14 ∧ r.kind = 4 ∧ r.inOff % 4 ≠ 0 then some 0x04
  else if r.opcode = 13 ∧ (r.inFmt ≠ 0 ∨ (x.bias * 1024) % perChunk (fmtAt s r.outFmt) ≠ 0
      ∨ (r.length * 1024) % perChunk (fmtAt s r.outFmt) ≠ 0) then some 0x04
  else none

/-! ### Buffers (R282, R305, R306, R346) -/

/-- The address of buffer `i` of a stream's request. -/
def bufOf (s : State) (k i : Nat) : Nat := (str s k).req.buf.getD i 0

/-- Input chunk number and address of leg position `j`. -/
def Run.inChunk (r : Run) (j : Nat) : Nat := r.rc.inOff + r.bias + j
def inAddr (s : State) (k : Nat) (r : Run) (j : Nat) : Nat := bufOf s k r.rc.inSel + r.inChunk j * 4096

/-- The address of output chunk `c` of the output buffer. -/
def outAddr (s : State) (k : Nat) (r : Run) (c : Nat) : Nat := bufOf s k r.rc.outSel + c * 4096

/-- Elements per chunk of a run's input and output formats. -/
def eIn (s : State) (r : Run) : Nat := perChunk (fmtAt s r.rc.inFmt)
def eOut (s : State) (r : Run) : Nat :=
  if r.op = 3 ∨ r.op = 4 ∨ r.op = 6 ∨ r.op = 7 ∨ r.op = 13 then perChunk (fmtAt s r.rc.outFmt) else eIn s r

/-- First output chunk (from OUT_OFFSET) that position `j` reaches, and the first past the last position (R346). -/
def firstOut (s : State) (r : Run) (j : Nat) : Nat := (r.bias + j) * eIn s r / eOut s r
def endOut (s : State) (r : Run) (j : Nat) : Nat := ((r.bias + j + 1) * eIn s r + eOut s r - 1) / eOut s r

/-- A span of bytes lies in the own slot (R222, R282). -/
def inOwnSlot (s : State) (a len : Nat) : Bool := decide (slotOf a = ownSlot s ∧ a < 2 ^ 48 ∧ offOf a + len ≤ 2 ^ 44)

/-- The buffers a data step uses lie in the own slot. -/
def buffersOk (s : State) (k : Nat) (r : Run) : Bool :=
  let inOk := inOwnSlot s (inAddr s k r 0) (r.rc.length * 4096)
  let o0 := firstOut s r 0
  let outOk := inOwnSlot s (outAddr s k r (r.rc.outOff + o0)) ((endOut s r (r.rc.length - 1) - o0) * 4096)
  match r.op with
  | 1 => inOk
  | 2 => if r.kind = 4 then inOwnSlot s (outAddr s k r (r.rc.outOff + r.bias)) (r.rc.length * 4096) else outOk
  | 3 => inOk && outOk
  | 4 => inOk
  | 5 => inOk && outOk
  | 6 => inOk && outOk
  | 7 => inOk && outOk
  | 14 => r.kind != 4 || inOwnSlot s (bufOf s k r.rc.inSel + r.rc.inOff) 4
  | _ => true

/-! ### The values a step takes at launch (R36, R207, R225, R263, R279, R281, R388, R578) -/

/-- A rank of a record, made absolute under RELATIVE (R279). -/
def absRank (s : State) (k v : Nat) : Nat :=
  let x := str s k
  let m := ranks s x.part
  if x.hflags.testBit 0 then (if m = 0 then v else (ownRank s x.part + v) % m) else v

/-- Resolve a named rank (R36): its engine ID, or none. -/
def resolve (n r : Nat) (s : State) : State × Option Nat :=
  if ranks s n ≤ r then (s, none)
  else
    let q := rankUse n r s
    (q.1, if q.2 = 0x1FFF then none else some q.2)

/-- Resolve a list of ranks; none where one of them is unmapped. -/
def resolveAll (n : Nat) : List Nat → State → State × Option (List (Nat × Nat))
  | [], s => (s, some [])
  | r :: t, s =>
    let q := resolve n r s
    match q.2 with
    | none => (q.1, none)
    | some e =>
      let u := resolveAll n t q.1
      (u.1, u.2.map (fun l => (r, e) :: l))

/-- The slot of an engine on the own board (R225). -/
def boardSlot (s : State) (e : Nat) : Option Nat :=
  if e = ownId s then some (ownSlot s)
  else ((range 0 14).find? (fun k => rfld s (R.prtPeer (4 + k)) 12 0 == e)).map (fun k => (ownSlot s + k + 1) % 16)

/-- The run of a record that has passed its tests, with the partition's settings in force, or the status of its fault. -/
def prepare (k : Nat) (r0 : Run) (s : State) : State × Except Nat Run :=
  let x := str s k
  let n := x.part
  let rc := r0.rc
  let pol := if x.req.flags.testBit 1 then nbits x.req.overrides 1 0 else rfld s (R.parLatePolicy n) 1 0
  let rnd := if x.req.flags.testBit 2 then nbits x.req.overrides 3 2 else rfld s (R.parRounding n) 1 0
  let r0 := { r0 with
    policy := pol, rounding := rnd, win := winsOf s n, self := ownRank s n, annealMax := annealMax s n
    dlRank := absRank s k rc.dateline
    map := (List.range (ranks s n)).map (fun i => rankOf s n i) }
  let finish (r : Run) (s : State) : State × Except Nat Run :=
    if isData r.op || r.op == 14 then (if buffersOk s k r then (s, .ok r) else (badAccess s, .error 0x11)) else (s, .ok r)
  let dateline (r : Run) (s : State) : State × Except Nat Run :=
    if (rc.opcode = 1 ∨ rc.opcode = 4) ∧ rc.kind = 0 ∧ rc.ring = 2 then
      let d := resolve n (absRank s k rc.dateline) s
      match d.2 with
      | none => (d.1, .error 0x02)
      | some _ => finish r d.1
    else finish r s
  if 1 ≤ rc.opcode ∧ rc.opcode ≤ 4 ∧ rc.kind = 0 then
    let p := absRank s k rc.peer
    let q := resolve n p s
    match q.2 with
    | none => (q.1, .error 0x02)
    | some e =>
      let r := { r0 with peerRank := p, peerId := e }
      if rc.opcode = 4 ∧ rc.aux ≠ 0xFFFF then
        let a := absRank s k rc.aux
        let w := resolve n a q.1
        match w.2 with
        | none => (w.1, .error 0x02)
        | some ae => dateline { r with auxRank := a, auxId := ae } w.1
      else dateline r q.1
  else if rc.opcode = 1 ∧ 1 ≤ rc.kind ∧ rc.kind ≤ 3 then
    let lr := rd s (R.parLaceRange n)
    let base := fld lr 9 0
    let count := fld lr 26 16
    if rc.kind = 1 ∧ ¬ (base ≤ rc.peer ∧ rc.peer < base + count) then (s, .error 0x0C)
    else
      let m := ranks s n
      let first := absRank s k rc.dateline
      if m ≤ first then (s, .error 0x02)
      else
        let l := ((List.range (min rc.aux m)).map (fun i => (first + i) % m)).filter (fun q => q != ownRank s n)
        let q := resolveAll n l s
        match q.2 with
        | none => (q.1, .error 0x02)
        | some ms => finish { r0 with members := ms } q.1
  else if rc.kind = 4 then
    let p := absRank s k rc.peer
    let q := resolve n p s
    match q.2 with
    | none => (q.1, .error 0x02)
    | some e =>
      match boardSlot q.1 e with
      | none => (q.1, .error 0x10)
      | some t => finish { r0 with peerRank := p, peerId := e, slot := t } q.1
  else finish r0 s

/-! ### Combiner slots and blocks (R291, R316) -/

/-- Blocks stream `k` can still take. -/
def blocksFree (s : State) (k : Nat) : Nat :=
  ((str s k).reserve - (str s k).inUse) + (match ownerOf s k with | some n => stageFree s n | none => 0)

/-- Slots an accumulating position holds: ⌈E × A / 327,680⌉ (R316). -/
def slotNeed (s : State) (r : Run) : Nat :=
  let f := fmtAt s r.rc.inFmt
  let a := if 2 ≤ r.rc.redOp then f.width else if r.rc.ordered then 32 else accClass f
  (perChunk f * a + 327679) / 327680

/-- Slots in use on combiner `c`. -/
def slotsUsed (s : State) (c : Nat) : Nat :=
  s.streams.foldl (fun t x =>
    x.2.runs.foldl (fun t r =>
      r.shards.foldl (fun t q => t + b2n (q.comb == c))
        (r.poss.foldl (fun t p => t + (if p.comb = some c then p.slots else 0)) t)) t) 0

/-- The combiner with the most free slots, the lowest-numbered on a tie, if it has `need` (R316). -/
def pickCombiner (s : State) (need : Nat) : Option Nat :=
  let best := [1, 2, 3].foldl (fun b c => if slotsUsed s c < slotsUsed s b then c else b) 0
  if slotsUsed s best + need ≤ 64 then some best else none

/-- Change position `j` of a run. -/
def modPos (k rid j : Nat) (f : Pos → Pos) (s : State) : State :=
  modRun k rid (fun r => { r with poss := r.poss.map (fun p => if p.j = j then f p else p) }) s

/-- Position `j` of a run. -/
def Run.pos (r : Run) (j : Nat) : Option Pos := r.poss.find? (fun p => p.j == j)

/-- A position whose output is out: its data, slots and accumulator block are given back (R291, R316). -/
def releasePos (k rid j : Nat) (s : State) : State :=
  match (runOf s k rid).bind (fun r => r.pos j) with
  | none => s
  | some p =>
    giveBlocks k (b2n p.blk + p.taken.countP (fun t => !t.added || t.carried))
      (modPos k rid j (fun p => { p with
        comb := none, slots := 0, blk := false, loc := none
        taken := p.taken.map (fun t => { t with data := [], added := true }) }) s)

/-! ### When a step ends (Table 8.8) -/

/-- A cell still waits at its source or in an output queue. -/
def cellWaits (s : State) (c : Cell) : Bool :=
  s.waiting.any (fun w => sameCell w.cell c)
    || s.ports.any (fun p => (p.2.qVc0s ++ p.2.qVc0r ++ p.2.qVc1r ++ p.2.qCirc).any (fun d => sameCell d c))

/-- Positions of a receiving step that are written or decided without output. -/
def Pos.closed (p : Pos) : Bool :=
  match p.outs with
  | some o => decide (o.length ≤ p.handed)
  | none => p.short && p.handed == 1

/-- End a step whose work is done and acknowledged (R283). -/
def settleRun (k rid : Nat) (s : State) : State :=
  match runOf s k rid with
  | none => s
  | some r =>
    let n := r.rc.length
    let quiet := !writesOut s k rid
    let done :=
      match r.op with
      | 1 => decide (n ≤ r.done) && (r.kind == 4 || (match r.lastSeal with | some c => !cellWaits s c | none => true))
      | 2 => (if r.kind = 4 then decide (n ≤ r.completed) else decide (n ≤ r.poss.countP Pos.closed)) && quiet
      | 3 => decide (n ≤ r.poss.countP Pos.closed) && quiet
      | 4 => decide (n ≤ r.done) && (match r.lastSeal with | some c => !cellWaits s c | none => true)
      | 5 => decide (n ≤ r.done) && quiet
      | 6 => decide (endOut s r (n - 1) - firstOut s r 0 ≤ r.acked.length) && quiet
      | 7 => decide (endOut s r (n - 1) - firstOut s r 0 ≤ r.acked.length) && quiet
      | 13 => decide (n ≤ r.acked.length)
      | 14 => decide (1 ≤ r.done) && quiet && (r.kind != 4 || decide (1 ≤ r.completed))
      | _ => false
    if done then endRun k rid s else s

/-- The actions of a run have begun: 2 ticks after its firing tick (R78). -/
def acting (s : State) (r : Run) : Bool := decide (r.fired + 2 ≤ now s) && !r.ended

/-! ### The gate of a SHARD_UPDATE (R372) -/

/-- The part of output chunk `c` that gradient chunk `j` of a SHARD_UPDATE writes is written and acknowledged (R372). -/
def copyWritten (s : State) (k : Nat) (r : Run) (c j : Nat) : Bool :=
  r.acked.contains j
    || (r.shards.any (fun q => q.j == j && q.written) && !s.txns.any (fun t => t.owner == .shard k r.rid j (some c)))

/-- Address `a` lies in a chunk of the working copy of an earlier SHARD_UPDATE that is not yet all written (R372). -/
def gated (s : State) (k rid a : Nat) : Bool :=
  (str s k).runs.any (fun r =>
    r.op == 13 && decide (r.rid < rid) && !r.ended
      && (range (firstOut s r 0) (endOut s r (r.rc.length - 1) - 1)).any (fun c =>
        outAddr s k r (r.rc.outOff + c) / 4096 == a / 4096
          && (List.range r.rc.length).any (fun j =>
            decide (firstOut s r j ≤ c ∧ c < endOut s r j) && !copyWritten s k r c j)))

/-- A read of chunk address `a` by run `rid` waits at the gate (R372); each tick of it is counted. -/
def gateWait (k rid a : Nat) (s : State) : State := markWait (.gate k rid a) s

end Sys2Proof.Machine
end

