-- ==== Sys2Proof/Machine/Memory.lean ====
section
/-! DEFINITION. Board memory: one-sided accesses at the initiator and at the target, atomics, package transactions, and
staging errors (Board Memory and One-Sided Access). -/
namespace Sys2Proof.Machine

/-! ### Cells of an access (R228–R231) -/

/-- The welt SEQ of a one-sided cell: TAIL and OPN (Table 7.2). -/
def osSeq (tail : Bool) (opn : Nat) : Nat := b2n tail * 512 + opn % 512
def osTail (c : Cell) : Bool := decide (512 ≤ wSeq c)
def osOpn (c : Cell) : Nat := wSeq c % 512

/-- TYPE of a request kind. -/
def reqType : AccKind → Nat
  | .put => 4
  | .get => 5
  | .atomic => 7

/-- A request tail payload (Table 7.3). -/
def reqTail (s : State) (t : Tag) (retry inj : Bool) (check : Nat) : List Byte :=
  pad64 (bytesBE 6 t.addr ++ bytesBE 2 (t.len % 8192) ++ bytesBE 1 (t.part % 16) ++ bytesBE 1 t.op
    ++ bytesBE 1 (b2n retry + 2 * b2n inj) ++ bytesBE 1 (incarnation s) ++ bytesBE 1 t.pseq ++ bytesBE 3 0
    ++ bytesBE 4 check ++ bytesBE 4 t.operand ++ bytesBE 4 t.compare)

/-- Send the cells of a request (R229). A PUT's DATA_CHECK meets injection point 1, which inverts its bit 0; a re-issue is
no opportunity (R558). -/
def sendRequest (t : Tag) (retry : Bool) (s : State) : State :=
  let f := if t.kind = .put ∧ !retry then awlFire 1 (some t.port) (some t.stream) none s else (s, false)
  let s := markInj t.stream f.2 f.1
  let check := if t.kind = .put then (if f.2 then crc32c t.data ^^^ 1 else crc32c t.data) else 0
  let cell (tail : Bool) (i : Nat) (b : List Byte) : Cell :=
    mkCell t.dest (ownId s) 0 (reqType t.kind) t.stream (osSeq tail t.opn) i b
  let s := if t.kind = .put then
      forEach (List.range (t.len / 64 + b2n (t.len % 64 != 0))) (fun i s =>
        (injectPort t.stream t.port (cell false i (slice t.data (64 * i) 64)) s).1) s
    else s
  (injectPort t.stream t.port (cell true 0 (reqTail s t retry f.2 check)) s).1

/-- Send a response tail on the port the request came by (R231). -/
def respond (n : Nat) (src stream opn status : Nat) (dup inj : Bool) (len check old pseq : Nat) (s : State) : State :=
  let b := pad64 (bytesBE 1 status ++ bytesBE 1 (b2n dup + 2 * b2n inj) ++ bytesBE 2 len ++ bytesBE 4 check
    ++ bytesBE 4 old ++ bytesBE 1 (incarnation s) ++ bytesBE 1 pseq)
  let s := if status = 5 then cnt R.memBusyCount s else s
  (injectPort 256 n (mkCell src (ownId s) 0 6 stream (osSeq true opn) 0 b) s).1

/-! ### Issue at the initiator (R222–R226, R234, R237–R240, R258) -/

/-- The first OPN from `o` upward that is not held; `k` bounds the search. -/
def freeOpn (s : State) (stream o : Nat) : Nat → Nat
  | 0 => o
  | k + 1 => if s.tags.any (fun t => t.stream == stream && t.opn == o) then freeOpn s stream ((o + 1) % 512) k else o

/-- The limits of R237 and R238 leave room for one more access. -/
def tagRoom (s : State) (stream slot : Nat) (kind : AccKind) : Bool :=
  decide (s.tags.length < 8192) && decide (s.tags.countP (fun t => t.stream == stream) < 512)
    && (kind == .get || (decide (s.tags.countP (fun t => t.stream == stream && t.slot == slot && t.kind != .get) < 64)
        && !(kind == .atomic && s.tags.any (fun t => t.stream == stream && t.slot == slot && t.kind == .atomic))))

/-- Take a tag, an OPN and a PSEQ for an access and send it. -/
def takeTag (t : Tag) (s : State) : State :=
  let x := str s t.stream
  let o := freeOpn s t.stream x.opn 512
  let ordered := t.kind != .get
  let ps := x.pseq.getD t.slot 0
  let t := { t with opn := o, pseq := if ordered then ps else 0, limit := now s + 8 * retxWait s }
  let s := modStr t.stream (fun x => { x with
    opn := (o + 1) % 512
    pseq := if ordered then x.pseq.set t.slot ((ps + 1) % 256) else x.pseq }) s
  sendRequest t false { s with tags := s.tags ++ [t] }

/-- An ATOMIC on a staging word: the word after and before (R251). -/
def atomicResult (op old operand compare : Nat) : Nat :=
  match op with
  | 1 => (old + operand) % 2 ^ 32
  | 2 => operand
  | _ => if old = compare then operand else old

/-- Perform an ATOMIC at staging offset `o` for port `p` and stream `st`; the previous word, or none where it is uncorrectable (R251, R254). -/
def atomicDo (p st : Nat) (x : Option Nat) (n o op operand compare : Nat) (s : State) : State × Option Nat :=
  let r := storeReadAt p st x n o 4 s
  match r.2 with
  | none => (r.1, none)
  | some b => (storeWrite o (bytesLE 4 (atomicResult op (natLE b) operand compare)) r.1, some (natLE b))

/-- Write bytes whose tests were made before: to the store at once, to the accelerator as a transaction. -/
def rawWrite (a : Nat) (b : List Byte) (o : Owner) (s : State) : State :=
  match placeOf s (offOf a) b.length with
  | .store off => storeWrite off b s
  | _ => pkgIssue a b o s

/-- One more access of a step has completed. -/
def accessDone (k rid : Nat) (s : State) : State :=
  settleRun k rid (modRun k rid (fun r => { r with completed := r.completed + 1 }) s)

/-- PEER_LOST is counted (R259). -/
def peerLostCount (s : State) : State := ev R.memEvents 2 (cnt R.memPeerLostCount s)

/-- The address with its slot replaced (R282). -/
def withSlot (a slot : Nat) : Nat := a % 2 ^ 44 + slot % 16 * 2 ^ 44

/-- The capture item of a chunk a BOARD-kind SEND has read, or a BOARD-kind RECV has received (R536). -/
def boardIn (k : Nat) (r : Run) (b : List Byte) (s : State) : State :=
  if r.op = 1 then
    let i := r.inChunk r.done
    capItem r.cap 4 0 i (crc32c b) (countOf s k r.rc.inSel i) b s
  else s
def boardOut (k : Nat) (r : Run) (loc : Nat) (b : List Byte) (s : State) : State :=
  if r.op = 2 then
    let i := (loc - bufOf s k r.rc.outSel) / 4096
    capItem r.cap 5 1 i (crc32c b) (countOf s k r.rc.outSel i) [] s
  else s

/-- Issue the next access of a BOARD-kind step of stream `k` (R224, R237). `data` is what the accelerator returns for a
local read. The access waits where a limit leaves no room; each tick of it is counted. -/
def accessNext (k rid : Nat) (data : List Byte) (s : State) : State :=
  match runOf s k rid with
  | none => s
  | some r =>
    let n := (str s k).part
    let sig := r.op == 14
    if acting s r && !isolated s k && r.kind == 4 && (r.op == 1 || r.op == 2 || sig) && decide (r.done < (if sig then 1 else r.rc.length)) then
      let loc := if sig then bufOf s k r.rc.inSel + r.rc.inOff
        else if r.op = 1 then inAddr s k r r.done else outAddr s k r (r.rc.outOff + r.bias + r.done)
      let len := if sig then 4 else 4096
      let kind : AccKind := if sig then .atomic else if r.op = 1 then .put else .get
      let a := withSlot loc r.slot
      let step (s : State) : State := settleRun k rid (modRun k rid (fun r => { r with done := r.done + 1 }) s)
      if (r.op = 1 ∨ r.op = 2 ∧ r.slot = ownSlot s) ∧ gated s k rid loc = true then gateWait k rid loc s
      else if !sig && (r.op == 1 || r.slot == ownSlot s) && readHeld s (some k) loc len then s
      else if badShape sig a len || slotOf loc != ownSlot s then faultMem k r.idx 0x11 loc (badAccess s)
      else if r.slot = ownSlot s then
        (if sig then
          match placeOf s (offOf a) 4 with
          | .store off =>
            let w := windowCheck (some k) r.win n a 4 .atomic false 0x1FFF 0 s
            if !w.2 then faultMem k r.idx 0x12 a w.1
            else
              let q := atomicDo 0xFF k (some k) n off 1 r.rc.aux 0 w.1
              (match q.2 with
              | none => faultMem k r.idx 0x13 a q.1
              | some _ => accessDone k rid (step q.1))
          | _ => faultMem k r.idx 0x11 a (badAccess s)
        else
          let q := localRead (some k) r.win n loc len data s
          match q.2 with
          | .error e => faultMem k r.idx e loc q.1
          | .ok b =>
            let w := localWrite (some k) r.win n a b (.step k rid r.idx) (boardOut k r loc b (boardIn k r b q.1))
            match w.2 with
            | .err e => faultMem k r.idx e a w.1
            | _ => accessDone k rid (step w.1))
      else
        let p := 4 + (r.slot + 15 - ownSlot s) % 16
        let l := if sig then (s, none) else localTest (some k) r.win n loc len (if r.op = 1 then .read else .write) s
        match l.2 with
        | some e => faultMem k r.idx e loc l.1
        | none =>
          let w := windowCheck (some k) r.win n a len (if sig then .atomic else if r.op = 1 then .write else .read) false r.peerId 0 l.1
          if !w.2 then faultMem k r.idx 0x12 a w.1
          else if !usable w.1 false p then faultMem k r.idx 0x16 a (peerLostCount w.1)
          else if !tagRoom w.1 k r.slot kind then markWait (.tag k rid r.done r.slot kind) w.1
          else
            let t : Tag :=
              { stream := k, opn := 0, kind := kind, step := r.idx, rid := rid, slot := r.slot, port := p
                dest := peerId w.1 p, addr := a, len := len, loc := loc, part := n, op := if sig then 1 else 0
                operand := if sig then r.rc.aux else 0 }
            if r.op = 1 then
              (match placeOf w.1 (offOf loc) len with
              | .store off =>
                let q := storeRead (some k) n off len w.1
                (match q.2 with
                | none => faultMem k r.idx 0x13 loc q.1
                | some b => step (takeTag { t with data := b } (boardIn k r b q.1)))
              | _ =>
                if !pkgUp w.1 then faultMem k r.idx 0x14 loc w.1
                else
                  let q := pkgRead loc len data w.1
                  match q.2 with
                  | some b => step (takeTag { t with data := b } (boardIn k r b q.1))
                  | none => faultMem k r.idx 0x13 loc q.1)
            else step (takeTag t w.1)
    else s

/-! ### Completion at the initiator (Table 7.6, R239–R241, R259, R260) -/

/-- Drop a tag. -/
def dropTag (t : Tag) (s : State) : State :=
  { s with tags := s.tags.filter (fun u => !(u.stream == t.stream && u.opn == t.opn)) }

/-- The tag an answer names. -/
def tagOf (s : State) (stream opn : Nat) : Option Tag := s.tags.find? (fun t => t.stream == stream && t.opn == opn)

/-- Replace a tag. -/
def putTag (t : Tag) (s : State) : State :=
  { s with tags := s.tags.map (fun u => if u.stream = t.stream ∧ u.opn = t.opn then t else u) }

/-- An access completes; status 0 is DONE, others are stream statuses of Table 8.10. A data copy faults no stream (R539). -/
def tagComplete (t : Tag) (status : Nat) (s : State) : State :=
  let s := dropTag t s
  match t.copy with
  | some c => if status = 0 then capCopied c.1 c.2 s else capLost c.1 s
  | none => if status = 0 then accessDone t.stream t.rid s else faultMem t.stream t.step status t.addr s

/-- A counted re-issue, or MEM_TIMEOUT after the third (R239, R240). -/
def retryTag (t : Tag) (s : State) : State :=
  if 3 ≤ t.retries then tagComplete t 0x15 s
  else
    let t := { t with retries := t.retries + 1, due := none, busyAt := none, rx := [] }
    sendRequest t true (cnt R.memRetryCount (putTag t s))

/-- A re-issue that is no retry (R239). -/
def reissueTag (t : Tag) (s : State) : State :=
  let t := { t with due := none, busyAt := none, rx := [] }
  sendRequest t true (putTag t s)

/-- A stale response (R260). -/
def staleRsp (s : State) : State := ev R.memEvents 3 (cnt R.memStaleRspCount s)

/-- A GET has completed: its destination in the staging store holds what was read. In accelerator memory the data cells have
written it. -/
def getFill (t : Tag) (b : List Byte) (s : State) : State :=
  match placeOf s (offOf t.loc) t.len with
  | .store off => storeWrite off b s
  | _ => s

/-- What the destination of a GET in the staging store holds from its first data cell until the access completes is undefined:
free values (R241, log entry 6). -/
def getBlur (t : Tag) (s : State) : State :=
  match placeOf s (offOf t.loc) t.len with
  | .store off => let f := freeBytes t.len s; stgWrite off f.1 f.2
  | _ => s

/-- A response tail arriving on port `n` (R239, R260). -/
def rspTail (n : Nat) (c : Cell) (s : State) : State :=
  match tagOf s (wStream c) (osOpn c) with
  | none => staleRsp s
  | some t =>
    let b := c.payload
    let status := fieldBE b 0 1
    let inj := (b.getD 1 0).toNat.testBit 1
    let check := fieldBE b 4 4
    if n ≠ t.port ∨ wSrc c ≠ t.dest ∨ fieldBE b 12 1 % 16 ≠ rfld s (R.prtPeer n) 16 13 ∨ 7 ≤ status then staleRsp s
    else
      let s := markInj t.stream inj s
      match status with
      | 0 =>
        if t.kind = .get then
          let got := (List.range (t.len / 64)).map (fun i => tget [] i t.rx)
          if crc32c got.flatten = check ∧ got.all (fun x => x.length == 64) then
            let s := getFill t got.flatten s
            tagComplete t 0 (match runOf s t.stream t.rid with | some r => boardOut t.stream r t.loc got.flatten s | none => s)
          else retryTag t (raise { i := 1, inj := inj, port := n, stream := t.stream, part := t.part, engine := t.dest, code := t.opn } s)
        else tagComplete t 0 s
      | 1 => tagComplete t 0x12 s
      | 2 => retryTag t s
      | 3 => tagComplete t 0x11 (badAccess s)
      | 4 => tagComplete t 0x13 s
      | 5 => putTag { t with busyAt := some (now s) } s
      | _ => tagComplete t 0x14 s

/-- A GET data cell arriving on port `n` is written to the local destination, whose bytes are undefined until the access
completes (R241). -/
def rspData (n : Nat) (c : Cell) (s : State) : State :=
  match tagOf s (wStream c) (osOpn c) with
  | none => staleRsp s
  | some t =>
    if n ≠ t.port ∨ wSrc c ≠ t.dest ∨ t.kind ≠ .get ∨ t.len ≤ 64 * wIndex c then staleRsp s
    else if placeOf s (offOf t.loc) t.len = .accel ∧ pkgUp s = false then tagComplete t 0x14 s
    else
      getBlur t (rawWrite (t.loc + 64 * wIndex c) c.payload (.step t.stream t.rid t.step)
        (putTag { t with rx := tset (wIndex c) c.payload t.rx } s))

/-- Insert a tag by step index, lowest first. -/
def insertTag (t : Tag) : List Tag → List Tag
  | [] => [t]
  | u :: l => if t.step < u.step then t :: u :: l else u :: insertTag t l

/-- Every outstanding access toward a lost neighbour completes with PEER_LOST and is counted (R259): those of the lowest step
first, whose fault is the one recorded (R294). -/
def losePeer (n : Nat) (s : State) : State :=
  let l := s.tags.filter (fun t => t.port == n)
  forEach (l.foldl (fun l t => insertTag t l) []) (fun t s =>
    if s.tags.any (fun u => u.stream == t.stream && u.opn == t.opn) then tagComplete t 0x16 s else s)
    (forEach l (fun _ s => peerLostCount s) s)

/-! ### The target (R242–R247, R251) -/

/-- The slot of a source port, STREAM and OPN. -/
def slotAt (s : State) (n stream opn : Nat) : Option Slot :=
  s.slots.find? (fun x => x.port == n && x.stream == stream && x.opn == opn)

/-- Replace, or drop, a slot. -/
def putSlot (x : Slot) (s : State) : State :=
  { s with slots := s.slots.map (fun y => if y.port = x.port ∧ y.stream = x.stream ∧ y.opn = x.opn then x else y) }
def dropSlot (n stream opn : Nat) (s : State) : State :=
  { s with slots := s.slots.filter (fun y => !(y.port == n && y.stream == stream && y.opn == opn)) }

/-- The order record of a source port and STREAM. -/
def orderOf (s : State) (n stream : Nat) : Order := tget {} (n * 256 + stream) s.orders
def modOrder (n stream : Nat) (f : Order → Order) (s : State) : State :=
  { s with orders := tset (n * 256 + stream) (f (orderOf s n stream)) s.orders }

/-- Tests 1 and 2 of Table 7.7. -/
def targetFrom (s : State) (n : Nat) (c : Cell) : Bool :=
  decide (4 ≤ n ∧ n ≤ 20) && (rfld s (R.prtPeer n) 12 0 == wSrc c)

/-- A refused request cell. -/
def reqRefused (s : State) : State := cnt R.memReqRefusedCount s

/-- Fields of a request tail. -/
def tAddr (b : List Byte) : Nat := fieldBE b 0 6
def tLen (b : List Byte) : Nat := fieldBE b 6 2 % 8192
def tPart (b : List Byte) : Nat := fieldBE b 8 1 % 16
def tOp (b : List Byte) : Nat := fieldBE b 9 1
def tInj (b : List Byte) : Bool := (b.getD 10 0).toNat.testBit 1
def tPseq (b : List Byte) : Nat := fieldBE b 12 1
def tCheck (b : List Byte) : Nat := fieldBE b 16 4
def tOperand (b : List Byte) : Nat := fieldBE b 20 4
def tCompare (b : List Byte) : Nat := fieldBE b 24 4

/-- Tests 3 and 4 of Table 7.7 on a tail: the response status of a failure. -/
def targetTest (n st ty : Nat) (src : Nat) (b : List Byte) (s : State) : State × Option Nat :=
  let a := tAddr b
  let len := tLen b
  let atomic := ty == 7
  let opOk := if atomic then decide (1 ≤ tOp b ∧ tOp b ≤ 3) else tOp b == 0
  if slotOf a ≠ ownSlot s ∨ badShape atomic a len ∨ !opOk then (badAccess s, some 3)
  else
    match placeOf s (offOf a) len with
    | .bad => (badAccess s, some 3)
    | pl =>
      if atomic && pl == .accel then (badAccess s, some 3)
      else
        let k : WKind := if atomic then .atomic else if ty = 4 then .write else .read
        let w := windowCheckAt n st none (winsOf s (tPart b)) (tPart b) a len k (decide (n = 19 ∨ n = 20)) src 1 s
        if w.2 then (w.1, none) else (w.1, some 1)

/-- Begin landing a checked access in its slot: an ATOMIC is performed and answered at once; a PUT's bytes are written, and
DONE waits for their acknowledgement (R246, R251). Answers whether the access is over. -/
def landSlot (x : Slot) (s : State) : State × Bool :=
  match x.tail with
  | none => (s, false)
  | some b =>
    let n := x.port
    let leave (s : State) : State × Bool :=
      (modOrder n x.stream (fun o => { o with expect := (o.expect + 1) % 256 }) (dropSlot n x.stream x.opn s), true)
    if tOp b ≠ 0 then
      match placeOf s (offOf (tAddr b)) 4 with
      | .store off =>
        let q := atomicDo n x.stream none (tPart b) off (tOp b) (tOperand b) (tCompare b) s
        (match q.2 with
        | none => leave (respond n x.src x.stream x.opn 4 false (tInj b) 0 0 0 (tPseq b) q.1)
        | some old =>
          leave (respond n x.src x.stream x.opn 0 false (tInj b) 0 0 old (tPseq b)
            (modOrder n x.stream (fun o => { o with old := old }) q.1)))
      | _ => leave (respond n x.src x.stream x.opn 3 false (tInj b) 0 0 0 (tPseq b) (badAccess s))
    else
      let data := ((List.range (tLen b / 64)).map (fun i => tget [] i x.cells)).flatten
      match placeOf s (offOf (tAddr b)) (tLen b) with
      | .store off => (putSlot { x with st := .landing } (storeWrite off data s), false)
      | _ =>
        if pkgUp s then (putSlot { x with st := .landing } (pkgIssue (tAddr b) data (.put n x.stream x.opn) s), false)
        else leave (respond n x.src x.stream x.opn 6 false (tInj b) 0 (tCheck b) 0 (tPseq b) s)

/-- Land held accesses that are now next, in turn (Table 7.8); `k` bounds how many. -/
def landHeld (n stream : Nat) : Nat → State → State
  | 0, s => s
  | k + 1, s =>
    let e := (orderOf s n stream).expect
    match s.slots.find? (fun x => x.port == n && x.stream == stream && x.st == .held
        && (match x.tail with | some b => tPseq b == e | none => false)) with
    | none => s
    | some x =>
      let r := landSlot x s
      if r.2 then landHeld n stream k r.1 else r.1

/-- Order an access whose check passed (Table 7.8). The slot holds it. -/
def orderSlot (x : Slot) (s : State) : State :=
  match x.tail with
  | none => s
  | some b =>
    let n := x.port
    let o := orderOf s n x.stream
    let d := (tPseq b + 256 - o.expect) % 256
    let busy := s.slots.any (fun y => y.port == n && y.stream == x.stream && y.st == .landing)
    if d = 0 ∧ !busy then
      let r := landSlot x s
      if r.2 then landHeld n x.stream 128 r.1 else r.1
    else if d ≤ 63 then putSlot { x with st := .held, skip := now s + 4 * retxWait s } s
    else if 192 ≤ d then
      let s := cnt R.memDupCount (dropSlot n x.stream x.opn s)
      let atomic := tOp b != 0
      respond n x.src x.stream x.opn 0 true (tInj b) (if atomic then 0 else tLen b) (if atomic then 0 else tCheck b)
        (if atomic then o.old else 0) (tPseq b) s
    else respond n x.src x.stream x.opn 3 false (tInj b) 0 (if tOp b = 0 then tCheck b else 0) 0 (tPseq b)
      (badAccess (dropSlot n x.stream x.opn s))

/-- A PUT slot with its tail and all its data cells starts its check (R243). -/
def slotFull (x : Slot) (s : State) : State :=
  match x.tail with
  | none => s
  | some b =>
    if x.st = .filling ∧ (List.range (tLen b / 64)).all (fun i => (tfind i x.cells).isSome) then
      putSlot { x with st := .checking, fullAt := some (now s) } s
    else s

/-- The PUT of a source port, STREAM and OPN whose first cell found no slot is forgotten. -/
def dropLost (n stream opn : Nat) (s : State) : State :=
  { s with lostPuts := s.lostPuts.filter (fun e => !(e.1 == n && e.2.1 == stream && e.2.2.1 == opn)) }

/-- The first cell of a PUT found no slot, and its tail has not come (R243). -/
def putLost (s : State) (n stream opn : Nat) : Bool :=
  s.lostPuts.any (fun e => e.1 == n && e.2.1 == stream && e.2.2.1 == opn && decide (now s < e.2.2.2))

/-- A PUT data cell at the target (R243).
DESIGN CHOICE (log 17): a PUT whose first cell found no slot is forgotten at its tail, at a cell of INDEX 0, which begins a
re-issue, and 2 × RETX_WAIT after that first cell. -/
def putData (n : Nat) (c : Cell) (s : State) : State :=
  if !targetFrom s n c then reqRefused s
  else if putLost s n (wStream c) (osOpn c) && wIndex c != 0 then s
  else
    let s := dropLost n (wStream c) (osOpn c) s
    match slotAt s n (wStream c) (osOpn c) with
    | some x =>
      if x.st = .filling then
        let x := { x with cells := tset (wIndex c) c.payload x.cells }
        slotFull x (putSlot x s)
      else s
    | none =>
      if s.slots.length < 128 then
        { s with slots := s.slots ++ [{ port := n, stream := wStream c, opn := osOpn c, cells := [(wIndex c, c.payload)], src := wSrc c, due := now s + 2 * retxWait s }] }
      else { s with lostPuts := s.lostPuts ++ [(n, wStream c, osOpn c, now s + 2 * retxWait s)] }

/-- A PUT tail at the target (R242, R243). -/
def putTail (n : Nat) (c : Cell) (s : State) : State :=
  let b := c.payload
  let st := wStream c
  let o := osOpn c
  if !targetFrom s n c then reqRefused s
  else
    match slotAt s n st o with
    | some x =>
      if x.st = .held ∨ x.st = .landing then s
      else
        let t := targetTest n st 4 (wSrc c) b s
        (match t.2 with
        | some e => respond n (wSrc c) st o e false (tInj b) 0 0 0 (tPseq b) (dropSlot n st o t.1)
        | none =>
          let x := { x with tail := some b, src := wSrc c }
          slotFull x (putSlot x t.1))
    | none =>
      let t := targetTest n st 4 (wSrc c) b s
      match t.2 with
      | some e => respond n (wSrc c) st o e false (tInj b) 0 0 0 (tPseq b) t.1
      | none =>
        if t.1.slots.length < 128 ∧ putLost t.1 n st o = false then
          { t.1 with slots := t.1.slots ++ [{ port := n, stream := st, opn := o, tail := some b, src := wSrc c, due := now s + 2 * retxWait s }] }
        else respond n (wSrc c) st o 5 false (tInj b) 0 0 0 (tPseq b) (dropLost n st o t.1)

/-- The data check of a PUT completes on the fourth tick (R243, R244). -/
def putCheck (n stream opn : Nat) (s : State) : State :=
  match slotAt s n stream opn with
  | none => s
  | some x =>
    match x.st, x.fullAt, x.tail with
    | .checking, some t, some b =>
      if now s < t + 4 then s
      else
        let data := ((List.range (tLen b / 64)).map (fun i => tget [] i x.cells)).flatten
        if crc32c data = tCheck b then orderSlot x s
        else
          let s := raise { i := 1, inj := tInj b, port := n, stream := stream, part := tPart b, engine := x.src, code := opn } s
          respond n x.src stream opn 2 false (tInj b) 0 (crc32c data) 0 (tPseq b) (dropSlot n stream opn s)
    | _, _, _ => s

/-- A landing PUT's memory has acknowledged every byte (R246): DONE is sent, and held accesses that are now next land. -/
def putLanded (n stream opn : Nat) (s : State) : State :=
  match slotAt s n stream opn with
  | none => s
  | some x =>
    match x.tail with
    | none => s
    | some b =>
      if x.st = .landing ∧ !s.txns.any (fun t => t.owner == .put n stream opn) then
        let s := respond n x.src stream opn 0 false (tInj b) (tLen b) (tCheck b) 0 (tPseq b) (dropSlot n stream opn s)
        landHeld n stream 128 (modOrder n stream (fun o => { o with expect := (o.expect + 1) % 256 }) s)
      else s

/-- A landing PUT's package write failed: it is answered MEM_ERROR or NO_ACCEL. -/
def putFailed (status n stream opn : Nat) (s : State) : State :=
  match slotAt s n stream opn with
  | none => s
  | some x =>
    match x.tail with
    | none => s
    | some b =>
      let s := respond n x.src stream opn status false (tInj b) 0 (tCheck b) 0 (tPseq b) (dropSlot n stream opn s)
      landHeld n stream 128 (modOrder n stream (fun o => { o with expect := (o.expect + 1) % 256 }) s)

/-- An ATOMIC tail at the target (R242–R244, R251). -/
def atomicTail (n : Nat) (c : Cell) (s : State) : State :=
  let b := c.payload
  let st := wStream c
  let o := osOpn c
  if !targetFrom s n c then reqRefused s
  else if (slotAt s n st o).isSome then s
  else
    let t := targetTest n st 7 (wSrc c) b s
    let s := t.1
    match t.2 with
    | some e => respond n (wSrc c) st o e false (tInj b) 0 0 0 (tPseq b) s
    | none =>
      let x : Slot := { port := n, stream := st, opn := o, tail := some b, src := wSrc c, due := now s + 2 * retxWait s }
      let d := (tPseq b + 256 - (orderOf s n st).expect) % 256
      let busy := s.slots.any (fun y => y.port == n && y.stream == st && y.st == .landing)
      let mustHold := decide (d ≤ 63) && (d != 0 || busy)
      if mustHold && decide (128 ≤ s.slots.length) then respond n (wSrc c) st o 5 false (tInj b) 0 0 0 (tPseq b) s
      else orderSlot x { s with slots := s.slots ++ [x] }

/-- A GET_REQ tail at the target (R242, R246). -/
def getReq (n : Nat) (c : Cell) (s : State) : State :=
  let b := c.payload
  if !targetFrom s n c then reqRefused s
  else
    let t := targetTest n (wStream c) 5 (wSrc c) b s
    match t.2 with
    | some e => respond n (wSrc c) (wStream c) (osOpn c) e false (tInj b) 0 0 0 (tPseq b) t.1
    | none =>
      { t.1 with gets := t.1.gets ++ [{ port := n, stream := wStream c, opn := osOpn c, src := wSrc c, addr := tAddr b, len := tLen b, pseq := tPseq b, inj := tInj b, part := tPart b }] }

/-- The reads of the oldest GET of a source port, STREAM and OPN complete (R231). `data` is what the accelerator returns. -/
def getReadDone (n stream opn : Nat) (data : List Byte) (s : State) : State :=
  match s.gets.find? (fun g => g.port == n && g.stream == stream && g.opn == opn) with
  | none => s
  | some g =>
    let s := { s with gets := s.gets.erase g }
    let fail (e : Nat) (s : State) : State := respond n g.src stream opn e false g.inj 0 0 0 g.pseq s
    let send (b : List Byte) (s : State) : State :=
      let f := awlFire 1 (some n) none none s
      let s := forEach (List.range (g.len / 64)) (fun i s =>
        (injectPort 256 n (mkCell g.src (ownId s) 0 6 stream (osSeq false opn) i (slice b (64 * i) 64)) s).1) f.1
      respond n g.src stream opn 0 false (f.2 || g.inj) g.len (if f.2 then crc32c b ^^^ 1 else crc32c b) 0 g.pseq s
    match placeOf s (offOf g.addr) g.len with
    | .store off =>
      let r := storeReadAt n stream none g.part off g.len s
      (match r.2 with
      | none => fail 4 r.1
      | some b => send b r.1)
    | _ =>
      if !pkgUp s then fail 6 s
      else
        let r := pkgRead g.addr g.len data s
        match r.2 with
        | some b => send b r.1
        | none => fail 4 r.1

/-- The accesses held longest give up their order: E becomes the PSEQ of the nearest held access (R245). -/
def orderSkip (n stream : Nat) (s : State) : State :=
  let e := (orderOf s n stream).expect
  let dist (x : Slot) : Nat := match x.tail with | some b => (tPseq b + 256 - e) % 256 | none => 256
  let due := s.slots.filter (fun x => x.port == n && x.stream == stream && x.st == .held
    && decide (x.skip ≤ now s))
  match due.foldl (fun m x => match m with | none => some x | some y => if dist x < dist y then some x else some y) (none : Option Slot) with
  | none => s
  | some x =>
    let s := ev R.memEvents 4 (cnt R.memOrderSkipCount s)
    landHeld n stream 128 (modOrder n stream (fun o => { o with expect := (match x.tail with | some b => tPseq b | none => e) }) s)

/-- What the loss of a BRD or SVC port does to order numbers and slots (R247). -/
def resetOrder (n : Nat) (s : State) : State :=
  let s := { s with
    slots := s.slots.filter (fun x => x.port != n)
    gets := s.gets.filter (fun g => g.port != n)
    orders := s.orders.filter (fun o => decide (o.1 / 256 ≠ n)) }
  let s := { s with lostPuts := s.lostPuts.filter (fun e => e.1 != n) }
  let slot := if n = 20 then 16 else (ownSlot s + (n - 4) + 1) % 16
  if n ≤ 18 ∨ n = 20 then { s with streams := s.streams.map (fun x => (x.1, { x.2 with pseq := x.2.pseq.set slot 0 })) } else s

/-! ### Package transactions (R255–R257) -/

/-- A write whose owner is step `idx` of a stream's present request failed (Table 8.8): it faults with a status also where the
step has ended since. -/
def stepWriteFailed (status k rid idx a : Nat) (s : State) : State :=
  if (str s k).rid0 ≤ rid then faultMem k idx status a s else s

/-- Chunks, from 0 upward, that are all in a list (R374). -/
def leadCount (n : Nat) (l : List Nat) : Nat := (List.range n).foldl (fun m j => if m = j ∧ l.contains j then m + 1 else m) 0

/-- A SHARD_UPDATE chunk whose writes are all acknowledged gives back its blocks; STRn_SHD_DONE follows (R364, R374). -/
def shardSettle (k rid : Nat) (s : State) : State :=
  match runOf s k rid with
  | none => s
  | some r =>
    let ready := r.shards.filter (fun q => q.written && !s.txns.any (fun t => match t.owner with
      | .shard m i j _ => m == k && i == rid && j == q.j
      | _ => false))
    let acked := ready.map (fun q => q.j) ++ r.acked
    let s := giveBlocks k (3 * ready.length) s
    let s := modRun k rid (fun r => { r with acked := acked, shards := r.shards.filter (fun q => !ready.contains q) }) s
    settleRun k rid (wrN (R.strShdDone k) (leadCount r.rc.length acked) s)

/-- A package transaction has ended: acknowledged, or with NO_ACCEL or MEM_ERROR. -/
def txnOver (ok accel : Bool) (t : Txn) (s : State) : State :=
  let s := { s with txns := s.txns.filter (fun u => u.id != t.id) }
  let s := if ok || !accel then s else ev R.memEvents 7 s
  let status := if accel then 0x13 else 0x14
  match t.owner with
  | .completion n k sig => completionDone ok n k sig s
  | .signalWord n => if ok then s else ev (R.parEvents n) 3 s
  | .step k rid i => if ok then settleRun k rid s else stepWriteFailed status k rid i t.addr s
  | .put n stream opn => if ok then s else putFailed (if accel then 4 else 6) n stream opn s
  | .shard k rid j _ =>
    (match runOf s k rid with
    | some r => if ok then shardSettle k rid s else faultMem k r.idx status t.addr s
    | none => if (shardsOut s k).contains (rid, j) then s else giveBlocks k 3 s)
  | .replay k =>
    if ok then s
    else { s with replay := s.replay.map (fun r => if r.stream = k then { r with fault := some (r.fault.getD status) } else r) }

/-- Package transaction `t` is acknowledged, or fails with MEM_ERROR. -/
def txnEnd (ok : Bool) (t : Txn) (s : State) : State := txnOver ok true t s

/-- Replace a transaction. -/
def putTxn (t : Txn) (s : State) : State := { s with txns := s.txns.map (fun u => if u.id = t.id then t else u) }

/-- All beats of transaction `id` are acknowledged, or one failed its check (R156, R256): each beat that passes is an
opportunity of injection point 5. The whole transaction is sent again where new beats may be issued, and otherwise waits. -/
def txnBeat (id : Nat) (failed : Option Nat) (s : State) : State :=
  match s.txns.find? (fun t => t.id == id && t.sent) with
  | none => s
  | some t =>
    let f := match failed with
      | none => beatsIn (beatPorts s.pkgSet t.addr t.bytes.length) s
      | some i => (s, some (beatPort s.pkgSet (64 * (t.addr / 64 + i))))
    match f.2 with
    | none => txnEnd true t f.1
    | some n =>
      let inj := failed.isNone
      let s := beatFailed n inj (match t.owner.stream with | some k => markInj k inj f.1 | none => f.1)
      if t.resends < 3 then
        let s := cnt R.memPkgRetryCount s
        let t := { t with resends := t.resends + 1, issued := now s }
        if activePkg s == s.pkgSet then txnSend t (putTxn t s) else putTxn { t with sent := false } s
      else txnEnd false t s

/-- The beats of the transactions that wait are issued where they may be, in order (R249, R255); with no PKG port ACTIVE they
end with NO_ACCEL. -/
def pkgRelease (s : State) : State :=
  forEach (s.txns.filter (fun t => !t.sent)) (fun t s =>
    if !pkgUp s then txnOver false false t s
    else if pkgOpen s && !lineBusy s t.owner.stream t.id t.addr t.bytes.length then
      let t := { t with sent := true, issued := now s }
      txnSend t (putTxn t s)
    else s) s

/-- MEM_PKG_TIMEOUT. -/
def pkgTimeout (s : State) : Nat := rfld s R.memPkgTimeout 23 0

/-- An accelerator transaction into the staging store by partition `p` (R257): a write of `data`, or a read of `len`. -/
def pkgStaging (p : Nat) (write : Bool) (a len : Nat) (data : List Byte) (s : State) : State :=
  let n := if write then data.length else len
  match placeOf s (offOf a) n with
  | .store off =>
    if slotOf a ≠ ownSlot s ∨ n = 0 then emit (.pkgRsp false []) (badAccess s)
    else
      let w := windowCheck none (winsOf s p) p a n (if write then .write else .read) false 0x1FFF 2 s
      if !w.2 then emit (.pkgRsp false []) w.1
      else if write then emit (.pkgRsp true []) (storeWrite off data w.1)
      else
        let r := storeRead none p off n w.1
        (match r.2 with
        | some b => emit (.pkgRsp true b) r.1
        | none => emit (.pkgRsp false []) r.1)
  | _ => emit (.pkgRsp false []) (badAccess s)

/-- A staging word met with an error in its cells (R254): 1 a single-bit error, corrected and written back; otherwise
uncorrectable from now on. -/
def stgError (w err : Nat) (s : State) : State :=
  if err = 0 ∨ storeSize / 8 ≤ w then s
  else if err = 1 then ev R.memEvents 5 (cnt R.memEccCorrCount s)
  else { s with stgBad := s.stgBad.filter (· != w) ++ [w] }

/-! ### Commands -/

/-- ACCESS_ISSUE (R237): the next access of step `idx` of stream `k`. -/
def execAccessIssue (k idx : Nat) (data : List Byte) (s : State) : Host.Outcome State Fault Refusal :=
  run (fun s => match runAt s k idx with | some r => accessNext k r.rid data s | none => s) s

/-- PUT_DATA (R243). -/
def execPutData (n : Nat) (b : List Byte) (s : State) : Host.Outcome State Fault Refusal :=
  run (takeCell n b (fun c => wType c == 4 && !osTail c) (putData n)) s

/-- PUT_TAIL (R242). -/
def execPutTail (n : Nat) (b : List Byte) (s : State) : Host.Outcome State Fault Refusal :=
  run (takeCell n b (fun c => wType c == 4 && osTail c) (putTail n)) s

/-- PUT_CHECK_COMPLETE (R243, R244). -/
def execPutCheckComplete (n stream opn : Nat) (s : State) : Host.Outcome State Fault Refusal :=
  run (putCheck n stream opn) s

/-- PUT_LANDED (R246). -/
def execPutLanded (n stream opn : Nat) (s : State) : Host.Outcome State Fault Refusal := run (putLanded n stream opn) s

/-- GET_REQ (R246). -/
def execGetReq (n : Nat) (b : List Byte) (s : State) : Host.Outcome State Fault Refusal := run (takeType n b 5 (getReq n)) s

/-- GET_READ_DONE (R231). -/
def execGetReadDone (n stream opn : Nat) (data : List Byte) (s : State) : Host.Outcome State Fault Refusal :=
  run (getReadDone n stream opn data) s

/-- ATOMIC (R251). -/
def execAtomic (n : Nat) (b : List Byte) (s : State) : Host.Outcome State Fault Refusal := run (takeType n b 7 (atomicTail n)) s

/-- GET_RSP (R239). -/
def execGetRsp (n : Nat) (b : List Byte) (s : State) : Host.Outcome State Fault Refusal :=
  run (takeCell n b (fun c => wType c == 6 && osTail c) (rspTail n)) s

/-- GET_RSP_DATA (R241). -/
def execGetRspData (n : Nat) (b : List Byte) (s : State) : Host.Outcome State Fault Refusal :=
  run (takeCell n b (fun c => wType c == 6 && !osTail c) (rspData n)) s

/-- The overall limit of an access: 8 × RETX_WAIT since its first issue (Table 7.6). -/
def tagOver (s : State) (t : Tag) : Bool := decide (t.limit ≤ now s)

/-- RETX_WAIT has passed since the current issue's tail was sent, with no response. -/
def tagTimer (s : State) (t : Tag) : Bool :=
  match t.due with
  | some a => t.busyAt.isNone && decide (a ≤ now s)
  | none => false

/-- ACCESS_RETX_TIMEOUT (R239). -/
def execAccessRetxTimeout (stream opn : Nat) (s : State) : Host.Outcome State Fault Refusal :=
  run (fun s => match tagOf s stream opn with
    | some t => if tagTimer s t && !tagOver s t && decide (t.retries < 3) then retryTag t s else s
    | none => s) s

/-- BUSY_REISSUE (R239): 2,048 ticks after the BUSY response. -/
def execBusyReissue (stream opn : Nat) (s : State) : Host.Outcome State Fault Refusal :=
  run (fun s => match tagOf s stream opn with
    | some t => (match t.busyAt with
      | some a => if a + 2048 ≤ now s ∧ !tagOver s t then reissueTag t s else s
      | none => s)
    | none => s) s

/-- MEM_TIMEOUT (R239). -/
def execMemTimeout (stream opn : Nat) (s : State) : Host.Outcome State Fault Refusal :=
  run (fun s => match tagOf s stream opn with
    | some t => if tagOver s t || (tagTimer s t && decide (3 ≤ t.retries)) then tagComplete t 0x15 s else s
    | none => s) s

/-- ORDER_SKIP (R245). -/
def execOrderSkip (n stream : Nat) (s : State) : Host.Outcome State Fault Refusal := run (orderSkip n stream) s

/-- ASSEMBLY_SLOT_TIMEOUT (R243): slots without their tail 2 × RETX_WAIT after their first cell. -/
def execAssemblySlotTimeout (s : State) : Host.Outcome State Fault Refusal :=
  run (fun s =>
    let due (x : Slot) : Bool := x.tail.isNone && decide (x.due ≤ now s)
    cntBy R.memReqRefusedCount (s.slots.countP due) { s with slots := s.slots.filter (fun x => !due x) }) s

/-- STAGING_BANK_GRANT (R253, R254): the bank access of staging word `w`, whose cells hold `err` wrong bits. -/
def execStagingBankGrant (w err : Nat) (s : State) : Host.Outcome State Fault Refusal := run (stgError w err) s

/-- PKG_TRANSACTION_DONE (R256). -/
def execPkgTransactionDone (id : Nat) (failed : Option Nat) (s : State) : Host.Outcome State Fault Refusal :=
  run (txnBeat id failed) s

/-- PKG_TIMEOUT (R256). -/
def execPkgTimeout (id : Nat) (s : State) : Host.Outcome State Fault Refusal :=
  run (fun s => match s.txns.find? (fun t => t.id == id) with
    | some t => if t.sent ∧ t.issued + pkgTimeout s ≤ now s then txnEnd false t s else s
    | none => s) s

/-- PKG_STAGING_ACCESS (R257). -/
def execPkgStagingAccess (p : Nat) (write : Bool) (a len : Nat) (data : List Byte) (s : State) :
    Host.Outcome State Fault Refusal := run (pkgStaging p write a len data) s

end Sys2Proof.Machine
end

