-- ==== Sys2Proof/Machine/Chunks.lean ====
section
/-! DEFINITION. Chunks at the receiver: assembly, landing, classification, late policies, the combining of positions, and
receipts (The Ecmir Cell, R103–R117; Building Collectives; Combiners; Deadlines, R375–R397). -/
namespace Sys2Proof.Machine

/-! ### The SEAL (Table 3.6) -/

def sCheck (b : List Byte) : Nat := fieldBE b 0 4
def sStep (b : List Byte) : Nat := fieldBE b 4 4
def sRank (b : List Byte) : Nat := fieldBE b 8 2
def sContrib (b : List Byte) : Nat := fieldBE b 10 2
def sFormat (b : List Byte) : Nat := fieldBE b 12 1
def sFlags (b : List Byte) : Nat := fieldBE b 13 1
def sElements (b : List Byte) : Nat := fieldBE b 14 2

/-- A SEAL payload. -/
def sealBytes (check step rank contrib format flags elements : Nat) : List Byte :=
  pad64 (bytesBE 4 check ++ bytesBE 4 step ++ bytesBE 2 rank ++ bytesBE 2 contrib ++ bytesBE 1 format ++ bytesBE 1 flags
    ++ bytesBE 2 elements)

/-! ### Receipts (Tables 3.8, 3.9) -/

def vTaken : Nat := 0
def vLateDropped : Nat := 1
def vCheckFail : Nat := 2
def vSealBad : Nat := 3
def vNoStep : Nat := 4
def vQuota : Nat := 5

/-- This engine's rank in the partition of stream `k` (Table 3.8); for a stream no partition owns, DESIGN
CHOICE (log 43), in partition 0. -/
def strRank (s : State) (k : Nat) : Nat := ownRank s ((ownerOf s k).getD 0)

/-- Owe a RECEIPT, queued from the tick after this one (R387); `rank` is this engine's own (Table 3.8). -/
def owe (rank rstream dest seq check step verdict : Nat) (dup late inj : Bool) (s : State) : State :=
  let none := verdict == vNoStep || verdict == vQuota
  let b := pad64 (bytesBE 4 (if none then 0 else check) ++ bytesBE 4 step ++ bytesBE 2 rank ++ bytesBE 1 verdict
    ++ bytesBE 1 (b2n dup + 2 * b2n late + 4 * b2n inj) ++ bytesBE 8 (if none then 0 else mtcN s)
    ++ bytesBE 1 (incarnation s))
  { s with receipts := s.receipts ++ [(now s + 1, mkCell dest (ownId s) 2 3 rstream seq 0 b)] }

/-- Queue the receipts that are due. -/
def sendReceipts (s : State) : State :=
  let due := s.receipts.filter (fun r => decide (r.1 ≤ now s))
  forEach due (fun r s => injectOwn r.2 s) { s with receipts := s.receipts.filter (fun r => decide (now s < r.1)) }

/-! ### Assembly (R103–R110, R291, R292) -/

/-- Two assemblies are of one chunk: the same DEST, SRC, STREAM and SEQ (R103, R106). -/
def Asm.same (a b : Asm) : Bool := a.dest == b.dest && a.src == b.src && a.stream == b.stream && a.seq == b.seq

/-- What a cell's welt says of the chunk it belongs to. -/
def asmKey (c : Cell) : Asm := { dest := wDest c, src := wSrc c, stream := wStream c, seq := wSeq c }

/-- The assembly a cell belongs to. -/
def asmOf (s : State) (c : Cell) : Option Asm := s.asms.find? (fun a => a.same (asmKey c))

/-- Replace, or drop, an assembly. -/
def putAsm (a : Asm) (s : State) : State := { s with asms := s.asms.map (fun b => if b.same a then a else b) }
def dropAsm (a : Asm) (s : State) : State := { s with asms := s.asms.filter (fun b => !b.same a) }

/-- An assembly with what every cell of the chunk adds to it. -/
def Asm.seen (a : Asm) (c : Cell) : Asm := { a with vc1 := a.vc1 || wVc c == 1, mc := a.mc || wMcast c }

/-- An assembly whose 65 cells are present starts its check (R107). -/
def asmFull (a : Asm) (s : State) : State :=
  if a.full.isNone ∧ a.sealP.isSome ∧ (List.range 64).all (fun i => (tfind i a.cells).isSome) then
    putAsm { a with full := some (now s) } s
  else s

/-- A staging block is to be had for stream `k`. -/
def blockFor (s : State) (k : Nat) : Bool :=
  match ownerOf s k with
  | some n => blockFree s n k
  | none => false

/-- A DATA cell delivered to its stream (R106, R292).
DESIGN CHOICE (log 43): a cell of the chunk that comes while its check runs (R107) joins that assembly, whose later copy stands. -/
def dataCell (c : Cell) (s : State) : State :=
  let k := wStream c
  match asmOf s c with
  | some a =>
    let a := { a.seen c with cells := tset (wIndex c) c.payload a.cells }
    asmFull a (putAsm a s)
  | none =>
    if blockFor s k then
      takeBlock k { s with asms := s.asms ++ [{ (asmKey c).seen c with cells := [(wIndex c, c.payload)] }] }
    else cnt (R.strQuotaDiscardCount k) s

/-! ### Landed records (R380–R383) -/

/-- The landed record of run `rid` for a source. -/
def recordOf (s : State) (k src rid : Nat) : Option Landed :=
  s.landed.find? (fun d => d.stream == k && d.src == src && d.rid == rid)

/-- The position a SEQ resolves to against P (R381), if not below 0. -/
def resolveSeq (p seq : Nat) : Option Nat :=
  let d := (seq + 1024 - p % 1024) % 1024
  if d < 512 then some (p + d) else if 1024 ≤ p + d then some (p + d - 1024) else none

/-- The position a chunk has in a run. -/
def posOf (s : State) (k src rid seq : Nat) : Option Nat :=
  resolveSeq (match recordOf s k src rid with | some d => d.p | none => 0) seq

/-- Advance P past the positions that have landed; `n` bounds the steps. -/
def advanceP : Nat → Nat → List Nat → Nat × List Nat
  | 0, p, l => (p, l)
  | n + 1, p, l => if l.contains p then advanceP n (p + 1) (l.filter (· != p)) else (p, l)

/-- The record with a landing at position `j` (R380, R381). -/
def landAt (d : Landed) (seq check j t : Nat) : Landed :=
  let e := d.entries.filter (fun e => e.1 % 512 != seq % 512) ++ [(seq, check)]
  let r := if j < d.p then (d.p, d.above) else advanceP 1024 d.p (if d.above.contains j then d.above else d.above ++ [j])
  { d with entries := e, p := r.1, above := r.2, due := t }

/-! ### Admission (Table 9.4) -/

/-- Contributions a position needs from remote ranks. -/
def Run.need (r : Run) : Nat :=
  if r.op = 4 then (if r.auxRank = 0xFFFF then 0 else 1) else if r.op = 3 ∧ r.kind = 5 then r.rc.aux else 1

/-- Remote contributions taken at a position, those of the anneal buffer apart. -/
def Pos.count (p : Pos) : Nat := p.taken.countP (fun t => !t.carried)

/-- A run admits a chunk at position `j` (Table 9.4). -/
def Run.admits (r : Run) (b : List Byte) (j : Nat) : Bool :=
  let rank := sRank b
  decide (j < r.rc.length) && r.receives
    && (if r.op = 4 then rank == r.auxRank
      else if r.kind = 0 then rank == r.peerRank
      else
        sFormat b == r.rc.inFmt && rank != r.self
          && (match r.pos j with
            | none => r.op == 2 || decide (0 < r.rc.aux)
            | some p =>
              if r.op = 2 then p.taken.isEmpty
              else !p.taken.any (fun t => t.rank == rank && !t.carried) && (p.short || decide (p.count < r.rc.aux))))

/-- The SEAL tests of Table 3.7 hold. -/
def sealOk (s : State) (r : Run) (src : Nat) (b : List Byte) : Bool :=
  sContrib b != 0 && sFormat b == r.rc.inFmt && sElements b != 0 && decide (sElements b ≤ eIn s r)
    && decide (sRank b < r.map.length) && r.map.getD (sRank b) 0x1FFF == src && decide (sFlags b < 32)

/-- The stream number a run's receipts name (R280). -/
def Run.peerStr (r : Run) (k : Nat) : Nat := if r.rc.pstream then r.rc.peerStream else k

/-! ### Positions of combining steps (R308, R316–R318, R333, R393, R394) -/

/-- A combining step. -/
def Run.combines (r : Run) : Bool := r.op == 3 || r.op == 4

/-- Some position waits for accumulator slots. -/
def slotWaits (s : State) : Bool := s.streams.any (fun x => x.2.runs.any (fun r => r.poss.any (fun p => p.slotWait)))

/-- Give a position its accumulator slots if a combiner has them, and none waits in front of it (R316, R317). -/
def trySlots (front : Bool) (k rid j : Nat) (s : State) : State :=
  match runOf s k rid with
  | none => s
  | some r =>
    match r.pos j with
    | none => s
    | some p =>
      if p.comb.isSome then s
      else
        match if front || !slotWaits s then pickCombiner s (slotNeed s r) else none with
        | some c => modPos k rid j (fun p => { p with comb := some c, slots := slotNeed s r, slotWait := false }) s
        | none => ev R.cmbEvents 4 (modPos k rid j (fun p => { p with slotWait := true }) s)

/-- Positions of a combining run without their accumulator block, in the order in which they came to need it. -/
def blockLess (r : Run) : List Nat :=
  if r.combines then (r.poss.filter (fun p => !p.blk && p.outs.isNone)).map (fun p => p.j) else []

/-- A run that waits for a staging block (R293): until its deadline where the need arose by then, otherwise for RETX_WAIT
ticks. -/
def Run.waitBlock (s : State) (r : Run) : Run :=
  { r with blockWait := some (r.blockWait.getD
      (now s + retxWait s, decide (r.rc.deadline ≠ 0 ∧ mtcN s ≤ r.deadline))) }

/-- Give a position its accumulator block if one is free and no position before it waits for one; otherwise the step waits
(R291, R293). -/
def tryBlock (k rid j : Nat) (s : State) : State :=
  match runOf s k rid with
  | none => s
  | some r =>
    match r.pos j with
    | none => s
    | some p =>
      if p.blk then s
      else if blockFor s k ∧ (blockLess r).head? = some j then takeBlock k (modPos k rid j (fun p => { p with blk := true }) s)
      else modRun k rid (Run.waitBlock s) s

/-- Open position `j` of a run, with its slots and block where it combines. -/
def openPos (k rid j : Nat) (s : State) : State :=
  match runOf s k rid with
  | none => s
  | some r =>
    if (r.pos j).isSome then s
    else
      let s := modRun k rid (fun r => { r with poss := r.poss ++ [{ j := j, first := mtcN s }] }) s
      if r.combines then tryBlock k rid j (trySlots false k rid j s) else s

/-- Whether the position holds all its contributions, or is decided short. -/
def posComplete (r : Run) (p : Pos) : Bool := p.short || decide (r.need ≤ p.count)

/-- A rank may be added now under ordered accumulation: every lower rank has been added or is absent (R333). -/
def orderReady (r : Run) (p : Pos) (rank : Nat) : Bool :=
  if r.rc.ordered ∧ r.rc.redOp ≤ 1 then
    p.taken.all (fun t => t.carried || t.added || decide (rank ≤ t.rank))
      && (p.loc.isSome || decide (rank ≤ r.self))
      && (posComplete r p || (List.range (min rank r.map.length)).all (fun q => q == r.self || p.taken.any (fun t => t.rank == q)))
  else true

/-- The anneal entries a position consumes (R393), by the PARn_ANNEAL_MAX its step was launched with (R263). -/
def annealFor (s : State) (k : Nat) (r : Run) (j : Nat) : List Anneal :=
  let x := str s k
  (par s x.part).anneal.filter (fun a =>
    let d := (x.req.step + 2 ^ 32 - a.sstep) % 2 ^ 32
    a.stream == k && a.last == x.req.last && a.idx == r.idx && a.pos == r.bias + j
      && decide (1 ≤ d ∧ d ≤ r.annealMax))

/-- Insert a contribution in rank order; entries of the anneal buffer come after their rank, rising in STEP (R333, R394). -/
def insertPart (c : Contrib) : List Contrib → List Contrib
  | [] => [c]
  | d :: t =>
    if c.rank < d.rank ∨ (c.rank = d.rank ∧ (!c.carried ∧ d.carried)) ∨ (c.rank = d.rank ∧ c.carried ∧ d.carried ∧ c.sstep < d.sstep)
    then c :: d :: t
    else d :: insertPart c t

/-- Contributions in the order of R333. -/
def rankOrder (l : List Contrib) : List Contrib := l.foldl (fun a c => insertPart c a) []

/-- The random word of an output element (R350, R351). -/
def rndWord (seed purpose step elem : Nat) : Nat := kcg seed (kcgCounter purpose step elem)

/-- Results of elements `0 … n − 1` of a position, with their random words; `e0` is the KCG index of the first. -/
def posResults (f : Fmt) (op : Nat) (ordered : Bool) (mode count : Nat) (parts : List Part) (seed step e0 n : Nat) :
    List (Res × Nat) :=
  (List.range n).map (fun i =>
    (reduceElem f op ordered count parts i, if mode = 2 then rndWord seed 1 step (e0 + i) else 0))

/-- Events of output rounding (R345). -/
def madeEvents (m : Made) (s : State) : State :=
  let s := if m.sat = 0 then s else ev R.cmbEvents 0 (cntBy R.cmbSatCount m.sat s)
  let s := if m.nanz = 0 then s else ev R.cmbEvents 1 (cntBy R.cmbNanCount m.nanz s)
  if m.clamp then ev R.cmbEvents 2 s else s

/-- The output chunks of a position from its contributions in rank order (R331–R346): a position reaches one output chunk,
several, or a part of one. -/
def posOutputs (s : State) (r : Run) (seed : Nat) (j count : Nat) (l : List Contrib) : List Made :=
  let fi := fmtAt s r.rc.inFmt
  let fo := fmtAt s r.rc.outFmt
  let ei := perChunk fi
  let eo := perChunk fo
  let parts := l.map (fun c => (natLE c.data, c.elements))
  let e0 := if r.op = 4 then r.inChunk j * eo else r.rc.outOff * eo + (r.bias + j) * ei
  if 4 ≤ r.rc.redOp ∧ fi.scale = true then [bitChunk fi r.rc.redOp parts]
  else
  let res := posResults fi r.rc.redOp r.rc.ordered r.rounding count parts seed r.idx e0 ei
  if eo ≤ ei then (List.range (ei / eo)).map (fun i => makeChunk fo r.rounding ((res.drop (i * eo)).take eo))
  else
    let m := makeChunk fo r.rounding res
    [{ m with bytes := m.bytes.take (4096 * ei / eo) }]

/-- Form the output of a position once it is complete and everything is added (R318, R393, R394). The block of a consumed
entry stays in use until the output is handed on. -/
def formPos (k rid j : Nat) (s : State) : State :=
  match runOf s k rid with
  | none => s
  | some r =>
    match r.pos j with
    | none => s
    | some p =>
      match p.loc with
      | none => s
      | some (lb, lc) =>
        if !r.combines || p.outs.isSome || !posComplete r p || p.comb.isNone || !p.taken.all (fun t => t.added) then s
        else
          let x := str s k
          let al := annealFor s k r j
          let s := forEach al (fun a s =>
            let s := ledger
              { part := x.part, sstep := a.sstep, atStep := x.req.step, pos := a.pos, rank := a.rank, idx := a.idx, decision := 6
                stream := k, ordered := r.rc.ordered, late := a.late, amount := a.count, seq := a.seq }
              (modPar x.part (fun p => { p with anneal := p.anneal.erase a })
                (if a.res then s else modStr k (fun x => { x with drawn := x.drawn + 1 }) s))
            capEntry r.cap a.pos a.rank a.count (crc32c a.data) 0 6 (2 * b2n a.late) ((x.req.step + 2 ^ 32 - a.sstep) % 65536) a.data s) s
          let carried := al.map (fun a =>
            ({ rank := a.rank, count := a.count, elements := a.elements, data := a.data, sstep := a.sstep, seq := a.seq
               carried := true, added := true } : Contrib))
          let own : Contrib := { rank := r.self, count := lc, elements := eIn s r, data := lb, added := true }
          let l := rankOrder (own :: p.taken ++ carried)
          let count := min 65535 ((l.map (fun c => c.count)).sum)
          let ms := posOutputs s r x.req.seed j count l
          let s := forEach ms madeEvents s
          modPos k rid j (fun p => { p with
            taken := p.taken ++ carried
            carry := !carried.isEmpty || p.taken.any (fun t => t.carry) || p.locMark.testBit 2
            outs := some (ms.map (fun m => (m.bytes, count))) }) s

/-! ### Landing (R107–R111, R384–R392) -/

/-- A capture's contribution entry for a chunk (R535). -/
def entryFor (k : Nat) (r : Run) (j : Nat) (b data : List Byte) (decision : Nat) (s : State) : State :=
  let f := sFlags b
  capEntry r.cap (r.bias + j) (sRank b) (sContrib b) (crc32c data) (mtcN s - r.base) decision
    (2 * b2n (f.testBit 0) + 4 * b2n (f.testBit 4) + 8 * b2n (f.testBit 1))
    (((str s k).req.step + 2 ^ 32 - sStep b) % 65536) data s

/-- A ledger entry for a chunk. -/
def chunkEntry (k : Nat) (r : Run) (j atStep decision seq : Nat) (b : List Byte) : Nat → Entry := fun part =>
  { part := part, sstep := sStep b, atStep := atStep, pos := r.bias + j, rank := sRank b, idx := r.idx, decision := decision
    stream := k, inj := (sFlags b).testBit 4, ordered := r.rc.ordered, late := (sFlags b).testBit 0
    amount := sContrib b, seq := seq }

/-- What becomes of a late chunk under DROP or FOLD (R389–R392): its decision. The chunk's block is given back, and an anneal
entry takes one as every need does, from the reserve first (R291). -/
def lateChunk (k : Nat) (r : Run) (lastOff : Nat) (j seq : Nat) (b data : List Byte) (s : State) : State × Nat :=
  let n := (ownerOf s k).getD 0
  let s := giveBlock k s
  if r.policy = 2 ∧ r.op ≠ 2 then
    if (par s n).anneal.length < 64 ∧ blockFree s n k = true then
      let res := decide ((str s k).inUse < (str s k).reserve)
      let s := if res then takeBlock k s else s
      (modPar n (fun p => { p with anneal := p.anneal ++ [
        { stream := k, last := lastOff, idx := r.idx, pos := r.bias + j, rank := sRank b, sstep := sStep b, count := sContrib b
          fmt := sFormat b, elements := sElements b, seq := seq, late := (sFlags b).testBit 0, ordered := r.rc.ordered
          res := res, data := data }] }) s, 3)
    else (s, 4)
  else (s, 2)

/-- A late chunk of a running or closed step is decided, written to the ledger and answered (R387, R389). -/
def lateTaken (k : Nat) (r : Run) (cur : Bool) (atStep lastOff j seq : Nat) (a : Asm) (b data : List Byte) (s : State) : State :=
  let q := lateChunk k r lastOff j seq b data s
  let n := (ownerOf s k).getD 0
  let s := lateDecision k cur (chunkEntry k r j atStep q.2 seq b n) q.1
  let s := if cur then entryFor k r j b data q.2 s else s
  owe r.self (r.peerStr k) a.src seq (crc32c data) (sStep b) (if q.2 = 3 then vTaken else vLateDropped) false true
    ((sFlags b).testBit 4) s

/-- The record a leg lands in: an existing one, or a new one where one is free (R382). -/
def needRecord (k src step : Nat) (r : Run) (s : State) : Option Landed :=
  match recordOf s k src r.rid with
  | some d => some d
  | none =>
    if s.landed.length < 2048 then
      some { stream := k, src := src, rid := r.rid, rstream := r.peerStr k, self := r.self, step := step, idx := r.idx }
    else none

/-- Store a landed record. -/
def putRecord (d : Landed) (s : State) : State :=
  { s with landed := s.landed.filter (fun e => !(e.stream == d.stream && e.src == d.src && e.rid == d.rid)) ++ [d] }

/-- A later receiving step `rid` of stream `k` takes a chunk from `src`: the records that the earlier closed steps hold for
that source are released (R383).
DEDUCED (log 38): a closed step whose record for a source was released takes no more chunks from it. -/
def releaseEarlier (k src rid : Nat) (s : State) : State :=
  let early := ((str s k).closed.filter (fun c => decide (c.run.rid < rid))).map (fun c => c.run.rid)
  modStr k (fun x => { x with closed := x.closed.map (fun c =>
      if c.run.rid < rid ∧ (recordOf s k src c.run.rid).isSome = true then { c with gone := c.gone ++ [src] } else c) })
    { s with landed := s.landed.filter (fun d => !(d.stream == k && d.src == src && early.contains d.rid)) }

/-- A chunk given to run `r` (running or closed) at position `j`: the SEAL tests, the landed record, and its policy. -/
def takeChunk (k : Nat) (r : Run) (closed : Bool) (step lastOff j : Nat) (a : Asm) (b data : List Byte) (s : State) : State :=
  let inj := (sFlags b).testBit 4
  let check := crc32c data
  let late := decide (r.deadline < mtcN s)
  let answer (v : Nat) (s : State) : State :=
    owe r.self (r.peerStr k) a.src a.seq check (sStep b) v false (closed || late) inj s
  let u := if sRank b < r.map.length then rankUseIn (str s k).part (sRank b) r.map s else (s, a.src)
  let s := u.1
  if !sealOk s r a.src b || u.2 != a.src then answer vSealBad (giveBlock k (cnt (R.strSealBadCount k) s))
  else
    match needRecord k a.src step r s with
    | none => giveBlock k (cnt R.strLegFullCount s)
    | some d =>
      if d.entries.any (fun e => e.1 == a.seq && e.2 != check) then
        answer vCheckFail (giveBlock k s)
      else
        let s := putRecord (landAt d a.seq check j (now s + 4 * retxWait s)) s
        let s := releaseEarlier k a.src r.rid s
        if closed then lateTaken k r (decide ((str s k).st ≠ .idle ∧ (str s k).req.step = step)) step lastOff j a.seq a b data s
        else if late ∧ r.policy ≠ 0 then lateTaken k r true step lastOff j a.seq a b data s
        else
          let s := if late then lateDecision k true (chunkEntry k r j step 1 a.seq b (str s k).part) s else s
          let s := entryFor k r j b data (b2n late) (openPos k r.rid j s)
          let c : Contrib :=
            { rank := sRank b, count := sContrib b, elements := sElements b, data := data, sstep := sStep b, seq := a.seq
              late := (sFlags b).testBit 0, check := check, inj := inj, vc1 := a.vc1, carry := (sFlags b).testBit 1 }
          let s := modPos k r.rid j (fun p => { p with taken := p.taken ++ [c] }) (markInj k inj s)
          owe r.self (r.peerStr k) a.src a.seq check (sStep b) vTaken false late inj s

/-- A landed record is held (R383): its step runs, or was closed and the later of its end and the record's last landing is at
most 4 × RETX_WAIT ticks ago. A chunk that lands on the last tick comes before the release (R377). -/
def recHeld (s : State) (d : Landed) : Bool :=
  match (str s d.stream).closed.find? (fun c => c.run.rid == d.rid) with
  | some c => decide (now s ≤ max c.due d.due)
  | none => true

/-- The closed step that takes a chunk: test 2 of Table 12.1. -/
def closedFor (s : State) (k : Nat) (a : Asm) (b : List Byte) : Option (ClosedStep × Nat) :=
  (str s k).closed.findSome? (fun c =>
    let d := recordOf s k a.src c.run.rid
    let live := match d with | some e => recHeld s e | none => decide (now s ≤ c.due)
    match posOf s k a.src c.run.rid a.seq with
    | some j =>
      let landed := match d with | some e => decide (j < e.p) || e.above.contains j | none => false
      if live && !c.gone.contains a.src && c.step == sStep b && !landed && c.run.admits b j then some (c, j) else none
    | none => none)

/-- Insert a run by step index, lowest first. -/
def insertRun (r : Run) : List Run → List Run
  | [] => [r]
  | q :: t => if r.idx < q.idx then r :: q :: t else q :: insertRun r t

/-- The running step that takes a chunk: test 3 of Table 12.1, the lowest-indexed between launch and end that admits it
(R307). -/
def runFor (s : State) (k : Nat) (a : Asm) (b : List Byte) : Option (Run × Nat) :=
  if (str s k).req.step = sStep b ∧ !isolated s k then
    ((str s k).runs.foldl (fun l r => insertRun r l) []).findSome? (fun r =>
      match posOf s k a.src r.rid a.seq with
      | some j => if !r.ended && r.admits b j then some (r, j) else none
      | none => none)
  else none

/-- The STREAM of a RECEIPT for a chunk (R92, R280): the sending stream's number, as the step that takes the chunk knows it.
DESIGN CHOICE (log 43): where no step takes it, of the steps that expect its source: a running one of SEAL STEP, a closed
one, any running one; the own stream's number where there is none. -/
def answerStream (s : State) (k : Nat) (a : Asm) (b : List Byte) : Nat :=
  let runs := (str s k).runs.foldl (fun l r => insertRun r l) []
  let expecting (r : Run) : Bool := r.expects a.src
  match closedFor s k a b, runFor s k a b with
  | some (c, _), _ => c.run.peerStr k
  | none, some (r, _) => r.peerStr k
  | none, none =>
    match (if (str s k).req.step = sStep b then runs.find? expecting else none),
        (str s k).closed.find? (fun c => c.step == sStep b && expecting { c.run with ended := false }), runs.find? expecting with
    | some r, _, _ => r.peerStr k
    | none, some c, _ => c.run.peerStr k
    | none, none, some r => r.peerStr k
    | none, none, none => k

/-- A chunk's landing would be late for the step that takes it (Table 3.8, FLAGS[1]). -/
def answerLate (s : State) (k : Nat) (a : Asm) (b : List Byte) : Bool :=
  (closedFor s k a b).isSome || (match runFor s k a b with | some (r, _) => decide (r.deadline < mtcN s) | none => false)

/-- A SEAL cell delivered to its stream (R106, R292). DESIGN CHOICE (log 43): a stream that no partition owns has no block,
and its SEAL draws QUOTA. -/
def sealCell (c : Cell) (s : State) : State :=
  let k := wStream c
  match asmOf s c with
  | some a =>
    let a := { a.seen c with sealP := some c.payload }
    asmFull a (putAsm a s)
  | none =>
    if blockFor s k then
      takeBlock k { s with asms := s.asms ++ [{ (asmKey c).seen c with sealP := some c.payload }] }
    else
      owe (strRank s k) (answerStream s k (asmKey c) c.payload) (wSrc c) (wSeq c) 0 (sStep c.payload) vQuota false false ((sFlags c.payload).testBit 4)
        (cnt (R.strQuotaDiscardCount k) s)

/-- A DATA or SEAL cell is delivered. -/
def deliverChunkCell (c : Cell) (s : State) : State := if wType c = 1 then dataCell c s else sealCell c s

/-- A multicast cell delivered locally (R198). -/
def mcDeliver (c : Cell) (s : State) : State :=
  if (str s (wStream c)).runs.any (fun r => r.expects (wSrc c)) then deliverChunkCell c s
  else ev R.tblMcEvents 3 (cnt R.tblMcNoStepCount s)

/-- A multicast cell that passed the receive checks on port `n` (R195, R200, R202, R205). -/
def multicastCell (n : Nat) (c : Cell) (s : State) : State :=
  if wDefl c = 1 then
    if 4 ≤ n ∧ n ≤ 18 ∧ peerId s n = wSrc c then mcDeliver c s else kindBad n c s
  else if wDefl c = 2 then
    if 21 ≤ n ∧ n ≤ 28 ∧ wHops c = 1 then mcDeliver c s else kindBad n c s
  else
    let r := laceLookup (wEpoch c) (laceOf c) n s
    match r.2 with
    | none => transitLoss 31 rNoLace false c r.1
    | some (m, deliver) => laceCopies n c m (if deliver then mcDeliver c r.1 else r.1)

/-- The check of a complete assembly takes until the fourth tick after its last cell (R107). -/
def Asm.checked (a : Asm) (s : State) : Bool := match a.full with | some t => decide (t + 4 ≤ now s) | none => false

/-- The chunk check of a complete assembly completes (R107): the chunk is checked and classified (Table 12.1). -/
def chunkLanding (src k seq : Nat) (s : State) : State :=
  match s.asms.find? (fun a => a.src == src && a.stream == k && a.seq == seq && a.checked s) with
  | none => s
  | some a =>
    match a.sealP with
    | none => s
    | some b =>
        let s := dropAsm a s
        let data := ((List.range 64).map (fun i => tget [] i a.cells)).flatten
        let check := crc32c data
        let inj := (sFlags b).testBit 4
        let rstream := answerStream s k a b
        let late := answerLate s k a b
        if check ≠ sCheck b then
          let s := raise { i := 1, inj := inj, stream := k, part := (ownerOf s k).getD 0xFF, engine := src, code := seq }
            (giveBlock k (cnt (R.strChkFailCount k) s))
          owe (strRank s k) rstream src seq check (sStep b) vCheckFail false late inj s
        else
          match s.landed.find? (fun d => d.stream == k && d.src == src && d.step == sStep b && recHeld s d
              && d.entries.any (fun e => e.1 == seq && e.2 == check)) with
          | some d =>
            let s := giveBlock k (cnt (R.strDupCount k) s)
            owe d.self d.rstream src seq check (sStep b) vTaken true false inj s
          | none =>
            match closedFor s k a b with
            | some (c, j) => takeChunk k c.run true c.step c.lastOff j a b data s
            | none =>
              match runFor s k a b with
              | some (r, j) => takeChunk k r false (str s k).req.step (str s k).req.last j a b data s
              | none =>
                owe (strRank s k) rstream src seq 0 (sStep b) vNoStep false false inj (ev (R.strCollEvents k) 1 (giveBlock k s))

/-! ### Deadlines (R375–R377, R389, R390, R405) -/

/-- Decide one short position of a run at its deadline (R390). -/
def decideShort (k rid j : Nat) (s : State) : State :=
  match runOf s k rid with
  | none => s
  | some r =>
    let have1 := match r.pos j with | some p => p.count | none => 0
    if r.need ≤ have1 then s
    else
      let x := str s k
      let missing := r.need - have1
      let rank := if r.kind = 5 then 0xFFFF else if r.op = 4 then r.auxRank else r.peerRank
      let s := lateDecision k true
        { part := x.part, sstep := x.req.step, atStep := x.req.step, pos := r.bias + j, rank := rank, idx := r.idx, decision := 5
          stream := k, ordered := r.rc.ordered, amount := missing, seq := j } s
      let s := capEntry r.cap (r.bias + j) 0xFFFF missing 0 (mtcN s - r.base) 5 0 0 [] s
      let s := openPos k rid j s
      if r.op = 2 then modPos k rid j (fun p => { p with short := true, handed := 1 }) s
      else formPos k rid j (modPos k rid j (fun p => { p with short := true }) s)

/-- No landing of this tick or an earlier one is still to be handled: such landings come before a limit acts (R377). -/
def noLandingDue (s : State) (k : Nat) : Bool :=
  s.asms.all (fun a => a.stream != k || (match a.full with | some t => decide (now s < t + 4) | none => true))

/-- The timeout fault of a receiving step (R405), genuine or injected. -/
def timeoutFault (k : Nat) (r : Run) (inj : Bool) (s : State) : State :=
  let s := raise { i := 9, inj := inj, stream := k, part := (str s k).part, code := r.idx } (markInj k inj s)
  faultStream k r.idx 0x18 s

/-- The deadline of a receiving step expires at the end of tick D (R377), with injection point 9. -/
def deadlineExpiry (k rid : Nat) (s : State) : State :=
  match runOf s k rid with
  | none => s
  | some r =>
    if r.receives && !r.expired && acting s r && decide (r.deadline ≤ mtcN s) && noLandingDue s k then
      let s := modRun k rid (fun r => { r with expired := true, limit := r.deadline + 4 * retxWait s }) s
      let f := awlFire 9 none (some k) (some (str s k).part) s
      if f.2 then timeoutFault k r true f.1
      else if r.policy = 0 then f.1
      else settleRun k rid (forEach (List.range r.rc.length) (decideShort k rid) f.1)
    else s

/-- A WAIT step still holds an incomplete position (R308, R405): a contribution is missing, or, where it combines, its local
input. -/
def incomplete (r : Run) : Bool :=
  (List.range r.rc.length).any (fun j => match r.pos j with
    | some p => decide (p.count < r.need) || (r.combines && p.loc.isNone && p.outs.isNone)
    | none => r.combines || decide (0 < r.need))

/-! ### Release of landed records (R383) -/

/-- Release the records of closed steps that have been held 4 × RETX_WAIT, and forget the steps with none left. Landings of
the tick come first (R377). -/
def releaseRecords (s : State) : State :=
  let gone (d : Landed) : Bool :=
    match (str s d.stream).closed.find? (fun c => c.run.rid == d.rid) with
    | some c => decide (max c.due d.due ≤ now s) && noLandingDue s d.stream
    | none => false
  let s := { s with landed := s.landed.filter (fun d => !gone d) }
  { s with streams := s.streams.map (fun x =>
      (x.1, { x.2 with closed := x.2.closed.filter (fun c =>
        decide (now s < c.due) || !noLandingDue s x.1 || s.landed.any (fun d => d.stream == x.1 && d.rid == c.run.rid)) })) }

/-! ### Commands -/

/-- DATA_CELL (R106). -/
def execDataCell (n : Nat) (b : List Byte) (s : State) : Host.Outcome State Fault Refusal := run (takeType n b 1 dataCell) s

/-- SEAL_CELL (R106). -/
def execSealCell (n : Nat) (b : List Byte) (s : State) : Host.Outcome State Fault Refusal := run (takeType n b 2 sealCell) s

/-- CHUNK_LANDING (R107, R384). -/
def execChunkLanding (src k seq : Nat) (s : State) : Host.Outcome State Fault Refusal := run (chunkLanding src k seq) s

/-- SEND_RECEIPT (R387). -/
def execSendReceipt (s : State) : Host.Outcome State Fault Refusal := run sendReceipts s

/-- MULTICAST_CELL (R195): a cell arriving on port `n`. -/
def execMulticastCell (n : Nat) (b : List Byte) (s : State) : Host.Outcome State Fault Refusal :=
  run (whenB (rxOk s n b && wMcast (parseCell b)) (fun s =>
    let r := arrive n b s
    match r.2.1 with
    | .mcast => multicastCell n r.2.2 r.1
    | _ => r.1)) s

/-- TRANSIT_CELL (R170): a cell arriving on port `n` that is not for this engine, or that fails a receive check. -/
def execTransitCell (n : Nat) (b : List Byte) (s : State) : Host.Outcome State Fault Refusal :=
  run (whenB (rxOk s n b) (fun s =>
    let r := arrive n b s
    match r.2.1 with
    | .transit => transit n r.2.2 r.1
    | .gone => r.1
    | _ => s)) s

/-- IDLE_FILL (R95): hop-checked and consumed. -/
def execIdleFill (n : Nat) (b : List Byte) (s : State) : Host.Outcome State Fault Refusal :=
  run (whenB (rxOk s n b && wType (parseCell b) == 0) (fun s => (arrive n b s).1)) s

/-- DEADLINE_EXPIRY (R377). -/
def execDeadlineExpiry (k idx : Nat) (s : State) : Host.Outcome State Fault Refusal :=
  run (fun s => match runAt s k idx with | some r => deadlineExpiry k r.rid s | none => s) s

/-- TIMEOUT (R405). -/
def execTimeout (k idx : Nat) (s : State) : Host.Outcome State Fault Refusal :=
  run (fun s => match runAt s k idx with
    | some r =>
      if r.receives && r.policy == 0 && incomplete r && r.expired && decide (r.limit ≤ mtcN s) && noLandingDue s k then
        timeoutFault k r false s
      else s
    | none => s) s

/-- LANDED_RECORD_RELEASE (R383). -/
def execLandedRecordRelease (s : State) : Host.Outcome State Fault Refusal := run releaseRecords s

end Sys2Proof.Machine
end

