-- ==== Sys2Proof/Machine/Send.lean ====
section
/-! DEFINITION. Sending legs: the SEND and COMBINE_SEND steps, RECEIPTs, and retransmission (Streams, Requests and Lasts,
R283; Deadlines, R378–R379, R398–R404; Routing, R168–R181; Multicast, R218–R219). -/
namespace Sys2Proof.Machine

/-! ### Legs (R378, R379) -/

/-- Change a leg. -/
def modLeg (k rid dest : Nat) (f : Leg → Leg) (s : State) : State :=
  modStr k (fun x => { x with legs := x.legs.map (fun g => if g.rid = rid ∧ g.dest = dest then f g else g) }) s

/-- A leg may start: no earlier leg toward the same engine and stream is left, and the wait after a retransmitted one is
over (R379). -/
def legMay (s : State) (k : Nat) (g : Leg) : Bool :=
  (match (str s k).legs.find? (fun h => h.dest == g.dest && h.str == g.str) with
    | some h => h.rid == g.rid
    | none => true)
    && (str s k).gaps.all (fun e => e.dest != g.dest || e.str != g.str
      || (decide (e.after ≤ now s) && !e.owing.any (resendHeld s e.dest e.str)))

/-- Start a leg. -/
def startLeg (k : Nat) (g : Leg) (s : State) : State :=
  modStr k (fun x => { x with gaps := x.gaps.filter (fun e => e.dest != g.dest || e.str != g.str) })
    (modLeg k g.rid g.dest (fun h => { h with started := true }) s)

/-- The legs of a run: one, or one per member of a multicast step (R378). -/
def legsOf (s : State) (k rid : Nat) : List Leg := (str s k).legs.filter (fun g => g.rid == rid)

/-- Take the legs of a run that is about to send its first chunk. -/
def makeLegs (k : Nat) (r : Run) (s : State) : State :=
  if (legsOf s k r.rid).isEmpty ∧ r.done = 0 then
    let g : Leg :=
      { step := r.idx, rid := r.rid, dest := r.peerId, rank := r.peerRank, str := r.peerStr k, len := r.rc.length
        ring := r.rc.ring, win := r.win }
    let gs := if r.op = 1 ∧ 1 ≤ r.kind then
        r.members.map (fun m => { g with dest := m.2, rank := m.1, mc := r.kind, lace := r.rc.peer, ring := 0 })
      else [g]
    modStr k (fun x => { x with legs := x.legs ++ gs }) s
  else s

/-- A leg with every chunk delivered is finished; the wait after its last retransmission is kept, also of one that has not begun
(R379, R404). -/
def finishLeg (k rid dest : Nat) (s : State) : State :=
  match (str s k).legs.find? (fun g => g.rid == rid && g.dest == dest) with
  | none => s
  | some g =>
    if g.len ≤ g.sent ∧ g.out.isEmpty then
      modStr k (fun x => { x with
        legs := x.legs.filter (fun h => !(h.rid == rid && h.dest == dest))
        gaps := if g.after.isNone ∧ g.owing.isEmpty = true then x.gaps
          else x.gaps.filter (fun e => e.dest != g.dest || e.str != g.str)
            ++ [{ dest := g.dest, str := g.str, after := g.after.getD 0, owing := g.owing }] }) s
    else s

/-! ### When cells begin transmission (R379, R400, R402) -/

/-- The chunk of a leg that a cell belongs to. -/
def legHas (g : Leg) (c : Cell) : Bool :=
  g.str == wStream c && g.out.any (fun o => o.seq == wSeq c)
    && (if wMcast c then g.mc != 0 else g.dest == wDest c)

/-- What the start of a DATA or SEAL cell's transmission means for its chunk. -/
def chunkSent (s : State) (c : Cell) (o : LegChunk) : LegChunk :=
  if o.seq ≠ wSeq c then o
  else if wType c = 2 then { o with due := some (o.due.getD (now s + retxWait s)) }
  else if wIndex c = 0 then { o with limit := some (o.limit.getD (now s + 8 * retxWait s)) }
  else o

/-- A retransmission's first cell begins: the wait of R379 begins with it. -/
def begun (c : Cell) (dest st : Nat) (owing : List Nat) : Bool :=
  wType c == 1 && !wMcast c && dest == wDest c && st == wStream c && owing.contains (wSeq c)

/-- The start of a DATA or SEAL cell's transmission: its chunk's timers, and the wait of R379 at a retransmission. -/
def cellSent (c : Cell) (s : State) : State :=
  if (wType c = 1 ∧ wIndex c = 0) ∨ wType c = 2 then
    let wait := now s + retxWait s
    { s with streams := s.streams.map (fun x => (x.1, { x.2 with
      legs := x.2.legs.map (fun g =>
        let g := if legHas g c then { g with out := g.out.map (chunkSent s c) } else g
        if begun c g.dest g.str g.owing then { g with after := some wait, owing := g.owing.erase (wSeq c) } else g)
      gaps := x.2.gaps.map (fun g =>
        if begun c g.dest g.str g.owing then { g with after := wait, owing := g.owing.erase (wSeq c) } else g) })) }
  else s

/-- A cell offered for injection that does not wait anywhere counts as sent (it goes over LOCAL, or was discarded). -/
def sentUnlessWaiting (c : Cell) (s : State) : State := if cellWaits s c then s else cellSent c s

/-! ### Forming a chunk's cells (R103–R113, R179, R305) -/

/-- The 65 cells of a chunk; `w` gives the welt of a TYPE and INDEX. -/
def chunkCells (w : Nat → Nat → W64) (data sealP : List Byte) : List Cell :=
  (List.range 64).map (fun i => { welt := w 1 i, payload := slice data (64 * i) 64 }) ++ [{ welt := w 2 0, payload := sealP }]

/-- The port an injected unicast cell would leave by; 31 for none. -/
def peekPort (ring : Nat) (c : Cell) (s : State) : Nat :=
  if wDest c = ownId s then 31
  else match (injectRoute ring (setWelt 37 37 s.ep.inj c) s).2 with
    | some (p, _) => p
    | none => 31

/-- The ports an injected multicast cell's copies are made for. -/
def peekMcPorts (c : Cell) (s : State) : List Nat :=
  if wDefl c = 1 then (range 4 18).filter (fun p => rbit s R.tblRowMask (p - 4))
  else if wDefl c = 2 then
    (firstUsable s false (fun _ => false) ((range 0 7).map (fun i => 21 + (wStream c % 8 + i) % 8))).toList
  else match (laceLookup s.ep.inj (laceOf c) 31 s).2 with
    | some (m, _) => maskPorts m
    | none => []

/-- The output port injection point 1 compares with its filter: of several, the one the filter names. -/
def point1Port (s : State) : List Nat → Nat
  | [] => 31
  | p :: t => if (p :: t).contains (fld (awlSeen s (awl s 1)).filter 4 0) then fld (awlSeen s (awl s 1)).filter 4 0 else p

/-- Marks of a buffer chunk: bit 0 written by a NARROW, bit 1 from a chunk that arrived on VC1, bit 2 with folded data among its
contributions (R113, R179). -/
def markOf (s : State) (k sel chunk : Nat) : Nat :=
  match (str s k).marks.find? (fun e => e.1 == (sel, chunk)) with
  | some e => e.2
  | none => 0

/-- Replace the marks of a written chunk. -/
def setMark (k sel chunk v : Nat) (s : State) : State :=
  modStr k (fun x =>
    let l := x.marks.filter (fun e => e.1 != (sel, chunk))
    { x with marks := if v = 0 then l else l ++ [((sel, chunk), v)] }) s

/-- What a chunk to send says of itself in its SEAL. -/
structure Sealed where
  fmt : Nat
  elements : Nat
  count : Nat
  carry : Bool := false
  narrowed : Bool := false
  vc1 : Bool := false
  deriving DecidableEq, Repr

/-- Send leg chunk `j` of a run: its cells are offered in order, and the chunk is outstanding on every leg of the run.
`keep` holds the bytes for retransmission where no input buffer holds them. -/
def sendChunk (k : Nat) (r : Run) (j : Nat) (data : List Byte) (m : Sealed) (keep : Bool) (s : State) : State :=
  let own := ownId s
  let mc := decide (r.op = 1 ∧ 1 ≤ r.kind)
  let dateline := r.rc.ring == 2 && (m.vc1 || r.self == r.dlRank)
  let vc := if !mc && dateline then 1 else 0
  let st := r.peerStr k
  let seq := j % 1024
  let check := crc32c data
  let w (ty i : Nat) : W64 :=
    if mc then mkWelt (if r.kind = 1 then r.rc.peer % 1024 else 0) own 0 0 ty st seq i (r.kind - 1) 0 1
    else mkWelt r.peerId own 0 vc ty st seq i 0 0 0
  let probe : Cell := { welt := w 2 0, payload := [] }
  let f := awlFire 1 (some (point1Port s (if mc then peekMcPorts probe s else [peekPort r.rc.ring probe s]))) (some k) none s
  let s := markInj k f.2 f.1
  let flags := b2n r.late + 2 * b2n m.carry + 4 * b2n m.narrowed + 16 * b2n f.2
  let sp (c : Nat) (fl : Nat) : List Byte := sealBytes c (str s k).req.step r.self m.count m.fmt fl m.elements
  let cells := chunkCells w data (sp (if f.2 then check ^^^ 1 else check) flags)
  let o : LegChunk :=
    { seq := seq, sealP := sp check (flags % 16), check := check, data := if keep then data else []
      addr := inAddr s k r j, vc := vc }
  let s := modStr k (fun x => { x with legs := x.legs.map (fun g =>
    if g.rid = r.rid then { g with sent := g.sent + 1, out := g.out ++ [o] } else g) }) s
  let s := forEach cells (fun c s => if mc then injectMulticast k c s else (inject k r.rc.ring c s).1) s
  let s := forEach cells sentUnlessWaiting s
  modRun k r.rid (fun r => { r with done := j + 1, lastSeal := cells.getLast? }) s

/-- The ports the next chunk of a run would leave by. -/
def runPorts (r : Run) (s : State) : List Nat :=
  if r.op = 1 ∧ 1 ≤ r.kind then
    peekMcPorts { welt := mkWelt (if r.kind = 1 then r.rc.peer % 1024 else 0) (ownId s) 0 0 1 0 0 0 (r.kind - 1) 0 1, payload := [] } s
  else [peekPort r.rc.ring { welt := mkWelt r.peerId (ownId s) 0 0 1 0 0 0 0 0 0, payload := [] } s]

/-- A chunk of another run of the stream waits at the source for room in its leg: the stream does not advance past it (R168,
R378). -/
def windowWaits (s : State) (k rid : Nat) : Bool :=
  s.waits.any (fun w => match w with
    | .window m i _ _ => m == k && i != rid && (str s k).runs.any (fun r => r.rid == i)
        && (str s k).legs.any (fun g => g.rid == i && decide (512 ≤ g.out.length))
    | _ => false)

/-- Whether leg chunk `done` of a run may be sent now: nothing of the stream waits, its legs have begun and have room.
Ticks of waiting for the leg or for its room are counted (R168, R378, R379). -/
def legsReady (k : Nat) (r : Run) (s : State) : State × Bool :=
  let gs := legsOf s k r.rid
  if s.waiting.any (fun w => w.stream == k) || isolated s k || windowWaits s k r.rid then (s, false)
  else if !gs.all (fun g => g.started || legMay s k g) then (s, false)
  else if gs.any (fun g => decide (512 ≤ g.out.length)) then
    (markWait (.window k r.rid r.done (runPorts r s)) s, false)
  else (forEach (gs.filter (fun g => !g.started)) (startLeg k) s, true)

/-! ### SEND and COMBINE_SEND (R283, R304, R305, R311) -/

/-- Send the next chunk of a SEND (R283): `data` is what the accelerator returns for the input chunk. -/
def sendNext (k rid : Nat) (data : List Byte) (s : State) : State :=
  match runOf s k rid with
  | none => s
  | some r =>
    if acting s r && r.op == 1 && r.kind != 4 && decide (r.done < r.rc.length) then
      let a := inAddr s k r r.done
      if gated s k rid a then gateWait k rid a s
      else if readHeld s (some k) a 4096 then s
      else
        let q := legsReady k r (makeLegs k r s)
        if !q.2 then q.1
        else
          let d := localRead (some k) r.win (str s k).part a 4096 data q.1
          match d.2 with
          | .error e => faultMem k r.idx e a d.1
          | .ok b =>
            let s := d.1
            let b := zeroTail (fmtAt s r.rc.inFmt) b
            let i := r.inChunk r.done
            let count := countOf s k r.rc.inSel i
            let mk := markOf s k r.rc.inSel i
            let s := capItem r.cap 4 0 i (crc32c b) count b s
            let m : Sealed :=
              { fmt := r.rc.inFmt, elements := eIn s r, count := count, carry := mk.testBit 2
                narrowed := mk.testBit 0, vc1 := mk.testBit 1 }
            settleRun k rid (sendChunk k r r.done b m false s)
    else s

/-- Send the next combined chunk of a COMBINE_SEND once its output is formed; a short position's not before tick D + 1
(R377). -/
def combineSendNext (k rid : Nat) (s : State) : State :=
  match runOf s k rid with
  | none => s
  | some r =>
    if acting s r && r.op == 4 && decide (r.done < r.rc.length) then
      match r.pos r.done with
      | none => s
      | some p =>
        match p.outs with
        | some [(b, count)] =>
          if p.short && decide (mtcN s ≤ r.deadline) then s
          else
            let q := legsReady k r (makeLegs k r s)
            if !q.2 then q.1
            else
              let s := capItem r.cap 5 2 p.j (crc32c b) count [] q.1
              let m : Sealed :=
                { fmt := r.rc.outFmt, elements := eOut s r, count := count, carry := p.carry
                  vc1 := p.taken.any (fun t => t.vc1) }
              let s := sendChunk k r p.j b m true s
              settleRun k rid (releasePos k rid p.j (modPos k rid p.j (fun p => { p with handed := 1 }) s))
        | _ => s
    else s

/-! ### Retransmission (R400–R402) -/

/-- Change a chunk of a leg. -/
def modChunk (k : Nat) (g : Leg) (seq : Nat) (f : LegChunk → LegChunk) (s : State) : State :=
  modLeg k g.rid g.dest (fun h => { h with out := h.out.map (fun o => if o.seq = seq then f o else o) }) s

/-- The stream faults with RETX_EXHAUSTED (R402). -/
def exhausted (k : Nat) (g : Leg) (o : LegChunk) (inj : Bool) (s : State) : State :=
  let s := raise { i := 10, inj := inj, stream := k, part := (str s k).part, engine := g.dest, code := g.step, addr := o.seq }
    (markInj k inj s)
  faultStream k g.step 0x17 s

/-- Send a chunk's cells again, by unicast to the leg's own engine (R401): from the input buffer as it stands, or from the
combined bytes kept; `data` is what the accelerator returns. -/
def resend (k : Nat) (g : Leg) (o : LegChunk) (counted : Bool) (data : List Byte) (s : State) : State :=
  let d : State × Except Nat (List Byte) :=
    if o.data.isEmpty then localRead (some k) g.win (str s k).part o.addr 4096 data s else (s, .ok o.data)
  match d.2 with
  | .error e => faultMem k g.step e o.addr d.1
  | .ok b =>
    let s := if counted then cnt (R.strRetxCount k) d.1 else d.1
    let b := if o.data.isEmpty then zeroTail (fmtAt s (sFormat o.sealP)) b else b
    let check := crc32c b
    let s := modLeg k g.rid g.dest (fun h => { h with owing := h.owing.filter (· != o.seq) ++ [o.seq] }) s
    let s := modChunk k g o.seq (fun o => { o with
      resent := true, uncounted := false, due := none, check := check
      retries := if counted then o.retries + 1 else o.retries }) s
    let w (ty i : Nat) : W64 := mkWelt g.dest (ownId s) 0 o.vc ty g.str o.seq i 0 0 0
    let cells := chunkCells w b (patch o.sealP 0 (bytesBE 4 check))
    let s := forEach cells (fun c s => (inject k g.ring c s).1) s
    forEach cells sentUnlessWaiting s

/-- Retransmit a chunk: a fourth counted retransmission exhausts, and a counted one is an opportunity of point 10. -/
def retransmit (k : Nat) (g : Leg) (o : LegChunk) (counted : Bool) (data : List Byte) (s : State) : State :=
  if counted && decide (3 ≤ o.retries) then exhausted k g o false s
  else
    let f := if counted then awlFire 10 none (some k) (some (str s k).part) s else (s, false)
    if f.2 then exhausted k g o true f.1 else resend k g o counted data f.1

/-! ### RECEIPTs (R398–R400, Table 12.5) -/

/-- A chunk reaches its final outcome "delivered". -/
def delivered (k : Nat) (g : Leg) (seq : Nat) (s : State) : State :=
  finishLeg k g.rid g.dest
    (modLeg k g.rid g.dest (fun h => { h with out := h.out.filter (fun o => o.seq != seq) }) s)

/-- The leg and chunk a RECEIPT matches (R398). -/
def receiptFor (s : State) (c : Cell) : Option (Leg × LegChunk) :=
  let b := c.payload
  (str s (wStream c)).legs.findSome? (fun g =>
    if g.dest = wSrc c ∧ (g.mc = 0 ∨ fieldBE b 8 2 = g.rank) then
      (g.out.find? (fun o => o.seq == wSeq c && sStep o.sealP == fieldBE b 4 4)).map (fun o => (g, o))
    else none)

/-- A stale or corrupted RECEIPT (R398, R399). -/
def staleReceipt (s : State) : State := cnt R.strStaleReceiptCount s

/-- A RECEIPT at the sender. -/
def receiptTake (data : List Byte) (c : Cell) (s : State) : State :=
  let b := c.payload
  let k := wStream c
  match receiptFor s c with
  | none => staleReceipt s
  | some (g, o) =>
    let verdict := fieldBE b 10 1
    let flags := (b.getD 11 0).toNat
    let inc := fieldBE b 20 1 % 16
    let bad := decide (verdict > 5) || (decide (verdict ≤ 1) && fieldBE b 0 4 != o.check)
      || (match g.inc with | some i => i != inc | none => false)
    let s := modLeg k g.rid g.dest (fun h => { h with inc := some (h.inc.getD inc) }) s
    if bad then staleReceipt s
    else
      let s := markInj k (flags.testBit 2) s
      match verdict with
      | 0 =>
        if flags.testBit 0 && !o.resent then modChunk k g o.seq (fun o => { o with uncounted := true }) s
        else delivered k g o.seq s
      | 1 => if flags.testBit 0 then s else delivered k g o.seq s
      | 2 => retransmit k g o true data s
      | 3 => faultStream k g.step 0x1C s
      | _ => s

/-! ### Cells that waited and are discarded -/

/-- Sending steps whose last cell has left its queue end (R283). -/
def settleSends (s : State) : State :=
  forEach s.streams (fun x s => forEach x.2.runs (fun r s => if r.lastSeal.isSome then settleRun x.1 r.rid s else s) s) s

/-- A cell waits at its source, or in some queue. -/
def cellHeld (s : State) (c : Cell) : Bool :=
  cellWaits s c || s.ports.any (fun p => (p.2.qVc2 ++ p.2.qVc3).any (fun d => sameCell d c))

/-- Cells that waited before and neither wait nor are queued now were discarded: like every discarded cell of a chunk they
count as sent, so that the chunk's timer runs (R400). -/
def settleLost (old : List Waiting) (s : State) : State :=
  match (old.filter (fun w => !cellHeld s w.cell)).map (fun w => w.cell) with
  | [] => s
  | l => settleSends (forEach l cellSent s)

/-! ### Commands -/

/-- INJECTION_ADMIT (R168, R178, R179, R211): what stream `k` waits with is offered again. -/
def execInjectionAdmit (k : Nat) (s : State) : Host.Outcome State Fault Refusal := run (fun s => settleLost s.waiting (admitNext k s)) s

/-- HOLD_EXPIRED (R209, R211). -/
def execHoldExpired (s : State) : Host.Outcome State Fault Refusal := run (fun s => settleLost s.waiting (expireHeld s)) s

/-- The chunk of a stream's leg toward an engine, by SEQ. -/
def chunkAt (s : State) (k dest seq : Nat) : Option (Leg × LegChunk) :=
  (str s k).legs.findSome? (fun g =>
    if g.dest = dest then (g.out.find? (fun o => o.seq == seq)).map (fun o => (g, o)) else none)

/-- A tick of the kind `some t` has come. -/
def timeUp (s : State) (t : Option Nat) : Bool := match t with | some t => decide (t ≤ now s) | none => false

/-- SEND (R283): the next chunk, or for kind BOARD the next PUT. -/
def execSend (k idx : Nat) (data : List Byte) (s : State) : Host.Outcome State Fault Refusal :=
  run (fun s => match runAt s k idx with
    | some r => if r.op = 1 ∧ r.kind = 4 then accessNext k r.rid data s else sendNext k r.rid data s
    | none => s) s

/-- COMBINE_SEND (R283). -/
def execCombineSend (k idx : Nat) (s : State) : Host.Outcome State Fault Refusal :=
  run (fun s => match runAt s k idx with | some r => combineSendNext k r.rid s | none => s) s

/-- LEG_START (R379): the first leg of stream `k` toward an engine that may start. -/
def execLegStart (k dest : Nat) (s : State) : Host.Outcome State Fault Refusal :=
  run (fun s => match (str s k).legs.find? (fun g => g.dest == dest && !g.started && legMay s k g) with
    | some g => startLeg k g s
    | none => s) s

/-- RECEIPT (R400). -/
def execReceipt (n : Nat) (b data : List Byte) (s : State) : Host.Outcome State Fault Refusal :=
  run (takeType n b 3 (receiptTake data)) s

/-- RETX_TIMER (R400): the timer of a chunk has expired. -/
def execRetxTimer (k dest seq : Nat) (data : List Byte) (s : State) : Host.Outcome State Fault Refusal :=
  run (fun s => match chunkAt s k dest seq with
    | some (g, o) => if timeUp s o.due && !timeUp s o.limit then retransmit k g o (!o.uncounted) data s else s
    | none => s) s

/-- RETX_EXHAUSTED (R402). -/
def execRetxExhausted (k dest seq : Nat) (s : State) : Host.Outcome State Fault Refusal :=
  run (fun s => match chunkAt s k dest seq with
    | some (g, o) =>
      if timeUp s o.limit || (timeUp s o.due && !o.uncounted && decide (3 ≤ o.retries)) then exhausted k g o false s else s
    | none => s) s

end Sys2Proof.Machine
end

