-- ==== Sys2Proof/Machine/Combine.lean ====
section
/-! DEFINITION. Steps that write buffers: RECV, RECV_COMBINE, COPY, NARROW and WIDEN, the additions and conversions of the
combiners, and waits for slots and blocks (Building Collectives, R305–R311; Combiners, R316–R318, R346–R349, R633). -/
namespace Sys2Proof.Machine

/-! ### Writing output chunks (R306, R309, R346) -/

/-- Write output chunk `c` (counted from OUT_OFFSET) of a run: its bytes, its count, its marks and its capture item. -/
def writeOut (k : Nat) (r : Run) (c count marks : Nat) (b : List Byte) (s : State) : State :=
  let i := r.rc.outOff + c
  let a := outAddr s k r i
  let s := setMark k r.rc.outSel i marks (setCount k r.rc.outSel i count s)
  let s := capItem r.cap 5 1 i (crc32c b) count [] s
  orFault k r.idx a (localWrite (some k) r.win (str s k).part a b (.step k r.rid r.idx) s)

/-- A position whose output may not be handed on yet: short, and its deadline tick has not passed (R377). -/
def heldBack (s : State) (r : Run) (p : Pos) : Bool := p.short && decide (mtcN s ≤ r.deadline)

/-- The lowest position a test picks. -/
def lowestPos (f : Pos → Bool) : List Pos → Option Pos
  | [] => none
  | p :: t =>
    match lowestPos f t with
    | none => if f p then some p else none
    | some q => if f p && decide (p.j ≤ q.j) then some p else some q

/-- RECV: write the lowest position taken and not yet written (R306). -/
def recvNext (k rid : Nat) (s : State) : State :=
  match runOf s k rid with
  | none => s
  | some r =>
    if acting s r && r.op == 2 && r.kind != 4 then
      match lowestPos (fun p => !p.taken.isEmpty && p.outs.isNone && !p.short) r.poss with
      | none => s
      | some p =>
        match p.taken with
        | c :: _ =>
          let s := writeOut k r (r.bias + p.j) c.count (2 * b2n c.vc1 + 4 * b2n c.carry) c.data s
          let s := modPos k rid p.j (fun p => { p with outs := some [([], c.count)], handed := 1 }) s
          settleRun k rid (releasePos k rid p.j s)
        | [] => s
    else s

/-- The positions of a run that reach output chunk `c`. -/
def posesOf (s : State) (r : Run) (c : Nat) : List Nat :=
  (List.range r.rc.length).filter (fun j => decide (firstOut s r j ≤ c ∧ c < endOut s r j))

/-- The first output chunk, from `c` upward, whose positions are all formed and none handed on; `n` bounds the search. -/
def gatherChunk (s : State) (r : Run) : Nat → Nat → Option Nat
  | 0, _ => none
  | n + 1, c =>
    let l := posesOf s r c
    let ready := l.all (fun j => match r.pos j with
      | some p => p.outs.isSome && p.handed == 0 && !heldBack s r p
      | none => false)
    if !l.isEmpty && ready then some c else gatherChunk s r n (c + 1)

/-- An output chunk of `eo` elements from its parts, each with its first element's place (R346). -/
def gatherBytes (l : List (Nat × List Byte)) (eo : Nat) : List Byte :=
  l.foldl (fun b x => patch b (4096 * x.1 / eo) x.2) (List.replicate 4096 (0 : Byte))

/-- RECV_COMBINE: hand on the next formed output chunk (R306, R346, R348). -/
def recvCombineNext (k rid : Nat) (s : State) : State :=
  match runOf s k rid with
  | none => s
  | some r =>
    if acting s r && r.op == 3 then
      let ei := eIn s r
      let eo := eOut s r
      if eo ≤ ei then
        match lowestPos (fun p => match p.outs with
          | some o => decide (p.handed < o.length) && !heldBack s r p
          | none => false) r.poss with
        | none => s
        | some p =>
          let o := (p.outs.getD []).getD p.handed ([], 1)
          let s := writeOut k r (firstOut s r p.j + p.handed) o.2 (4 * b2n p.carry) o.1 s
          let s := modPos k rid p.j (fun p => { p with handed := p.handed + 1 }) s
          let s := if (p.outs.getD []).length ≤ p.handed + 1 then releasePos k rid p.j s else s
          settleRun k rid s
      else
        let n := endOut s r (r.rc.length - 1) - firstOut s r 0
        match gatherChunk s r n (firstOut s r 0) with
        | none => s
        | some c =>
          let l := posesOf s r c
          let os := l.filterMap (fun j => (r.pos j).bind (fun p => (p.outs.getD []).head?.map (fun o => (j, o))))
          let bytes := gatherBytes (os.map (fun x => ((r.bias + x.1) * ei - c * eo, x.2.1))) eo
          let counts := os.map (fun x => x.2.2)
          let low := counts.foldl min (counts.headD 1)
          let s := if counts.all (· == low) then s else ev R.cmbEvents 3 s
          let carry := l.any (fun j => match r.pos j with | some p => p.carry | none => false)
          let s := writeOut k r c low (4 * b2n carry) bytes s
          let s := forEach l (fun j s => releasePos k rid j (modPos k rid j (fun p => { p with handed := 1 }) s)) s
          settleRun k rid s
    else s

/-! ### COPY, NARROW and WIDEN (R283, R349) -/

/-- Read the next local input chunk of a run, at the gate of R372. -/
def readInput (k : Nat) (r : Run) (j : Nat) (data : List Byte) (s : State) : State × Option (List Byte × Nat) :=
  let a := inAddr s k r j
  if gated s k r.rid a then (gateWait k r.rid a s, none)
  else if readHeld s (some k) a 4096 then (s, none)
  else
    let d := localRead (some k) r.win (str s k).part a 4096 data s
    match d.2 with
    | .error e => (faultMem k r.idx e a d.1, none)
    | .ok b =>
      let i := r.inChunk j
      let count := countOf d.1 k r.rc.inSel i
      (capItem r.cap 4 0 i (crc32c b) count b d.1, some (b, count))

/-- COPY: one chunk. -/
def copyNext (k rid : Nat) (data : List Byte) (s : State) : State :=
  match runOf s k rid with
  | none => s
  | some r =>
    if acting s r && r.op == 5 && decide (r.done < r.rc.length) then
      let d := readInput k r r.done data s
      match d.2 with
      | none => d.1
      | some (b, count) =>
        let mk := markOf d.1 k r.rc.inSel (r.inChunk r.done)
        let s := writeOut k r (r.bias + r.done) count mk b d.1
        settleRun k rid (modRun k rid (fun r => { r with done := r.done + 1 }) s)
    else s

/-- NARROW or WIDEN: read the next input chunk, which then waits for its conversion. -/
def convertRead (op k rid : Nat) (data : List Byte) (s : State) : State :=
  match runOf s k rid with
  | none => s
  | some r =>
    if acting s r && r.op == op && decide (r.done < r.rc.length) then
      let d := readInput k r r.done data s
      match d.2 with
      | none => d.1
      | some x =>
        modRun k rid (fun r => { r with done := r.done + 1, poss := r.poss ++ [{ j := r.done, loc := some x, locMark := markOf d.1 k r.rc.inSel (r.inChunk r.done), first := mtcN s }] }) d.1
    else s

/-- The results of output chunk `c` of a conversion, zero outside the step's elements. -/
def convertChunk (s : State) (r : Run) (seed c : Nat) : Made :=
  let fi := fmtAt s r.rc.inFmt
  let fo := fmtAt s r.rc.outFmt
  let ei := perChunk fi
  let eo := perChunk fo
  let chunks : Tbl Nat := r.poss.map (fun p => (p.j, match p.loc with | some (b, _) => natLE b | none => 0))
  let lo := r.bias * ei
  let hi := (r.bias + r.rc.length) * ei
  let n := min eo (hi - c * eo)
  makeChunk fo r.rounding ((List.range n).map (fun i =>
    let e := c * eo + i
    let v := if lo ≤ e then chunkElem fi (tget 0 (e / ei - r.bias) chunks) (e % ei) else Val.zero
    (resOf v, if r.rounding = 2 then rndWord seed 2 r.idx (r.rc.outOff * eo + e) else 0)))

/-- Convert: every output chunk all of whose input has been read, and whose last input is position `j`, is written (R349). -/
def convertOp (k rid j : Nat) (s : State) : State :=
  match runOf s k rid with
  | none => s
  | some r =>
    if (r.op == 6 || r.op == 7) && (r.pos j).isSome then
      let cs := (range (firstOut s r j) (endOut s r j - 1)).filter (fun c =>
        !r.acked.contains c && (posesOf s r c).all (fun i => decide (i ≤ j) && (r.pos i).isSome))
      let s := forEach cs (fun c s =>
        let m := convertChunk s r (str s k).req.seed c
        let first := (max (c * eOut s r) (r.bias * eIn s r)) / eIn s r - r.bias
        let count := match r.pos first with | some { loc := some (_, n), .. } => n | _ => 1
        modRun k rid (fun r => { r with acked := r.acked ++ [c] })
          (writeOut k r c count (b2n (r.op == 6) + 4 * b2n ((posesOf s r c).any (fun i => match r.pos i with
            | some p => p.locMark.testBit 2
            | none => false))) m.bytes (madeEvents m s))) s
      let s := match runOf s k rid with
        | some r =>
          modRun k rid (fun q => { q with poss := q.poss.filter (fun p =>
            (range (firstOut s r p.j) (endOut s r p.j - 1)).any (fun c => !r.acked.contains c)) }) s
        | none => s
      settleRun k rid s
    else s

/-! ### Additions (R318, R333, R633) -/

/-- Add the local input to a position of a combining step: it is read when it is added. -/
def addLocal (k rid j : Nat) (data : List Byte) (s : State) : State :=
  match runOf s k rid with
  | none => s
  | some r =>
    if acting s r && r.combines && decide (j < r.rc.length) && ((r.pos j).isSome || r.need == 0) then
      let s := openPos k rid j s
      match (runOf s k rid).bind (fun q => q.pos j) with
      | none => s
      | some p =>
        if p.comb.isNone || !p.blk || p.loc.isSome || p.outs.isSome || !orderReady r p r.self then s
        else
          let d := readInput k r j data s
          match d.2 with
          | none => d.1
          | some x =>
            formPos k rid j (modPos k rid j (fun p => { p with loc := some x, locMark := markOf d.1 k r.rc.inSel (r.inChunk j) }) d.1)
    else s

/-- Add the landed contribution of a rank to a position; its staging block is free. -/
def addContrib (k rid j rank : Nat) (s : State) : State :=
  match runOf s k rid with
  | none => s
  | some r =>
    match r.pos j with
    | none => s
    | some p =>
      if r.combines && p.comb.isSome && p.blk && p.outs.isNone && orderReady r p rank
          && p.taken.any (fun t => t.rank == rank && !t.added) then
        formPos k rid j (giveBlock k (modPos k rid j (fun p => { p with
          taken := p.taken.map (fun t => if t.rank = rank then { t with added := true } else t) }) s))
      else s

/-! ### Waits for slots and blocks (R293, R317) -/

/-- Positions waiting for slots: the landing timestamp of their first chunk, stream, run and position. -/
def slotQueue (s : State) : List (Nat × Nat × Nat × Nat) :=
  s.streams.flatMap (fun x => x.2.runs.flatMap (fun r =>
    r.poss.filterMap (fun p => if p.slotWait then some (p.first, x.1, r.rid, p.j) else none)))

/-- The earliest of them. -/
def earliest : List (Nat × Nat × Nat × Nat) → Option (Nat × Nat × Nat × Nat)
  | [] => none
  | a :: t =>
    match earliest t with
    | none => some a
    | some b => if a.1 ≤ b.1 then some a else some b

/-- Grant slots to waiting positions in order of first landing while they can be had; `n` bounds how many. -/
def grantSlots : Nat → State → State
  | 0, s => s
  | n + 1, s =>
    match earliest (slotQueue s) with
    | none => s
    | some (_, k, rid, j) =>
      let t := trySlots true k rid j s
      if (slotQueue t).length < (slotQueue s).length then grantSlots n t else s

/-- Give waiting positions their blocks, in order (R293); the wait is over once none is without, and of a SHARD_UPDATE once the
three blocks of its next chunk are free (R365). -/
def grantBlocks (k rid : Nat) (s : State) : State :=
  match runOf s k rid with
  | none => s
  | some r =>
    let s := forEach (blockLess r) (tryBlock k rid) s
    match runOf s k rid with
    | some q => if (if q.op = 13 then decide (3 ≤ blocksFree s k) else (blockLess q).isEmpty) then modRun k rid (fun q => { q with blockWait := none }) s else s
    | none => s

/-- A block is still missing at the deadline the wait is bounded by, or RETX_WAIT ticks after a wait that is not (R293, R365). -/
def blockOver (s : State) (r : Run) : Bool :=
  match r.blockWait with
  | some (_, true) => decide (r.deadline ≤ mtcN s)
  | some (t, false) => decide (t ≤ now s)
  | none => false

/-! ### Commands -/

/-- A meaning about the oldest run of step `idx` of stream `k`. -/
def onRun (k idx : Nat) (f : Run → State → State) (s : State) : State :=
  match runAt s k idx with
  | some r => f r s
  | none => s

/-- RECV (R283): the next chunk written, or for kind BOARD the next GET. -/
def execRecv (k idx : Nat) (s : State) : Host.Outcome State Fault Refusal :=
  run (onRun k idx (fun r s => if r.op = 2 ∧ r.kind = 4 then accessNext k r.rid [] s else recvNext k r.rid s)) s

/-- RECV_COMBINE (R283, R306): the next output chunk written. -/
def execRecvCombine (k idx : Nat) (s : State) : Host.Outcome State Fault Refusal :=
  run (onRun k idx (fun r s => recvCombineNext k r.rid s)) s

/-- COPY (R283). -/
def execCopy (k idx : Nat) (data : List Byte) (s : State) : Host.Outcome State Fault Refusal :=
  run (onRun k idx (fun r s => copyNext k r.rid data s)) s

/-- NARROW (R349). -/
def execNarrow (k idx : Nat) (data : List Byte) (s : State) : Host.Outcome State Fault Refusal :=
  run (onRun k idx (fun r s => convertRead 6 k r.rid data s)) s

/-- WIDEN (R349). -/
def execWiden (k idx : Nat) (data : List Byte) (s : State) : Host.Outcome State Fault Refusal :=
  run (onRun k idx (fun r s => convertRead 7 k r.rid data s)) s

/-- SLOT_GRANT (R317). -/
def execSlotGrant (s : State) : Host.Outcome State Fault Refusal :=
  run (fun s => grantSlots (slotQueue s).length s) s

/-- STAGING_BLOCK_GRANT (R293). -/
def execStagingBlockGrant (k idx : Nat) (s : State) : Host.Outcome State Fault Refusal :=
  run (onRun k idx (fun r s => grantBlocks k r.rid s)) s

/-- STAGING_QUOTA_TIMEOUT (R293, R365). -/
def execStagingQuotaTimeout (k idx : Nat) (s : State) : Host.Outcome State Fault Refusal :=
  run (onRun k idx (fun r s =>
    if blockOver s r then
      (match runOf (grantBlocks k r.rid s) k r.rid with
      | some q => if q.blockWait.isSome then faultStream k idx 0x08 s else grantBlocks k r.rid s
      | none => s)
    else s)) s

end Sys2Proof.Machine
end

