-- ==== Sys2Proof/Machine/Shard.lean ====
section
/-! DEFINITION. SHARD_UPDATE: the update block, its constants, chunks in progress, the arithmetic of an element, and the
writes (The Shard Update); and the operations of a combiner (R633). -/
namespace Sys2Proof.Machine

/-! ### The update block (R357–R359) -/

/-- The binary32 value at an offset of a block. -/
def f32At (b : List Byte) (o : Nat) : Val := elemVal fp32 (fieldLE b o 4)

def ubFlags (b : List Byte) : Nat := (b.getD 28 0).toNat
def ubSkip (b : List Byte) : Bool := (ubFlags b).testBit 2
def ubL2 (b : List Byte) : Bool := (ubFlags b).testBit 1
def ubMaster (b : List Byte) : Nat := fieldLE b 32 6
def ubMoment (b : List Byte) : Nat := fieldLE b 38 6

/-- 0 ≤ v < 1. -/
def unitRange (v : Val) : Bool := v.finite && !ltFin v .zero && ltFin v f32One

/-- Not below 0, and finite. -/
def notBelow (v : Val) : Bool := v.finite && !ltFin v .zero

/-- The block meets no condition of Table 11.3. -/
def ubOk (b : List Byte) : Bool :=
  (f32At b 0).finite && notBelow (f32At b 4) && unitRange (f32At b 8) && unitRange (f32At b 12)
    && ((f32At b 16).finite && ltFin .zero (f32At b 16)) && notBelow (f32At b 20)
    && (ubSkip b || fieldLE b 24 4 != 0) && decide (ubFlags b < 8) && (fieldLE b 29 3 == 0)
    && decide (ubMaster b % 64 = 0) && decide (ubMoment b % 64 = 0) && (fieldLE b 44 16 == 0)
    && (fieldLE b 60 4 == crc32c (b.take 60))

/-- pow(β, t) by binary exponentiation, most significant bit first (R359). -/
def fpow (beta : Val) (t : Nat) : Val :=
  ((List.range 32).reverse).foldl (fun p i =>
    let p := fmul p p
    if t.testBit i then fmul p beta else p) f32One

/-- The per-step constants (R359). -/
structure Consts where
  scale : Val
  beta1 : Val
  beta2 : Val
  c1 : Val
  c2 : Val
  wd : Val
  bc1 : Val
  bc2 : Val
  alpha : Val
  eps2 : Val
  lam : Val
  l2 : Bool
  deriving DecidableEq, Repr

/-- The constants of an update block. -/
def constsOf (b : List Byte) : Consts :=
  let beta1 := f32At b 8
  let beta2 := f32At b 12
  let t := fieldLE b 24 4
  let corr := (ubFlags b).testBit 0
  let bc1 := if corr then fsub f32One (fpow beta1 t) else f32One
  let bc2 := if corr then fsub f32One (fpow beta2 t) else f32One
  let q2 := fsqrt bc2
  { scale := f32At b 0, beta1 := beta1, beta2 := beta2, c1 := fsub f32One beta1, c2 := fsub f32One beta2
    wd := f32At b 20, bc1 := bc1, bc2 := bc2, alpha := fdiv (fmul (f32At b 4) q2) bc1, eps2 := fmul (f32At b 16) q2
    lam := if ubL2 b then .zero else fmul (f32At b 4) (f32At b 20), l2 := ubL2 b }

/-- The constants are usable (R359). -/
def constsOk (c : Consts) : Bool := !c.bc1.isZero && !c.bc2.isZero && !c.eps2.isZero && c.alpha.finite

/-- Test a list of local ranges in order: the status of the first failure and its address (R361). -/
def rangesTest (x : Option Nat) (ws : List Win) (n : Nat) : List (Nat × Nat × WKind) → State → State × Option (Nat × Nat)
  | [], s => (s, none)
  | (a, len, k) :: t, s =>
    let r := rangeTest x ws n a len k s
    match r.2 with
    | some e => (r.1, some (e, a))
    | none => rangesTest x ws n t r.1

/-- Address of master chunk, and of the moment group, of gradient chunk `j` (R360). -/
def masterAddr (r : Run) (ub : List Byte) (j : Nat) : Nat := ubMaster ub + (r.bias + j) * 4096
def momentAddr (r : Run) (ub : List Byte) (j : Nat) : Nat := ubMoment ub + (r.bias + j) * 2112

/-- The ranges a step uses (R361, R371). -/
def shardRanges (s : State) (k : Nat) (r : Run) (ub : List Byte) : List (Nat × Nat × WKind) :=
  let n := r.rc.length
  let c0 := firstOut s r 0
  let copy := [(outAddr s k r (r.rc.outOff + c0), (endOut s r (n - 1) - c0) * 4096, WKind.write)]
  let m := masterAddr r ub 0
  if ubSkip ub then (m, n * 4096, WKind.read) :: copy
  else
    [(inAddr s k r 0, n * 4096, WKind.read), (m, n * 4096, WKind.read), (m, n * 4096, WKind.write),
     (momentAddr r ub 0, n * 2112, WKind.read), (momentAddr r ub 0, n * 2112, WKind.write)] ++ copy

/-- The update block read completes (R357–R361). -/
def updateBlockRead (k rid : Nat) (data : List Byte) (s : State) : State :=
  match runOf s k rid with
  | none => s
  | some r =>
    if acting s r && r.op == 13 && r.ub.isNone then
      let n := (str s k).part
      let a := bufOf s k (r.rc.aux % 4) + r.rc.peer * 64
      if readHeld s (some k) a 64 then s
      else
      let d := localRead (some k) r.win n a 64 data s
      match d.2 with
      | .error e => faultMem k r.idx e a d.1
      | .ok b =>
        let s := d.1
        if !ubOk b || !(ubSkip b || constsOk (constsOf b)) then faultStream k r.idx 0x1B (ev R.cmbShdEvents 1 s)
        else
          let t := rangesTest (some k) r.win n (shardRanges s k r b) s
          match t.2 with
          | some (e, ra) => faultMem k r.idx e ra t.1
          | none =>
            let s := if ubSkip b then ev R.cmbShdEvents 3 t.1 else t.1
            capUb r.cap (fieldLE b 60 4) (modRun k rid (fun r => { r with ub := some b, blockWait := none }) s)
    else s

/-! ### Beginning a chunk (R364, R365) -/

/-- Read one operand of a chunk, with its capture item: `target` of Table 17.9. -/
def shardRead (k : Nat) (r : Run) (a len target n : Nat) (data : List Byte) (s : State) : State × Except Nat (List Byte) :=
  let d := localRead (some k) r.win (str s k).part a len data s
  match d.2 with
  | .error e => (faultMem k r.idx e a d.1, .error e)
  | .ok b =>
    let count := if target = 3 then countOf d.1 k r.rc.inSel n else 1
    (capItem r.cap 4 target n (crc32c b) count b d.1, .ok b)

/-- Begin the next chunk of a SHARD_UPDATE: `grad`, `master` and `mom` are what the accelerator returns. -/
def shardBegin (k rid : Nat) (grad master mom : List Byte) (s : State) : State :=
  match runOf s k rid with
  | none => s
  | some r =>
    match r.ub with
    | none => s
    | some ub =>
      let j := r.nextShard
      let paced := match r.lastBegin with | some t => decide (t + 4 ≤ now s) | none => true
      if !(acting s r && r.op == 13 && decide (j < r.rc.length) && decide (j < leadCount r.rc.length r.acked + 8) && paced) then s
      else if !ubSkip ub && gated s k rid (inAddr s k r j) then gateWait k rid (inAddr s k r j) s
      else if readHeld s (some k) (masterAddr r ub j) 4096
          || (!ubSkip ub && (readHeld s (some k) (inAddr s k r j) 4096 || readHeld s (some k) (momentAddr r ub j) 2112)) then s
      else if blocksFree s k < 3 then modRun k rid (Run.waitBlock s) s
      else
        match pickCombiner s 1 with
        | none => ev R.cmbEvents 4 (markWait (.slot k rid j) s)
        | some c =>
          let skip := ubSkip ub
          let a := if skip then (s, .ok []) else shardRead k r (inAddr s k r j) 4096 3 (r.inChunk j) grad s
          match a.2 with
          | .error _ => a.1
          | .ok g =>
            let b := shardRead k r (masterAddr r ub j) 4096 4 (r.bias + j) master a.1
            match b.2 with
            | .error _ => b.1
            | .ok w =>
              let m := if skip then (b.1, .ok []) else shardRead k r (momentAddr r ub j) 2112 5 (r.bias + j) mom b.1
              match m.2 with
              | .error _ => m.1
              | .ok mo =>
                takeBlock k <| takeBlock k <| takeBlock k
                  (modRun k rid (fun r => { r with
                    nextShard := j + 1, lastBegin := some (now s), blockWait := none
                    shards := r.shards ++ [{ j := j, grad := g, master := w, mom := mo, comb := c }] }) m.1)

/-! ### The arithmetic of an element (R366–R368) -/

/-- What an element's update gives: new master pattern, m1 and r1 to store, and whether it was non-finite. -/
structure EOut where
  w : Nat
  m : Val
  r : Val
  bad : Bool
  deriving DecidableEq, Repr

/-- The value, or +0 where it is not finite. -/
def orZero (v : Val) : Val := if v.finite then v else .zero

/-- One element: gradient sum and master as patterns, stored moments as values (R367, R368). -/
def updateElem (c : Consts) (gp wp : Nat) (ms rs : Val) : EOut :=
  let w := elemVal fp32 wp
  let g0 := fmul c.scale (elemVal fp32 gp)
  let g := if c.l2 then ffma c.wd w g0 else g0
  let m0 := toF32 (resOf ms)
  let r0 := toF32 (resOf rs)
  let v0 := fmul r0 r0
  let m1 := ffma c.beta1 m0 (fmul c.c1 g)
  let v1 := ffma c.beta2 v0 (fmul c.c2 (fmul g g))
  let r1 := fsqrt v1
  let u := fdiv m1 (fadd r1 c.eps2)
  let w1 := ffma (fneg c.lam) w w
  let w2 := ffma (fneg c.alpha) u w1
  if g.finite && w.finite && m0.finite && r0.finite && m1.finite && v1.finite && w2.finite then
    { w := f32Bits w2, m := m1, r := r1, bad := false }
  else { w := wp, m := orZero m0, r := orZero r0, bad := true }

/-- A stored moment element: part 0 m, part 1 r (R362). -/
def momentElem (mom : List Byte) (part k : Nat) : Val :=
  let s := (mom.getD (2048 + 32 * part + k / 32) 0).toNat
  if s = 255 then .nan else scaleVal s (elemVal { mxfp8 with scale := false, block := false } (mom.getD (1024 * part + k) 0).toNat)

/-- A part of a moment group from its unrounded values (R369, R370): element bytes, scale bytes, and its events. Every value above
448 in its block is stored as 448 and counted (The Shard Update, the largest element of a moment block). -/
def storeMoments (seed purpose step e0 : Nat) (l : List Val) : List Byte × List Byte × Made :=
  let rs := (List.range l.length).zip l |>.map (fun x => (resOf x.2, rndWord seed purpose step (e0 + x.1)))
  let bl := blocks32 32 rs
  let bs := bl.map (roundBlock mxfp8 2)
  let above (l : List (Res × Nat)) : Nat :=
    let x := (blockX mxfp8 (l.map (·.1))).1
    l.countP (fun p => aboveMax mxfp8 (divPow x p.1))
  (bs.flatMap (fun b => b.pats.map (BitVec.ofNat 8)), bs.map (fun b => BitVec.ofNat 8 b.scale),
    { bytes := [], sat := ((bl.zip bs).map (fun p => if p.2.nanz = 0 then above p.1 else 0)).sum
      nanz := (bs.map (·.nanz)).sum, clamp := bs.any (·.clamp) })

/-- What a SHARD_UPDATE chunk's computation gives. -/
structure ShardOut where
  master : List Byte
  mom : List Byte
  /-- events of the moments' rounding -/
  m : Made
  v : Made
  /-- non-finite elements -/
  bad : Nat
  deriving DecidableEq, Repr

/-- The new master chunk and moment group of a chunk whose first element is `e0` of the shard (R364, R366–R370). -/
def shardResult (ub : List Byte) (seed step e0 : Nat) (grad master mom : List Byte) : ShardOut :=
  let c := constsOf ub
  let es := (List.range 1024).map (fun i =>
    updateElem c (fieldLE grad (4 * i) 4) (fieldLE master (4 * i) 4) (momentElem mom 0 i) (momentElem mom 1 i))
  let m := storeMoments seed 0x10 step e0 (es.map (·.m))
  let v := storeMoments seed 0x11 step e0 (es.map (·.r))
  { master := es.flatMap (fun e => bytesLE 4 e.w), mom := m.1 ++ v.1 ++ m.2.1 ++ v.2.1, m := m.2.2, v := v.2.2
    bad := es.countP (·.bad) }

/-- The counts and events of a computed chunk. -/
def shardEvents (k : Nat) (o : ShardOut) (s : State) : State :=
  let s := if o.bad = 0 then s
    else ev R.cmbShdEvents 0 (cntBy R.cmbShdNonfiniteCount o.bad (cntBy (R.strShdNonfinite k) o.bad s))
  madeEvents o.v (madeEvents o.m s)

/-- A combiner computes a SHARD_UPDATE chunk: its new master chunk and moment group replace those read (R364, R367). -/
def shardCompute (k rid j : Nat) (s : State) : State :=
  match runOf s k rid with
  | none => s
  | some r =>
    match r.ub, r.shards.find? (fun q => q.j == j && !q.computed) with
    | some ub, some q =>
      let put (q : SChunk) : State → State :=
        modRun k rid (fun r => { r with shards := r.shards.map (fun p => if p.j = j then q else p) })
      if ubSkip ub then put { q with computed := true } s
      else
        let o := shardResult ub (str s k).req.seed r.idx ((r.bias + j) * 1024) q.grad q.master q.mom
        put { q with computed := true, master := o.master, mom := o.mom } (shardEvents k o s)
    | _, _ => s

/-! ### The writes (R364, R371) -/

/-- One write of a SHARD_UPDATE chunk, to ranges tested before (R361). -/
def shardWrite (k rid j : Nat) (out : Option Nat) (a : Nat) (b : List Byte) (s : State) : State :=
  match runOf s k rid with
  | none => s
  | some r =>
    match placeOf s (offOf a) b.length with
    | .store off => storeWrite off b s
    | .accel => if pkgUp s then pkgIssue a b (.shard k rid j out) s else faultMem k r.idx 0x14 a s
    | .bad => faultMem k r.idx 0x11 a (badAccess s)

/-- The working-copy part of chunk `j` that lies in output chunk `c` (R346, R369): element bits are set in the chunk's
image, and the bytes they touch are written; so are the scales of its blocks and, after the last element, the zero bytes
past it. -/
def copyPart (k rid j c : Nat) (q : SChunk) (s : State) : State :=
  match runOf s k rid with
  | none => s
  | some r =>
    let fo := fmtAt s r.rc.outFmt
    let eo := perChunk fo
    let e0 := (r.bias + j) * 1024
    let lo := max e0 (c * eo)
    let hi := min (e0 + 1024) ((c + 1) * eo)
    let i0 := lo - c * eo
    let i1 := hi - c * eo
    let chunk := r.rc.outOff + c
    let vals := (List.range (hi - lo)).map (fun i =>
      (resOf (elemVal fp32 (fieldLE q.master (4 * (lo - e0 + i)) 4)),
       rndWord (str s k).req.seed 0x12 r.idx (chunk * eo + i0 + i)))
    let bs := if fo.scale then (blocks32 240 vals).map (roundBlock fo 2) else []
    let es := if fo.scale then [] else vals.map (fun p => roundElem fo 2 false p.2 p.1)
    let m : Made := if fo.scale then
        { bytes := [], sat := (bs.map (·.sat)).sum, nanz := (bs.map (·.nanz)).sum, clamp := bs.any (·.clamp) }
      else { bytes := [], sat := es.countP (·.sat), nanz := es.countP (·.nanz) }
    let pats := if fo.scale then bs.flatMap (·.pats) else es.map (·.pat)
    let img := tget 0 c r.edges + packPats fo.width pats * 2 ^ (fo.width * i0)
      + packPats 8 (bs.map (·.scale)) * 2 ^ (8 * (scaleBase fo + i0 / 32))
    let a := outAddr s k r chunk
    let bytes := bytesLE 4096 img
    let b0 := fo.width * i0 / 8
    let b1 := if i1 = eo ∧ !fo.scale then 4096 else (fo.width * i1 + 7) / 8
    let s := setMark k r.rc.outSel chunk 0 (setCount k r.rc.outSel chunk 1 (madeEvents m s))
    let s := modRun k rid (fun r => { r with edges := tset c img r.edges }) s
    let s := shardWrite k rid j (some c) (a + b0) (slice bytes b0 (b1 - b0)) s
    let s := if fo.scale then
        let t0 := scaleBase fo + i0 / 32
        let t1 := if i1 = eo then 4096 else scaleBase fo + i1 / 32
        shardWrite k rid j (some c) (a + t0) (slice bytes t0 (t1 - t0)) s
      else s
    if i1 = eo then
      modRun k rid (fun r => { r with edges := tdel c r.edges }) (capItem r.cap 5 8 chunk (crc32c bytes) 1 [] s)
    else s

/-- Issue the writes of the lowest computed chunk: moment group, master chunk, working copy (R364, R371). -/
def shardWrites (k rid : Nat) (s : State) : State :=
  match runOf s k rid with
  | none => s
  | some r =>
    match r.ub, r.shards.find? (fun q => !q.written) with
    | some ub, some q =>
      if acting s r && q.computed then
        let j := q.j
        let s := modRun k rid (fun r => { r with
          shards := r.shards.map (fun p => if p.j = j then { p with written := true } else p) }) s
        let s := if ubSkip ub then s
          else
            let s := capItem r.cap 5 7 (r.bias + j) (crc32c q.mom) 1 [] (shardWrite k rid j none (momentAddr r ub j) q.mom s)
            capItem r.cap 5 6 (r.bias + j) (crc32c q.master) 1 [] (shardWrite k rid j none (masterAddr r ub j) q.master s)
        let s := forEach (range (firstOut s r j) (endOut s r j - 1)) (fun c => copyPart k rid j c q) s
        shardSettle k rid s
      else s
    | _, _ => s

/-! ### The gate (R372) and the combiners (R633) -/

/-- What a step that waits at the gate does next. -/
def gatedAction (k : Nat) (r : Run) (data : List Byte) (s : State) : State :=
  match r.op with
  | 1 => if r.kind = 4 then accessNext k r.rid data s else sendNext k r.rid data s
  | 2 => if r.kind = 4 then accessNext k r.rid data s else s
  | 3 => match lowestPos (fun p => p.loc.isNone && p.outs.isNone) r.poss with | some p => addLocal k r.rid p.j data s | none => s
  | 4 => match lowestPos (fun p => p.loc.isNone && p.outs.isNone) r.poss with | some p => addLocal k r.rid p.j data s | none => s
  | 5 => copyNext k r.rid data s
  | 6 => convertRead 6 k r.rid data s
  | 7 => convertRead 7 k r.rid data s
  | 13 => shardBegin k r.rid data [] [] s
  | _ => s

/-- One operation of a combiner for position `j` of a run: an addition, a conversion or a SHARD_UPDATE chunk (R633). -/
def combinerOp (k j rank : Nat) (data : List Byte) (r : Run) (s : State) : State :=
  match r.op with
  | 3 => if rank = r.self then addLocal k r.rid j data s else addContrib k r.rid j rank s
  | 4 => if rank = r.self then addLocal k r.rid j data s else addContrib k r.rid j rank s
  | 6 => convertOp k r.rid j s
  | 7 => convertOp k r.rid j s
  | 13 => shardCompute k r.rid j s
  | _ => s

/-! ### Commands -/

/-- COMBINER_OPERATION (R633): for step `idx` of stream `k`, position `j`, contribution of `rank`. -/
def execCombinerOperation (k idx j rank : Nat) (data : List Byte) (s : State) : Host.Outcome State Fault Refusal :=
  run (onRun k idx (combinerOp k j rank data)) s

/-- SHARD_UPDATE (R364): the writes of the next computed chunk. -/
def execShardUpdate (k idx : Nat) (s : State) : Host.Outcome State Fault Refusal :=
  run (onRun k idx (fun r s => shardWrites k r.rid s)) s

/-- UPDATE_BLOCK_READ (R357). -/
def execUpdateBlockRead (k idx : Nat) (data : List Byte) (s : State) : Host.Outcome State Fault Refusal :=
  run (onRun k idx (fun r s => updateBlockRead k r.rid data s)) s

/-- SHARD_CHUNK_BEGIN (R364). -/
def execShardChunkBegin (k idx : Nat) (grad master mom : List Byte) (s : State) : Host.Outcome State Fault Refusal :=
  run (onRun k idx (fun r s => shardBegin k r.rid grad master mom s)) s

/-- SHARD_GATE_RELEASE (R372): the step that waited reads its chunk. -/
def execShardGateRelease (k idx : Nat) (data : List Byte) (s : State) : Host.Outcome State Fault Refusal :=
  run (onRun k idx (fun r s => gatedAction k r data s)) s

end Sys2Proof.Machine
end

