-- ==== Sys2Proof/Machine/Epoch.lean ====
section
/-! DEFINITION. Route and lace table versions: writes to them, arming and disarming, the flip, which has waiting cells looked up
afresh, its drain, and the seal (Changing a Running Machine). -/
namespace Sys2Proof.Machine

/-- The outcome of a register access (Tables 13.7, 16.7). -/
inductive RStat where
  | ok | unmapped | refused | tblBusy | ecc
  deriving DecidableEq, Repr

/-! ### Table writes (R437, R438, R445) -/

/-- The version a route or lace table word belongs to (R437). -/
def versionOf (a : Nat) : Nat := if a < 0x1040000 then a / 0x8000 % 2 else a / 0x2000 % 2

/-- The bits of a table word that hold something (Tables 5.2, 6.1). -/
def tableMask (a : Nat) : Word :=
  if a < 0x1040000 then 0x80037FFF else if a / 4 % 2 = 0 then 0x7FE7FFF0 else 0x80000001

/-- Whether an address is a route or a lace table word. -/
def isTableWord (a : Nat) : Bool :=
  a % 4 == 0 && (decide (0x1000000 ≤ a ∧ a < 0x1010000) || decide (0x1040000 ≤ a ∧ a < 0x1044000))

/-- A route word whose VCC is written with a reserved encoding (Table 5.2, R14). -/
def vccBad (a : Nat) (v : Word) : Bool := decide (a < 0x1040000) && wbit v 17

/-- What a write of `v` over `old` leaves in a table word: a reserved VCC keeps the old one (R14). -/
def tableWord (a : Nat) (old v : Word) : Word :=
  if vccBad a v then putFld (v &&& tableMask a) 17 16 (fld old 17 16) else v &&& tableMask a

/-- A write to a version that is CURRENT or DRAINING is refused (R438); the other is applied, a reserved VCC apart (R14). -/
def tableWrite (a : Nat) (v : Word) (s : State) : State × RStat :=
  match verNow s (versionOf a) with
  | .idle => (tblWrite a (tableWord a (rd s a) v) s, if vccBad a v then .refused else .ok)
  | _ => (ev R.tblFlipEvents 2 (cnt R.tblBusyCount s), .tblBusy)

/-! ### Arming (R439, R441) -/

/-- TBL_FLIP_AT. -/
def flipAt (s : State) : Nat := rdN s R.tblFlipAtLo + rdN s R.tblFlipAtHi * 2 ^ 32

/-- A write to TBL_FLIP_AT_HI (R439). -/
def flipArm (v : Word) (s : State) : State × RStat :=
  let s := wr R.tblFlipAtHi v s
  let f := flipAt s
  if mtcN s + 1024 ≤ f ∧ (s.ep.draining = false ∨ s.ep.drainEnd.toNat ≤ f) then
    ({ s with ep := { s.ep with armed := some (BitVec.ofNat 64 f) } }, .ok)
  else (ev R.tblFlipEvents 1 s, .ok)

/-- DISARM completes before the flip tick (R441). -/
def flipDisarm (s : State) : State := if flipDue s then s else { s with ep := { s.ep with armed := none } }

/-! ### The flip and the drain (R442, R444) -/

/-- The drain ends: the DRAINING version is IDLE. -/
def drainEnd (s : State) : State := ev R.tblFlipEvents 5 { s with ep := { s.ep with draining := false } }

/-- Registers whose staged values apply at a flip (R442, Table 14.3). -/
def flipReg (a : Nat) : Bool :=
  a == R.tblDeflectMax || a == R.tblLaceHold || a == R.tblRowMask || a == R.strRetxWait || a == R.glbMgrId

/-- The copies `l` of a waiting multicast cell of stream `k` after a flip: the cell is looked up afresh, and of the ports the
new version names those not yet served go on waiting, or get their first attempt (R442). -/
def relookCopies (k : Nat) (c : Cell) (l : List Waiting) (s : State) : State :=
  let served := match l with | w :: _ => w.done | [] => []
  let r := mcPorts k c s
  let copy (p : Nat) : Waiting :=
    match l.find? (fun w => w.port == p) with
    | some w => { w with cell := c }
    | none => { stream := k, cell := c, port := p, cls := .vc0s, mc := true, fresh := true, done := served, since := now s }
  { r.1 with waiting := r.1.waiting ++ (r.2.filter (fun p => !served.contains p)).map copy }

/-- Two waiting copies are of one multicast cell. -/
def sameGroup (w v : Waiting) : Bool := v.mc && v.stream == w.stream && v.port != 31 && sameCell v.cell w.cell

/-- A waiting injected cell is looked up afresh in the new version, and carries the new epoch (R442); a multicast cell once
for all its copies, at the first of them in the list `l` that waits. A one-sided cell is never looked up (R25), and a cell its
stream has not come to is looked up when it does (R168). -/
def relook (l : List Waiting) (w : Waiting) (s : State) : State :=
  let c := setWelt 37 37 s.ep.inj w.cell
  if w.fresh && w.port == 31 || oneSided c then { s with waiting := s.waiting ++ [{ w with cell := c }] }
  else if w.mc then
    if l.find? (sameGroup w) = some w then relookCopies w.stream c (l.filter (sameGroup w)) s else s
  else
    let r := injectRoute w.ring c s
    match r.2 with
    | none => cellLost c r.1
    | some (p, k) => { r.1 with waiting := r.1.waiting ++ [{ w with cell := c, port := p, cls := k }] }

/-- The flip (R442). -/
def flip (s : State) : State :=
  match s.ep.armed with
  | none => s
  | some f =>
    let s := if drainDue s then drainEnd s else s
    let d := rfld s R.tblDrain 19 0
    let l := s.staged.filter (fun e => flipReg e.1)
    let s := forEach l (fun e s => wr e.1 e.2 s) { s with staged := s.staged.filter (fun e => !flipReg e.1) }
    let s := ev R.tblFlipEvents 0 (capFlip { s with ep := { s.ep with
      inj := 1 - s.ep.inj, draining := true, drainF := f, drainEnd := f + BitVec.ofNat 64 d, armed := none
      flips := (s.ep.flips + 1) % 256 } })
    forEach s.waiting (relook s.waiting) { s with waiting := [] }

/-! ### The seal (R454) -/

/-- SEALED is set. -/
def sealIt (s : State) : State := wbitAt R.glbSeal 0 true s

/-! ### The commands -/

/-- FLIP_ARM (R439). -/
def execFlipArm (v : Word) (s : State) : Host.Outcome State Fault Refusal := run (fun s => (flipArm v s).1) s

/-- FLIP_DISARM (R441). -/
def execFlipDisarm (s : State) : Host.Outcome State Fault Refusal := run flipDisarm s

/-- FLIP (R442). -/
def execFlip (s : State) : Host.Outcome State Fault Refusal := run (whenB (flipDue s) flip) s

/-- DRAIN_END (R444). -/
def execDrainEnd (s : State) : Host.Outcome State Fault Refusal := run (whenB (drainDue s) drainEnd) s

end Sys2Proof.Machine
end

