-- ==== Sys2Proof/Machine/Staged.lean ====
section
/-! DEFINITION. Staged values of a partition: what a step boundary applies (R37, R263, R265, R448). -/
namespace Sys2Proof.Machine

/-- Forget the staged values a test picks by address. -/
def unstage (pick : Nat → Bool) (s : State) : State := { s with staged := s.staged.filter (fun e => !pick e.1) }

/-- Registers of partition `n` that apply at its next step boundary, but for its ring registers and its map. -/
def boundaryReg (n a : Nat) : Bool :=
  decide (R.parDoorbell n ≤ a ∧ a < R.parDoorbell n + 0x1000)
    && (let o := a % 0x1000
        decide (o = 0x05C ∨ o = 0x068 ∨ o = 0x06C ∨ o = 0x070 ∨ o = 0x084 ∨ (0x100 ≤ o ∧ o < 0x200)))

/-- The ring base and size registers of partition `n` (R265). -/
def ringReg (n a : Nat) : Bool := decide (R.parReqBaseLo n ≤ a ∧ a ≤ R.parCplSize n)

/-- PARn_RANKS and the rank map entries of partition `n` (R37). -/
def mapReg (n a : Nat) : Bool :=
  decide (a = R.parRanks n) || decide (R.rankMap n 0 ≤ a ∧ a < R.rankMap n 0 + 0x8000)

/-- Put a staged value into its register; PARn_REPLAY.ISOLATED is no staged field. -/
def applyReg (e : Nat × Word) (s : State) : State :=
  if e.1 % 0x1000 = 0x084 then wfld e.1 1 0 (fld e.2 1 0) s else wr e.1 e.2 s

/-- One engine ID other than 0x1FFF stands twice. -/
def mapDup : List Nat → Bool
  | [] => false
  | a :: t => (decide (a ≠ 0x1FFF) && t.contains a) || mapDup t

/-- The entry of rank `r` in the new map of partition `n`; an applied word met uncorrectable does not match (R413). -/
def newEntry (s : State) (n r : Nat) : Nat :=
  match tfind (R.rankMap n r) s.staged with
  | some w => fld w 12 0
  | none => if R.rankMap n r ∈ s.eccBad then 0x1FFF else rankOf s n r

/-- The uncorrectable words the search of a new map of `m` ranks meets (R413). -/
def newMapHits (n m : Nat) (s : State) : State :=
  forEach ((List.range m).filter (fun r => (tfind (R.rankMap n r) s.staged).isNone && s.eccBad.contains (R.rankMap n r)))
    (fun r => tblEccHit 0xFF (R.rankMap n r) false) s

/-- Apply a new rank map, or refuse it whole (R37, R38). -/
def applyMap (n : Nat) (s : State) : State :=
  let l := s.staged.filter (fun e => mapReg n e.1)
  if l.isEmpty then s
  else
    let m := match tfind (R.parRanks n) s.staged with
      | some w => fld w 13 0
      | none => ranks s n
    let s1 := unstage (mapReg n) (newMapHits n m s)
    if mapDup ((List.range m).map (newEntry s n)) then ev (R.parMapStatus n) 0 s1
    else selfRank n (forEach l (fun e s => if e.1 = R.parRanks n then wr e.1 e.2 s else tblWrite e.1 e.2 s) s1)

/-- The partition holds no request. -/
def holdsNone (s : State) (n : Nat) : Bool :=
  let p := par s n
  p.outstanding == 0 && !p.reading && p.starting.isNone && p.startStr.isNone

/-- Apply the ring registers, where R265 lets them; the indices become 0. -/
def applyRings (n : Nat) (s : State) : State :=
  let l := s.staged.filter (fun e => ringReg n e.1)
  if !l.isEmpty && holdsNone s n && rd s (R.parReqHead n) == rd s (R.parReqTail n) then
    wr (R.parReqHead n) 0 (wr (R.parReqTail n) 0 (wr (R.parCplHead n) 0 (wr (R.parCplTail n) 0
      (forEach l applyReg (unstage (ringReg n) s)))))
  else s

/-- A step boundary of partition `n` (R263). -/
def applyStaged (n : Nat) (s : State) : State :=
  let l := s.staged.filter (fun e => boundaryReg n e.1)
  applyRings n (applyMap n (forEach l applyReg (unstage (boundaryReg n) s)))

/-- No step of partition `n` lies between launch and end. -/
def noSteps (s : State) (n : Nat) : Bool := (strsOf s n).all (fun k => (str s k).runs.all (fun r => r.ended))

/-- STAGED_APPLY: the boundary of a tick on which no step of the partition lies between launch and end (R263). -/
def execStagedApply (n : Nat) (s : State) : Host.Outcome State Fault Refusal :=
  run (whenB (decide (n < 16) && noSteps s n) (applyStaged n)) s

end Sys2Proof.Machine
end

