-- ==== Sys2Proof/Machine/Requests.lean ====
section
/-! DEFINITION. Requests: doorbells, descriptors, the start of a request, the step sequencer, and the steps that move no
chunk (Streams, Requests and Lasts, R261–R301; circuits, R186–R188; FENCE, R250). -/
namespace Sys2Proof.Machine

/-! ### Doorbells (R265–R267, R43, R541) -/

/-- Entries of a request ring and of a completion ring (R264). -/
def reqSize (s : State) (n : Nat) : Nat := 2 ^ rfld s (R.parReqSize n) 4 0
def cplSize (s : State) (n : Nat) : Nat := 2 ^ rfld s (R.parCplSize n) 4 0

/-- A doorbell of partition `n` has an effect: the partition has streams and is not isolated (R265, R541). -/
def doorbellHeard (s : State) (n : Nat) : Bool := !(strCount s n == 0 || rbit s (R.parReplay n) 2)

/-- The index passes the test of R266. -/
def doorbellOk (s : State) (n : Nat) (v : Word) : Bool :=
  let tail := rd s (R.parReqTail n)
  decide ((v - tail).toNat + (tail - rd s (R.parReqHead n)).toNat ≤ reqSize s n)

/-- A write to PARn_DOORBELL (R266): TAIL becomes the value where it lies within the ring. -/
def doorbell (n : Nat) (v : Word) (s : State) : State :=
  if !doorbellHeard s n then s
  else if doorbellOk s n v then wr (R.parReqTail n) v s
  else ev (R.parEvents n) 0 s

/-- The partition whose doorbell, or whose CPL_HEAD, an address is (R267). -/
def pkgReg (a : Nat) : Option (Nat × Bool) :=
  match (range 0 15).find? (fun n => a == R.parDoorbell n || a == R.parCplHead n) with
  | some n => some (n, a == R.parDoorbell n)
  | none => none

/-- A package write has its effect. -/
def pkgStore (n : Nat) (door : Bool) (v : Word) (s : State) : State :=
  if door then doorbell n v s else wr (R.parCplHead n) v s

/-- The register a write to PARn_DOORBELL or PARn_CPL_HEAD changes. -/
def pkgTarget (n : Nat) (door : Bool) : Nat := if door then R.parReqTail n else R.parCplHead n

/-- A package register write (R267). -/
def pkgRegWrite (a : Nat) (v : Word) (s : State) : State :=
  match pkgReg a with
  | some (n, door) =>
    let e := match tfind a s.pkgWrote with
      | some e => { e with vals := e.vals ++ [v] }
      | none => { was := rd s (pkgTarget n door), bad := rbit s (R.parEvents n) 0, vals := [v] }
    emit (.pkgRsp true []) (pkgStore n door v { s with pkgWrote := tset a e s.pkgWrote })
  | none => emit (.pkgRsp false []) s

/-- The state a management write to PARn_DOORBELL or PARn_CPL_HEAD finds: package writes of its tick come after it (R267). -/
def pkgUndo (n : Nat) (door : Bool) (s : State) : State :=
  match tfind (if door then R.parDoorbell n else R.parCplHead n) s.pkgWrote with
  | some e => wr (pkgTarget n door) e.was (wbitAt (R.parEvents n) 0 e.bad s)
  | none => s

/-- A write to PARn_DOORBELL or PARn_CPL_HEAD over the management port or by a CTRL cell: it is applied first, and the package
writes of its tick after it (R267). -/
def mgtStore (n : Nat) (door : Bool) (v : Word) (s : State) : State :=
  let t := pkgStore n door v (pkgUndo n door s)
  match tfind (if door then R.parDoorbell n else R.parCplHead n) s.pkgWrote with
  | some e => forEach e.vals (pkgStore n door) t
  | none => t

/-! ### Taking a request (R268–R272) -/

/-- PARn_RESET.HELD. -/
def held (s : State) (n : Nat) : Bool := rbit s (R.parReset n) 8

/-- The adoption window is open (R430). -/
def windowOpen (s : State) : Bool := rbit s R.glbAdopt 0

/-- The engine takes the request at HEAD (R268, R43, R77, R428, R430, R460, R541). -/
def takes (s : State) (n : Nat) : Bool :=
  let p := par s n
  rd s (R.parReqHead n) != rd s (R.parReqTail n) && rbit s R.mtcStatus 0 && bootStep s == 7 && strCount s n != 0
    && !rbit s (R.parReplay n) 2 && !held s n && !windowOpen s
    && !p.reading && p.starting.isNone && p.startStr.isNone
    && decide ((rd s (R.parCplTail n) - rd s (R.parCplHead n)).toNat + p.outstanding < cplSize s n)

/-- A request is taken: a step boundary (R263), and its descriptor is read (R268). -/
def requestTake (n : Nat) (s : State) : State := modPar n (fun p => { p with reading := true }) (applyStaged n s)

/-- The stream a request may have now (R272). -/
def freeStream (s : State) (n : Nat) (q : Req) : Option Nat :=
  if q.flags.testBit 4 then (strsOf s n).find? (fun k => (str s k).st == .idle)
  else if (str s q.stream).st = .idle then some q.stream else none

/-- Give a request its stream: STARTING (R262, R217, R294, R309). -/
def assign (n : Nat) (q : Req) (k : Nat) (s : State) : State :=
  let s := modStr k (fun x => { ({} : Stream) with
    st := .starting, part := n, req := q, closed := x.closed, gaps := x.gaps, opn := x.opn, rid := x.rid, pseq := x.pseq, rid0 := x.rid
    drawn := heldAfter s k }) s
  let s := forEach [R.strFault k, R.strShdNonfinite k, R.strBranchLossMap k, R.strBranchLossFirst k, R.strBranchLossCount k]
    (fun a s => wr a (resetReg a) s) s
  modPar n (fun p => { p with starting := none, startStr := some k }) s

/-- STREAM_ASSIGN: a waiting request gets its stream once it may (R272). -/
def streamAssign (n : Nat) (s : State) : State :=
  match (par s n).starting with
  | none => s
  | some q =>
    match freeStream s n q with
    | some k => assign n q k s
    | none => s

/-- Reserved bits of a descriptor are zero, and no enabled override is reserved (Tables 8.3, 8.4). -/
def descOk (b : List Byte) (q : Req) : Bool :=
  decide (q.flags < 32) && decide (q.overrides < 16) && decide (q.last < 2 ^ 23) && (fieldLE b 13 3 == 0)
    && (fieldLE b 54 2 == 0)
    && (!q.flags.testBit 1 || nbits q.overrides 1 0 != 3) && (!q.flags.testBit 2 || nbits q.overrides 3 2 != 3)

/-- The signal address may be written (Table 8.4, test 4). -/
def signalOk (s : State) (n : Nat) (q : Req) : Bool :=
  decide (slotOf q.sigAddr = ownSlot s ∧ offOf q.sigAddr + 8 ≤ 2 ^ 44 ∧ q.sigAddr % 8 = 0)
    && windowOk (winsOf s n) q.sigAddr 8 .write false

/-- The tests of Table 8.4 after the first: the status of the first failure. -/
def descTest (s : State) (n : Nat) (b : List Byte) (q : Req) : Option Nat :=
  if !descOk b q then some 0x0A
  else if !rbit s (R.parSelfRank n) 31 then some 0x01
  else if q.flags.testBit 0 && !signalOk s n q then some 0x09
  else if !q.flags.testBit 4 && !owns s n q.stream then some 0x07
  else none

/-- The descriptor read has completed: HEAD advances, the request is outstanding, and it is tested (R268, R271). -/
def descriptorRead (n : Nat) (data : List Byte) (s : State) : State :=
  if (par s n).reading then
    let head := rdN s (R.parReqHead n)
    let a := ringBase s (R.parReqBaseLo n) (R.parReqBaseHi n) + 64 * (head % reqSize s n)
    let r := localRead none (winsOf s n) n a 64 data s
    let s := wrN (R.parReqHead n) ((head + 1) % 2 ^ 32)
      (modPar n (fun p => { p with reading := false, outstanding := p.outstanding + 1 }) r.1)
    match r.2 with
    | .error _ => complete n none {} 0x0A (ev (R.parEvents n) 1 s)
    | .ok b =>
      let q := parseReq b
      match descTest s n b q with
      | some e => complete n none q e (if e = 0x0A then ev (R.parEvents n) 1 s else s)
      | none =>
        match freeStream s n q with
        | some k => assign n q k s
        | none => modPar n (fun p => { p with starting := some q }) s
  else s

/-! ### The Last (R273–R276, R300) -/

/-- The Last window of a partition, as store offsets [lo, hi). -/
def lastLo (s : State) (n : Nat) : Nat := rfld s (R.parLastWindow n) 11 0 * 4096
def lastHi (s : State) (n : Nat) : Nat := lastLo s n + rfld s (R.parLastWindow n) 27 16 * 4096

/-- The board address of a Last region offset (R227). -/
def lastAddr (s : State) (o : Nat) : Nat := ownSlot s * 2 ^ 44 + stageBase s + o

/-- A request ends before its first step, with a status (R274, R275). -/
def refuseStart (k status : Nat) (s : State) : State :=
  let x := str s k
  let d := if status = 0x13 then lastAddr s x.req.last / 4096 % 2 ^ 32 else 0
  let s := modStr k (fun x => { x with st := .ending, finished := true, status := status, detail := d }) s
  complete x.part (some k) x.req status (modPar x.part (fun p => { p with startStr := none }) s)

/-- The header is well formed (Table 8.5). -/
def headerOk (b : List Byte) : Bool :=
  (b.take 4 == [0x4C, 0x41, 0x53, 0x54]) && (fieldLE b 4 1 == 1) && decide (fieldLE b 5 1 < 8)
    && decide (1 ≤ fieldLE b 6 2 ∧ fieldLE b 6 2 ≤ 4096) && (fieldLE b 10 2 == 0)
    && (fieldLE b 16 8 == 0) && (fieldLE b 5 1 / 2 % 2 == 1 || fieldLE b 24 4 == 0)
    && (fieldLE b 28 4 == crc32c (b.take 28))

/-- LAST_CHECK of a verified Last: `none` where the store could not be read. -/
def verifyLast (k n off steps check : Nat) (s : State) : State × Option Bool :=
  let r := storeRead (some k) n off (32 + 32 * steps) s
  (r.1, r.2.map (fun b => check == crc32c (b.take 24 ++ b.drop 32)))

/-- The header and step record 0 are read and tested (R273–R275). -/
def lastHeaderRead (k : Nat) (s : State) : State :=
  let x := str s k
  let n := x.part
  if x.st = .starting ∧ x.hdrOk = false then
    let off := x.req.last
    if off % 32 ≠ 0 ∨ off < lastLo s n ∨ lastHi s n < off + 64 then refuseStart k 0x03 s
    else
      let r := storeRead (some k) n off 64 s
      match r.2 with
      | none => refuseStart k 0x13 r.1
      | some b =>
        let s := r.1
        let steps := fieldLE b 6 2
        if !headerOk b || decide (lastHi s n < off + 32 + 32 * steps) then refuseStart k 0x03 s
        else
          let v := if fieldLE b 5 1 / 2 % 2 = 1 then verifyLast k n off steps (fieldLE b 24 4) s else (s, some true)
          match v.2 with
          | none => refuseStart k 0x13 v.1
          | some false => refuseStart k 0x03 v.1
          | some true =>
            let s := v.1
            if fieldLE b 8 2 ≠ 0 ∧ fieldLE b 8 2 ≠ ranks s n then refuseStart k 0x06 s
            else if 256 * rfld s (R.parStageQuota n) 6 0 < fieldLE b 12 4 then refuseStart k 0x08 s
            else
              let wait := if fieldLE b 5 1 / 2 % 2 = 1 then (32 + 32 * steps + 63) / 64 else 0
              modStr k (fun x => { x with
                hdrOk := true, steps := steps, hflags := fieldLE b 5 1, need := fieldLE b 12 4
                rec1 := some (parseRec (b.drop 32)), recAt := some (now s + wait) }) s
  else s

/-! ### The sequencer (R286–R290) -/

/-- Arm the step whose record has been read; the next record's read begins (R286, R288). -/
def armStep (k : Nat) (s : State) : State :=
  let x := str s k
  match x.rec1 with
  | none => s
  | some rc =>
    let launch := (x.base + rc.launch) % 2 ^ 64
    modStr k (fun x => { x with
      arm := some (x.next, rc, launch, now s), lateArmed := decide (launch ≤ mtcN s), lastArmed := x.next
      next := x.next + 1, rec1 := none, recAt := if x.next + 1 < x.steps then some (now s) else none
      loopAt := none, overlap := false }) s

/-- The reserve is granted, or waited for; the base time is fixed and step 0 is armed (R275, R276). -/
def stageReserve (k : Nat) (s : State) : State :=
  let x := str s k
  if x.st = .starting ∧ x.hdrOk = true ∧ x.finished = false ∧ x.recAt.getD 0 ≤ now s then
    if x.need ≤ stageFree s x.part then
      let base := if x.req.baseTime = 0 then (mtcN s + 1) % 2 ^ 64 else x.req.baseTime
      armStep k (modPar x.part (fun p => { p with startStr := none })
        (modStr k (fun x => { x with st := .running, reserve := x.need, base := base, bias := 0, next := 0 }) s))
    else ev (R.parEvents x.part) 4 s
  else s

/-- The record of the next step is read as it stands (R286, R301). -/
def recordRead (k : Nat) (s : State) : State :=
  let x := str s k
  if x.st = .running ∧ x.rec1.isNone = true ∧ x.recAt.isSome = true ∧ x.next < x.steps then
    let r := storeRead (some k) x.part (x.req.last + 32 + 32 * x.next) 32 s
    match r.2 with
    | none => faultMem k x.next 0x13 (lastAddr s (x.req.last + 32 + 32 * x.next)) r.1
    | some b => modStr k (fun x => { x with rec1 := some (parseRec b), recAt := none }) r.1
  else s

/-- The step before the next has ended, on an earlier tick (R287).
DEDUCED (log 40): the first tick on which a step has ended is the tick after its end. -/
def prevEnded (s : State) (x : Stream) : Bool :=
  x.runs.all (fun r => r.rid + 1 != x.rid || r.ended) && (match x.endedAt with | some t => decide (t < now s) | none => true)

/-- The next step may be armed (R287, R290). -/
def mayArm (s : State) (k : Nat) : Bool :=
  let x := str s k
  decide (x.st = .running) && x.arm.isNone && (x.overlap || prevEnded s x) && decide (inflight s k < 16)
    && (match x.loopAt with | some t => decide (t < now s) | none => true)
    && (x.rec1.isSome || decide (x.steps ≤ x.next))

/-- STEP_ARM (R287, R290). -/
def stepArm (k : Nat) (s : State) : State :=
  let x := str s k
  if mayArm s k then (if x.steps ≤ x.next then faultStream k x.next 0x04 s else armStep k s) else s

/-- The address at which a buffer of a step leaves the own slot (R282, Table 8.11). -/
def badBuffer (s : State) (k : Nat) (r : Run) : Nat :=
  let i := inAddr s k r 0
  if r.op ≠ 2 ∧ inOwnSlot s i (r.rc.length * 4096) = false then i
  else if r.op = 14 then bufOf s k r.rc.inSel + r.rc.inOff
  else outAddr s k r (r.rc.outOff + firstOut s r 0)

/-- The armed step's comparator fires (R78–R80): the step is tested, takes its values, and lies between launch and end
(R284, R288). -/
def launch (k : Nat) (s : State) : State :=
  let x := str s k
  match x.arm with
  | none => s
  | some (idx, rc, at_, tick) =>
    if x.st = .running ∧ tick < now s ∧ at_ ≤ mtcN s ∧ rc.opcode ≠ 0 ∧ rc.opcode ≠ 15 then
      let s := applyStaged x.part s
      let late := x.lateArmed
      let s := if late then cnt (R.strLateArmCount k) (ev R.mtcEvents 4 (cnt R.mtcLateArmCount s)) else s
      let jumped := match s.t.jumpFrom with | some o => decide (o.toNat < at_) | none => false
      let s := if jumped && !late then cnt R.mtcJumpLaunchCount s else s
      let s := modStr k (fun x => { x with
        arm := none, lateArm := x.lateArm || late, overlap := rc.overlap && rc.opcode != 11 && rc.opcode != 12 }) s
      match stepTest s k rc with
      | some e => faultStream k idx e s
      | none =>
        let dl := (x.base + rc.deadline) % 2 ^ 64
        let r0 : Run :=
          { rid := x.rid, idx := idx, rc := rc, fired := now s, base := x.base, bias := x.bias
            late := decide (rc.deadline ≠ 0 ∧ dl < mtcN s) }
        let p := prepare k r0 s
        match p.2 with
        | .error e => if e = 0x11 then faultMem k idx e (badBuffer p.1 k r0) p.1 else faultStream k idx e p.1
        | .ok r =>
          let c := captureOpen k r late p.1
          let s := modStr k (fun x => { x with rid := x.rid + 1, endedAt := none, runs := x.runs ++ [{ r with cap := c.2 }] }) c.1
          if rc.opcode = 13 then wrN (R.strShdDone k) 0 s else s
    else s

/-- A LOOP acts on its arming (R289, R290). -/
def loopStep (k : Nat) (s : State) : State :=
  let x := str s k
  match x.arm with
  | none => s
  | some (idx, rc, _, _) =>
    if x.st = .running ∧ rc.opcode = 15 then
      match stepTest s k rc with
      | some e => faultStream k idx e s
      | none =>
        if idx ≤ rc.peer ∨ rc.aux < 2 then faultStream k idx 0x04 s
        else
          let had := x.loops.find? (fun l => l.1 == idx)
          let rest := x.loops.filter (fun l => l.1 != idx)
          if had.isNone ∧ 4 ≤ x.loops.length then faultStream k idx 0x0B s
          else
            let c := match had with | some l => l.2 | none => rc.aux - 1
            let back := decide (0 < c)
            let next := if back then rc.peer else idx + 1
            modStr k (fun x => { x with
              arm := none, overlap := true, loopAt := some (now s), next := next
              loops := if back then rest ++ [(idx, c - 1)] else rest
              base := if back then (x.base + rc.launch) % 2 ^ 64 else x.base
              bias := if back then x.bias + rc.inOff else x.bias
              rec1 := if back then none else x.rec1
              recAt := if back then some (now s) else x.recAt }) s
    else s

/-- END: once every earlier step has finished, the circuits close, the staging is released and the completion is written
(R188, R283, R296). -/
def endFinish (k : Nat) (s : State) : State :=
  let x := str s k
  if x.runs.isEmpty && earlierDone s k then
    let s := modStr k (fun x => { x with finished := true, status := 0 }) (releaseReserve x.part k (closeOwned k s))
    complete x.part (some k) x.req 0 s
  else s

/-- END acts on its arming, and completes the request when it may. -/
def endStep (k : Nat) (s : State) : State :=
  let x := str s k
  if x.st = .ending then (if x.finished then s else endFinish k s)
  else
    match x.arm with
    | none => s
    | some (idx, rc, _, _) =>
      if x.st = .running ∧ rc.opcode = 0 then
        match stepTest s k rc with
        | some e => faultStream k idx e s
        | none => endFinish k (modStr k (fun x => { x with st := .ending, arm := none }) s)
      else s

/-! ### Steps that wait, and circuits (R186–R188, R250, R283) -/

/-- No earlier step of the stream lies between launch and end. -/
def firstRun (s : State) (k : Nat) (r : Run) : Bool := (str s k).runs.all (fun q => q.ended || decide (r.rid ≤ q.rid))

/-- WAIT_TIME ends at its launch tick. -/
def waitTime (k : Nat) (r : Run) (s : State) : State := if r.op = 10 then endRun k r.rid s else s

/-- BARRIER waits until every earlier step has ended. -/
def barrier (k : Nat) (r : Run) (s : State) : State :=
  if r.op = 11 ∧ acting s r = true ∧ firstRun s k r = true then endRun k r.rid s else s

/-- FENCE waits until every earlier action of its stream has finished (R250). -/
def fence (k : Nat) (r : Run) (s : State) : State :=
  if r.op = 12 ∧ acting s r = true ∧ firstRun s k r = true ∧ earlierDone s k = true then endRun k r.rid s else s

/-- The lowest free circuit entry. -/
def freeCircuit (s : State) : Option Nat := (range 0 127).find? (fun i => !wbit (rd s (R.circuitTbl i)) 31)

/-- Ports that may not be a circuit's output (Table 5.5). -/
def badOut (p : Nat) : Bool := decide (p < 4 ∨ p = 19 ∨ p = 20 ∨ p = 31)

/-- OPEN_CIRCUIT (R186). -/
def openCircuit (k : Nat) (r : Run) (s : State) : State :=
  if r.op = 8 ∧ acting s r = true then
    let n := (str s k).part
    let i := nbits r.rc.aux 4 0
    let o := nbits r.rc.aux 9 5
    let st := r.peerStr k
    if rfld s (R.parCircuitQuota n) 7 0 ≤ rdN s (R.parCircuitsOpen n) then faultStream k r.idx 0x0D s
    else if (circuitNow s i st).isSome then faultStream k r.idx 0x0E s
    else if i < 4 ∨ badOut o = true then faultStream k r.idx 0x0F s
    else
      match freeCircuit s with
      | none => faultStream k r.idx 0x0D s
      | some e =>
        let w := BitVec.ofNat 32 (2 ^ 31 + n * 2 ^ 27 + i * 2 ^ 22 + st % 256 * 2 ^ 14 + o * 2 ^ 9 + k % 256 * 2)
        endRun k r.rid (recountCircuits (tblWrite (R.circuitTbl e) w s))
  else s

/-- CLOSE_CIRCUIT (R187). -/
def closeCircuit (k : Nat) (r : Run) (s : State) : State :=
  if r.op = 9 ∧ acting s r = true then
    let n := (str s k).part
    let s := match circuitNow s (nbits r.rc.aux 4 0) (r.peerStr k) with
      | some e =>
        if rfld s (R.circuitTbl e) 30 27 = n then recountCircuits (tblWrite (R.circuitTbl e) 0 s)
        else ev R.parCircuitEvents n s
      | none => ev R.parCircuitEvents n s
    endRun k r.rid s
  else s

/-- SIGNAL of kind RANK writes a progress word (R298). -/
def signalRank (k : Nat) (r : Run) (s : State) : State :=
  if acting s r = true ∧ r.done = 0 then
    let x := str s k
    let v := x.req.step % 2 ^ 32 + r.rc.aux % 65536 * 2 ^ 32 + 2 ^ 57
    let w := localWrite (some k) r.win x.part x.req.sigAddr (bytesLE 8 v) (.step k r.rid r.idx) s
    match w.2 with
    | .err e => faultMem k r.idx e x.req.sigAddr w.1
    | _ => settleRun k r.rid (modRun k r.rid (fun q => { q with done := 1 }) w.1)
  else s

/-- The first signal word waiting for partition `n` is written (R298, R299). -/
def signalWord (n : Nat) (s : State) : State :=
  match s.signals.find? (fun e => e.1 == n) with
  | none => s
  | some (m, a, v) =>
    let s := { s with signals := s.signals.erase (m, a, v) }
    let w := localWrite none (winsOf s n) n a (bytesLE 8 v) (.signalWord n) s
    match w.2 with
    | .err _ => ev (R.parEvents n) 3 w.1
    | _ => w.1

/-! ### The commands -/

/-- DOORBELL: the management port's or a CTRL cell's write (R266, R628). -/
def execDoorbell (n : Nat) (v : Word) (s : State) : Host.Outcome State Fault Refusal :=
  run (whenB (decide (n < 16)) (mgtStore n true v)) s

/-- PKG_REGISTER_WRITE: on PKG port `p` (R267). -/
def execPkgRegisterWrite (p a : Nat) (v : Word) (s : State) : Host.Outcome State Fault Refusal :=
  run (whenB (decide (p < 4) && (port s p).st == .active) (pkgRegWrite a v)) s

/-- REQUEST_TAKE (R268). -/
def execRequestTake (n : Nat) (s : State) : Host.Outcome State Fault Refusal :=
  run (whenB (decide (n < 16) && takes s n) (requestTake n)) s

/-- DESCRIPTOR_READ: `data` is what the accelerator returns (R269, R271). -/
def execDescriptorRead (n : Nat) (data : List Byte) (s : State) : Host.Outcome State Fault Refusal := run (descriptorRead n data) s

/-- STREAM_ASSIGN (R272). -/
def execStreamAssign (n : Nat) (s : State) : Host.Outcome State Fault Refusal := run (streamAssign n) s

/-- LAST_HEADER_READ (R273, R274). -/
def execLastHeaderRead (k : Nat) (s : State) : Host.Outcome State Fault Refusal := run (lastHeaderRead k) s

/-- STAGE_RESERVE_GRANT (R275, R276). -/
def execStageReserveGrant (k : Nat) (s : State) : Host.Outcome State Fault Refusal := run (stageReserve k) s

/-- STEP_RECORD_READ (R286). -/
def execStepRecordRead (k : Nat) (s : State) : Host.Outcome State Fault Refusal := run (recordRead k) s

/-- STEP_ARM (R287). -/
def execStepArm (k : Nat) (s : State) : Host.Outcome State Fault Refusal := run (stepArm k) s

/-- LAUNCH (R78). -/
def execLaunch (k : Nat) (s : State) : Host.Outcome State Fault Refusal := run (launch k) s

/-- END (R283). -/
def execEnd (k : Nat) (s : State) : Host.Outcome State Fault Refusal := run (endStep k) s

/-- LOOP (R289). -/
def execLoop (k : Nat) (s : State) : Host.Outcome State Fault Refusal := run (loopStep k) s

/-- WAIT_TIME (R283). -/
def execWaitTime (k idx : Nat) (s : State) : Host.Outcome State Fault Refusal := run (onRun k idx (waitTime k)) s

/-- BARRIER (R283). -/
def execBarrier (k idx : Nat) (s : State) : Host.Outcome State Fault Refusal := run (onRun k idx (barrier k)) s

/-- FENCE (R250). -/
def execFence (k idx : Nat) (s : State) : Host.Outcome State Fault Refusal := run (onRun k idx (fence k)) s

/-- OPEN_CIRCUIT (R186). -/
def execOpenCircuit (k idx : Nat) (s : State) : Host.Outcome State Fault Refusal := run (onRun k idx (openCircuit k)) s

/-- CLOSE_CIRCUIT (R187). -/
def execCloseCircuit (k idx : Nat) (s : State) : Host.Outcome State Fault Refusal := run (onRun k idx (closeCircuit k)) s

/-- SIGNAL: kind RANK writes a progress word, kind BOARD issues an ATOMIC ADD (R283, R298). -/
def execSignal (k idx : Nat) (data : List Byte) (s : State) : Host.Outcome State Fault Refusal :=
  run (onRun k idx (fun r s => if r.op ≠ 14 then s else if r.kind = 4 then accessNext k r.rid data s else signalRank k r s)) s

/-- SIGNAL_WORD_WRITE (R298). -/
def execSignalWordWrite (n : Nat) (s : State) : Host.Outcome State Fault Refusal := run (signalWord n) s

end Sys2Proof.Machine
end

