-- ==== Sys2Proof/Machine/Ports.lean ====
section
/-! DEFINITION. Ports: framing, the port state machine, beacons, the ALIGN exchange, DOZE and SLEEP, overload, link loss and
the port commands (Ports and Link States). -/
namespace Sys2Proof.Machine

/-! ### What ports are -/

/-- A serial port (4–30); a PKG port (0–3). -/
def serial (n : Nat) : Bool := decide (4 ≤ n ∧ n ≤ 30)
def isPkg (n : Nat) : Bool := decide (n < 4)

/-- PRTn_CONFIG fields (Table 4.10). -/
def enabled (s : State) (n : Nat) : Bool := rbit s (R.prtConfig n) 0

/-- The KIND a port's peer must have (Table 4.7, check 1). -/
def kindFor (n : Nat) : Nat :=
  if n = 19 then 2 else if n = 20 then 3 else if 21 ≤ n ∧ n ≤ 28 then 1 else 0

/-- Boot has reached the point at which serial ports train: step 5 with the boot record's outcome (Table 15.2). -/
def trainOpen (s : State) : Bool := decide (6 ≤ bootStep s) || (bootStep s == 5 && s.boot.recordOut.isSome)

/-- The port may leave DOWN (R126). -/
def mayLeave (s : State) (n : Nat) : Bool :=
  enabled s n && ((isPkg n && decide (1 ≤ bootStep s)) || (!isPkg n && trainOpen s && (decide (n = 19 ∨ n = 20) || ownId s != 0x1FFF)))

/-! ### Link records and beacons as bytes (Tables 4.4, 4.6) -/

/-- A link record of port `n`. -/
def linkRecord (s : State) (n op flags : Nat) : List Byte :=
  let b := bytesBE 1 op ++ bytesBE 1 flags ++ bytesBE 2 (ownId s) ++ bytesBE 1 (incarnation s) ++ bytesBE 1 n
    ++ bytesBE 1 (rfld s R.glbPosition 13 8) ++ bytesBE 1 (rfld s R.glbPosition 7 0) ++ bytesBE 52 0
  b ++ bytesBE 4 (crc32c b)

/-- The header of a codeword (Table 4.3). -/
def cwHeader (kind pos first : Nat) : Nat := kind * 2 ^ 18 + pos * 2 ^ 13 + first * 2 ^ 6

/-- The control codeword that carries a link record of port `n` (R121). -/
def recordOut (s : State) (n op flags : Nat) : Out :=
  .codeword n (cwHeader 1 19 0) (linkRecord s n op flags ++ List.replicate 576 0)

/-- A received record with a good RECORD_CHECK and OP `op` (R121). -/
def recordIs (op : Nat) (b : List Byte) : Bool :=
  b.length == 64 && fieldBE b 0 1 == op && fieldBE b 60 4 == crc32c (b.take 60)

def lFlags (b : List Byte) : Nat := fieldBE b 1 1
def lId (b : List Byte) : Nat := fieldBE b 2 2 % 8192
def lInc (b : List Byte) : Nat := fieldBE b 4 1 % 16
def lKind (b : List Byte) : Nat := nbits (fieldBE b 4 1) 5 4
def lPort (b : List Byte) : Nat := fieldBE b 5 1 % 32
def lRack (b : List Byte) : Nat := fieldBE b 6 1 % 64
def lPos (b : List Byte) : Nat := fieldBE b 7 1

/-- One bit of CRC-8, polynomial 0x07. -/
def crc8Bit (c : Nat) : Nat := if 128 ≤ c then (c * 2 % 256) ^^^ 7 else c * 2

/-- One byte, most significant bit first. -/
def crc8Byte (c : Nat) (b : Byte) : Nat :=
  crc8Bit (crc8Bit (crc8Bit (crc8Bit (crc8Bit (crc8Bit (crc8Bit (crc8Bit (c ^^^ b.toNat))))))))

/-- The beacon CHECK (Table 4.6). -/
def crc8 (l : List Byte) : Nat := l.foldl crc8Byte 0

/-- A beacon word with its CHECK. -/
def mkBeacon (id prt nonce : Nat) (heard fenced : Bool) : W64 :=
  let v := 0xA5C3 * 2 ^ 40 + id % 8192 * 2 ^ 27 + prt % 32 * 2 ^ 22 + nonce % 65536 * 2 ^ 6 + b2n heard * 2 + b2n fenced
  BitVec.ofNat 64 (v * 256 + crc8 (bytesBE 7 v))

/-- The beacon port `n` sends in SEEK and FENCED (R130). -/
def ownBeacon (s : State) (n : Nat) : W64 :=
  let p := port s n
  mkBeacon (ownId s) n p.nonce.toNat (decide (4 ≤ p.heard)) (p.st == .fenced)

/-- A beacon received without error. -/
def beaconOk (w : W64) : Bool :=
  nbits w.toNat 63 48 == 0xA5C3 && nbits w.toNat 13 10 == 0 && nbits w.toNat 7 0 == crc8 (bytesBE 7 (w.toNat / 256))

/-! ### What follows a change of state -/

/-- The engine is in solo state (R139). -/
def solo (s : State) : Bool := (range 4 18).all (fun n => (port s n).alone || (port s n).st == .fenced)

/-- Entering and leaving solo state set their events (R139). -/
def soloUpdate (s : State) : State :=
  let was := rbit s R.prtStatus 0
  let is := solo s
  if was == is then s else ev R.prtAllEvents (if is then 0 else 1) (wbitAt R.prtStatus 0 is s)

/-- Every serial port that boot step 5 waits for has settled (Table 15.2). -/
def portsSettled (s : State) : Bool :=
  (range 4 30).all (fun n =>
    !enabled s n || (port s n).st == .active || (port s n).st == .fenced || (port s n).st == .fault || (port s n).alone)

/-- Step 5 ends once the boot record has its outcome and the ports have settled (Table 15.2). -/
def step5Check (s : State) : State :=
  if bootStep s == 5 && s.boot.recordOut.isSome && portsSettled s then enterStep6 s else s

/-- What a change of a port's state may bring about. -/
def portChanged (s : State) : State := step5Check (soloUpdate s)

/-- The cells, accesses and slots of a port that goes out of use (R128, R155, R247, R259). -/
def portDrop (n : Nat) (s : State) : State :=
  let p := port s n
  let cells := p.qVc3 ++ p.qVc2 ++ p.qCirc ++ p.qVc0s ++ p.qVc0r ++ p.qVc1r
  let s := cntBy (R.prtDownDiscardCount n) cells.length s
  let s := if cells.isEmpty then s else telDisc n cells.length false s
  let s := modPort n (fun p => { p with
    qVc3 := [], qVc2 := [], qCirc := [], qVc0s := [], qVc0r := [], qVc1r := [], rtt := none, echo := none
    part := none, pos := none, first := none, lock := false, uncorrRun := 0 }) s
  let s := settleSends (forEach cells cellSent s)
  if serial n then losePeer n (resetOrder n (dropHeldFor n s)) else s

/-- The fields every entry to DOWN, FENCED or FAULT, and to TRAIN, sets. -/
def freshState (st : PState) (t : Nat) (p : Port) : Port :=
  { p with
    st := st, entered := t, lite := false, resuming := false, ovlRun := false, ovlOn := false, ovlCut := false, ovlTail := false
    ovlHold := false, retrain := false, req := .none
    reqAdmin := false, reqIdle := false, owed := [], lowNext := none, txCells := 0, txBuf := [], wakeSent := false, wakeRcvd := false, wakeBoth := none, fromSleep := false
    alignRec := none, alignRuns := 0, accepted := false, heard := 0, beaconSeen := false, peerFenced := false
    lock := false, pos := none, first := none, part := none, uncorrRun := 0 }

/-- Enter DOWN with a REASON (R128, R138). -/
def goDown (n reason : Nat) (s : State) : State :=
  portChanged (portDrop n (modPort n (fun p => { freshState .down (now s) p with reason := reason, alone := false }) s))

/-- The peer's ID: in ALIGN that of its last record, otherwise PRTn_PEER.
DEDUCED (log 39): Table 13.2 says peer ID, and PRTn_PEER has it only from ACTIVE on (R136). -/
def peerSeen (s : State) (n : Nat) : Nat :=
  match (if (port s n).st = .align then (port s n).alignRec else none) with
  | some b => lId b
  | none => rfld s (R.prtPeer n) 12 0

/-- Raise the link detector for peer `peer` (R408, Table 13.2). -/
def linkRaise (n peer reason : Nat) (inj : Bool) (s : State) : State :=
  raise { i := 4, inj := inj, port := n, engine := peer, code := reason } s

/-- Enter FENCED (R135); `raised` tells that the FENCE command is not the cause. -/
def goFenced (n reason : Nat) (raised : Bool) (s : State) : State :=
  let peer := peerSeen s n
  let s := portDrop n (modPort n (fun p => { freshState .fenced (now s) p with reason := reason }) s)
  let s := ev (R.prtEvents n) 6 s
  let s := if serial n then emit (.beacon n (ownBeacon s n)) s else s
  portChanged (if raised then linkRaise n peer reason false s else s)

/-- Enter TRAIN; queued cells wait in their queues, the port being out of use. The leader starts training frames (R131). -/
def goTrain (n : Nat) (s : State) : State :=
  let s := modPort n (freshState .train (now s)) s
  portChanged (if serial n && (port s n).leader then emit (.training n) s else s)

/-- Link loss (R153). -/
def linkLoss (n reason : Nat) (inj : Bool) (s : State) : State :=
  let peer := peerSeen s n
  let s := evI (R.prtEvents n) 0 15 inj (cnt (R.prtLinkLostCount n) s)
  linkRaise n peer reason inj (goDown n reason s)

/-- A failure of training or of ALIGN (R632): `reason` 12 or 13. -/
def portFail (n reason : Nat) (s : State) : State :=
  let run := (port s n).failRun + 1
  let peer := peerSeen s n
  let s := ev (R.prtEvents n) (reason - 11) (cnt (R.prtTrainFailCount n) s)
  let s := modPort n (fun p => { p with failRun := run }) (goDown n reason s)
  if 8 ≤ run then
    linkRaise n peer 7 false (portChanged (ev (R.prtEvents n) 7 (modPort n (fun p => { p with st := .fault, reason := 7 }) s)))
  else linkRaise n peer reason false s

/-- PRTn_PEER of a record (Table 4.11). -/
def peerWord (b : List Byte) : Nat := lKind b * 2 ^ 22 + lPort b * 2 ^ 17 + lInc b * 2 ^ 13 + lId b

/-- Enter ACTIVE (R136, R632, Table 2.2). -/
def goActive (n : Nat) (s : State) : State :=
  portChanged (modPort n (fun p => { p with
    st := .active, entered := now s, lite := false, resuming := false, ovlRun := false, ovlOn := false, ovlCut := false
    ovlTail := false, retrain := false, failRun := 0
    wakeSent := false, wakeRcvd := false, wakeBoth := none, fromSleep := false, echo := none, traffic := now s
    alone := false }) s)

/-- Enter ACTIVE after ALIGN: the peer's record is compared with the last peer's (R136). -/
def alignDone (n : Nat) (b : List Byte) (s : State) : State :=
  let known := (port s n).peerKnown
  let id := rfld s (R.prtPeer n) 12 0
  let inc := rfld s (R.prtPeer n) 16 13
  let s := if known ∧ lId b ≠ id then ev (R.prtEvents n) 4 s
    else if known ∧ lInc b ≠ inc then ev (R.prtEvents n) 3 s else s
  let s := wrN (R.prtPeer n) (peerWord b) (wrN (R.prtPeerPos n) (lRack b * 256 + lPos b) s)
  goActive n (modPort n (fun p => { p with peerKnown := true }) s)

/-! ### Seek and training (R130–R133, R138) -/

/-- A port leaves DOWN: a serial port for SEEK, with a new NONCE, a PKG port for TRAIN (R126, R127, R157). -/
def portSeek (n : Nat) (s : State) : State :=
  let p := port s n
  if p.st = .down ∧ p.entered + 1024 ≤ now s then
    if isPkg n then (if p.pkgReady && mayLeave s n then goTrain n s else s)
    else if mayLeave s n then
      let f := freeNonce s
      let s := modPort n (fun p => { freshState .seek (now s) p with nonce := f.1 }) f.2
      portChanged (emit (.beacon n (ownBeacon s n)) s)
    else if trainOpen s then modPort n (fun p => { p with reason := if enabled s n then 11 else 1 }) s
    else s
  else s

/-- This end leads training (R131): the lower ID, then the lower NONCE. -/
def leads (s : State) (n : Nat) (w : W64) : Bool :=
  let id := nbits w.toNat 47 35
  decide (ownId s < id) || (ownId s == id && decide ((port s n).nonce.toNat < nbits w.toNat 29 14))

/-- A beacon word on port `n` (R130, R131, R138, R153). DESIGN CHOICE (log 22): HEARD, once set by 4 consecutive valid beacons,
stays set until the port leaves SEEK or FENCED; a bad beacon restarts the count before that only. -/
def beacon (n : Nat) (w : W64) (s : State) : State :=
  let p := port s n
  if p.st = .seek ∨ p.st = .fenced ∨ p.st = .train then
    if !beaconOk w then modPort n (fun p => { p with heard := if p.heard < 4 then 0 else p.heard }) s
    else
      let fenced := w.toNat.testBit 8
      if p.st = .train then (if fenced then linkLoss n 5 false s else s)
      else
        let s := soloUpdate (modPort n (fun p => { p with
          heard := min 4 (p.heard + 1), beaconSeen := true, alone := false
          peerFenced := fenced, reason := if p.st = .seek ∧ fenced = true then 5 else p.reason }) s)
        let s := if p.heard = 3 then emit (.beacon n (ownBeacon s n)) s else s
        if p.st = .seek ∧ (port s n).heard = 4 ∧ w.toNat.testBit 9 = true ∧ fenced = false then
          if nbits w.toNat 47 35 = ownId s ∧ nbits w.toNat 29 14 = (port s n).nonce.toNat then
            let f := freeNonce s
            let s := modPort n (fun p => { p with nonce := f.1 }) f.2
            emit (.beacon n (ownBeacon s n)) s
          else
            let l := leads s n w
            goTrain n (modPort n (fun p => { p with leader := l }) s)
        else s
  else s

/-- Training is complete: a serial port enters ALIGN; a PKG port enters ACTIVE, or FAULT with more than 8 failed lanes in
one direction (R127, R157). A port that a lasting overload took to TRAIN stays until the indication clears (R152). No command
brings the leader's first frame to the follower, whose own frames are shown here at the latest (R131, log 22). -/
def trainComplete (n lanes : Nat) (s : State) : State :=
  let p := port s n
  if p.st = .train ∧ p.ovlHold = false then
    if isPkg n then
      (if 8 < lanes then
        linkRaise n (peerSeen s n) 8 false (portChanged (ev (R.prtEvents n) 7
          (portDrop n (modPort n (fun p => { freshState .fault (now s) p with reason := 8 }) s))))
      else goActive n s)
    else
      modPort n (fun p => { p with
        st := .align, entered := now s, lite := false, alignRec := none, alignRuns := 0, accepted := false, lock := true
        txCells := 0, txBuf := [] }) (if p.leader then s else emit (.training n) s)
  else s

/-! ### The ALIGN exchange (R134–R137) -/

/-- Check 2 of Table 4.7. -/
def dupId (s : State) (b : List Byte) : Bool := lKind b == 0 && lId b == ownId s

/-- The REASON of the first check of Table 4.7 that fails. -/
def alignCheck (s : State) (n : Nat) (b : List Byte) : Option Nat :=
  let slot := ownSlot s
  if lKind b ≠ kindFor n then some 6
  else if dupId s b then some 2
  else if 4 ≤ n ∧ n ≤ 18 ∧ ¬ (lPort b = 22 - n ∧ lPos b % 16 = (slot + (n - 4) + 1) % 16) then some 3
  else if 21 ≤ n ∧ n ≤ 28 ∧ ¬ (lPos b % 16 = n - 21 ∧ lRack b = rfld s R.glbPosition 13 8) then some 3
  else if rbit s (R.prtConfig n) 2 = true ∧ lId b ≠ rfld s (R.prtExpect n) 12 0 then some 4
  else if (lFlags b).testBit 1 then some 5
  else none

/-- Two ALIGN records are identical: bytes 0 and 2–59 (R134). -/
def sameRecord (a b : List Byte) : Bool := a.take 1 == b.take 1 && slice a 2 58 == slice b 2 58

/-- An ALIGN record on port `n` (R134, R135). A record that shows FENCED leaves as the port enters FENCED, so that the peer
fails check 6 (log entry 37). The record with ACCEPTED is due from the tick the checks pass, so that the peer
receives one even where the port is ACTIVE before its next control codeword (log entry 37). -/
def alignTake (n : Nat) (b : List Byte) (s : State) : State :=
  let p := port s n
  if serial n = true ∧ p.st = .align ∧ p.lite = false ∧ recordIs 0x01 b = true then
    let runs := match p.alignRec with | some a => if sameRecord a b then p.alignRuns + 1 else 1 | none => 1
    let s := modPort n (fun p => { p with alignRec := some b, alignRuns := runs }) s
    if 2 ≤ runs then
      match alignCheck s n b with
      | some r => goFenced n r true (emit (recordOut s n 0x01 2) s)
      | none =>
        let s := modPort n (fun p => { p with accepted := true, owed := if p.accepted then p.owed else p.owed ++ [(0x01, 1)] }) s
        if (lFlags b).testBit 0 then alignDone n b s else s
    else s
  else s

/-- The receiver of an ACTIVE port, or of one in ALIGN with LITE, has its codewords: it is in no overload, and has lock (R146,
R149, R151), and it is not about to train (R152). -/
def hears (p : Port) : Bool := p.st == .active || (p.st == .align && p.lite && p.lock && !p.ovlOn && !p.ovlTail && !p.retrain)

/-- A KEEP record on port `n` (R137, R146, R151). -/
def keepTake (n : Nat) (b : List Byte) (s : State) : State :=
  let p := port s n
  if serial n = true ∧ recordIs 0x02 b = true ∧ hears p = true then
    if lInc b ≠ rfld s (R.prtPeer n) 16 13 ∨ lKind b ≠ rfld s (R.prtPeer n) 23 22 ∨ lPort b ≠ rfld s (R.prtPeer n) 21 17 then
      linkLoss n 10 false s
    else
      let renamed := decide (lId b ≠ rfld s (R.prtPeer n) 12 0)
      let s := if renamed then ev (R.prtEvents n) 5 (wfld (R.prtPeer n) 12 0 (lId b) s) else s
      if renamed && dupId s b then goFenced n 2 true s
      else if p.st = .align then goActive n s
      else s
  else s

/-! ### DOZE and SLEEP (R140–R148) -/

/-- The port holds cells: queued, waiting at their source for it, or held copies (R141, R143). -/
def holdsCells (s : State) (n : Nat) : Bool :=
  decide (0 < queuedCells (port s n)) || s.waiting.any (fun w => w.port == n) || s.hold.any (fun h => h.port == n)

/-- The port is the time parent at either scope. -/
def timeParent (s : State) (n : Nat) : Bool := s.roots.rackParent == n || s.roots.machParent == n

/-- Enter DOZE or SLEEP; a cell queued meanwhile wakes a DOZE port (Table 4.2). -/
def goLow (n : Nat) (sleep : Bool) (s : State) : State :=
  let s := modPort n (fun p => { p with
    st := if sleep then .sleep else .doze, entered := now s, req := .none, reqAdmin := false, reqIdle := false
    owed := [], lowNext := none, txCells := 0, txBuf := [], lock := false, pos := none, first := none, part := none }) s
  if !sleep && decide (0 < queuedCells (port s n)) then resume n false s else s

/-- A record is due in the next control codeword (R141). -/
def owe1 (n op flags : Nat) (s : State) : State := modPort n (fun p => { p with owed := p.owed ++ [(op, flags)] }) s

/-- A power request: its record is sent in the next control codeword (R140, R141). -/
def powerRequest (n : Nat) (sleep admin idle : Bool) (s : State) : State :=
  owe1 n (if sleep then 0x13 else 0x10) (4 * b2n admin)
    (modPort n (fun p => { p with req := if sleep then .sleep else .doze, reqAdmin := admin, reqIdle := idle }) s)

/-- The port's own request has not been sent yet. -/
def requestOwed (p : Port) : Bool := p.owed.any (fun e => e.1 == 0x10 || e.1 == 0x13)

/-- A DOZE_REQ or SLEEP_REQ record (R141, R142). Requests that cross are each taken as the other's ACK; a port whose own
request is still due enters the state as it has sent it. A resuming port answers NAK; so does, DESIGN CHOICE (log 22), one in
ALIGN with LITE whose overload has cleared. -/
def powerAnswer (n : Nat) (sleep : Bool) (b : List Byte) (s : State) : State :=
  let p := port s n
  if serial n = true ∧ recordIs (if sleep then 0x13 else 0x10) b = true ∧ (hears p || (p.st == .align && p.resuming)) = true then
    if p.st = .active ∧ p.req ≠ .none then
      let low := sleep && p.req == .sleep
      if requestOwed p then modPort n (fun p => { p with lowNext := some low }) s else goLow n low s
    else
      let nak := holdsCells s n || (!(lFlags b).testBit 2 && timeParent s n) || p.st != .active
      let s := owe1 n ((if sleep then 0x14 else 0x11) + b2n nak) 0 s
      if nak then s else modPort n (fun p => { p with lowNext := some sleep }) s
  else s

/-- DOZE_ACK or SLEEP_ACK: the requesting end enters the state it asked for (R141). -/
def powerAck (n : Nat) (sleep : Bool) (b : List Byte) (s : State) : State :=
  let p := port s n
  if serial n = true ∧ p.st = .active ∧ recordIs (if sleep then 0x14 else 0x11) b = true
      ∧ p.req = (if sleep then .sleep else .doze) then goLow n sleep s
  else s

/-- DOZE_NAK or SLEEP_NAK (R140, R141). -/
def powerNak (n : Nat) (sleep : Bool) (b : List Byte) (s : State) : State :=
  let p := port s n
  if serial n = true ∧ p.st = .active ∧ recordIs (if sleep then 0x15 else 0x12) b = true
      ∧ p.req = (if sleep then .sleep else .doze) then
    ev (R.prtEvents n) 8 (modPort n (fun p => { p with
      req := .none, reqAdmin := false, reqIdle := false, traffic := if p.reqIdle then now s else p.traffic }) s)
  else s

/-- RETRAIN is sent and the port enters TRAIN (R127). -/
def retrainSend (n : Nat) (s : State) : State := goTrain n (emit (recordOut s n 0x30 0) s)

/-- RETRAIN is due in the next control codeword, with which the port enters TRAIN (R151, R152). -/
def retrainOwe (n : Nat) (s : State) : State :=
  modPort n (fun p => { p with retrain := true, owed := [(0x30, 0)], lowNext := none }) s

/-- The idle timer asks for DOZE (R140). -/
def idleDoze (n : Nat) (s : State) : State :=
  let p := port s n
  if serial n = true ∧ p.st = .active ∧ rbit s (R.prtConfig n) 1 = true ∧ p.req = .none
      ∧ p.lowNext = none ∧ p.traffic + rfld s (R.prtConfig n) 31 16 * 64 ≤ now s then powerRequest n false false true s
  else s

/-- A resume has passed its limit (R146, R147). -/
def resumeOver (s : State) (n : Nat) : Bool :=
  let p := port s n
  p.resuming && (match p.wakeBoth with
    | some t => decide (t + (if p.fromSleep then 32768 else 320) < now s)
    | none => false)

/-! ### Codewords and overload (R118–R125, R149–R152) -/

/-- FIRST of the next cell-stream codeword (R120). -/
def nextFirst (f : Nat) : Nat := (76 - (640 - f) % 76) % 76

/-- Slots of the cell stream that begin in a codeword with FIRST `f`. -/
def slotsIn (f : Nat) : Nat := (640 - f + 75) / 76

/-- An overloaded codeword: its slots are discarded and counted once each, with the slot begun before the first of them
(R149). -/
def overloaded (n : Nat) (ok : Bool) (s : State) : State :=
  let p := port s n
  let pos := (p.pos.getD 18 + 1) % 20
  let s := if ok then s
    else
      let s := ev (R.prtEvents n) 13 (cnt (R.prtFecUncorrCount n) s)
      raise { i := 5, port := n, engine := rfld s (R.prtPeer n) 12 0 } s
  let s := if pos = 19 then s
    else
      let f := p.first.getD 0
      modPort n (fun p => { p with first := some (nextFirst f), part := none, ovlCut := false })
        (cntBy (R.prtOverloadDiscardCount n) (slotsIn f + b2n (p.ovlCut && decide (0 < f))) s)
  modPort n (fun p => { p with pos := some pos, ovlTail := p.ovlTail && p.ovlOn }) s

/-- A codeword the decoder cannot correct (R125); 8 in a row are a link loss (R153). A control codeword holds no byte of a
cell. -/
def uncorrectable (n : Nat) (inj : Bool) (s : State) : State :=
  let s := evI (R.prtEvents n) 13 15 inj (cnt (R.prtFecUncorrCount n) s)
  let s := raise { i := 5, inj := inj, port := n, engine := rfld s (R.prtPeer n) 12 0 } s
  let s := modPort n (fun p =>
    let ctrl := p.pos == some 18
    { p with
      uncorrRun := p.uncorrRun + 1, part := if ctrl then p.part else none, pos := p.pos.map (fun q => (q + 1) % 20)
      first := if ctrl then p.first else p.first.map nextFirst }) s
  if 8 ≤ (port s n).uncorrRun then linkLoss n 9 inj s else s

/-- The 76-byte cells of a byte sequence, with what is left over. -/
def cutCells : Nat → List Byte → List (List Byte) × List Byte
  | 0, l => ([], l)
  | k + 1, l =>
    if l.length < 76 then ([], l)
    else
      let r := cutCells k (l.drop 76)
      (l.take 76 :: r.1, r.2)

/-- Delimit the cells of a cell-stream body that has its first cell at byte `f` (R120). -/
def delimit (n f : Nat) (body : List Byte) (s : State) : State :=
  let head := match (port s n).part with
    | some l => if (l ++ body.take f).length = 76 then [l ++ body.take f] else []
    | none => []
  let r := cutCells 9 (body.drop f)
  modPort n (fun p => { p with rx := p.rx ++ head ++ r.1, part := some r.2 }) s

/-- The header of a codeword is one R119 accepts. -/
def headerGood (p : Port) (h : Nat) : Bool :=
  let kind := nbits h 19 18
  let pos := nbits h 17 13
  decide (kind ≤ 1) && ((kind == 1) == (pos == 19)) && decide (pos ≤ 19) && decide (nbits h 12 6 ≤ 75)
    && (match p.pos with | some q => pos == (q + 1) % 20 | none => true)

/-- A link record that is not ignored: good RECORD_CHECK and an OP of Table 4.4 (R121). -/
def recordGood (b : List Byte) : Bool :=
  [0x01, 0x02, 0x10, 0x11, 0x12, 0x13, 0x14, 0x15, 0x30].any (fun op => recordIs op b)

/-- The step that takes record `b` takes it from the port that holds it. -/
def recTaken (n : Nat) (b : List Byte) (s : State) : State :=
  if (port s n).rxRec = some b then modPort n (fun p => { p with rxRec := none }) s else s

/-- A codeword received on port `n`: whether the decoder could correct it, how many symbols it corrected, its header and
its body (R118–R125, R149). -/
def codeword (n : Nat) (ok : Bool) (corr h : Nat) (body : List Byte) (s : State) : State :=
  let p := port s n
  if serial n = true ∧ (p.st = .active ∨ p.st = .align) then
    if p.ovlRun && (p.ovlOn || p.ovlTail) then overloaded n ok s
    else if !ok || !headerGood p h then uncorrectable n false s
    else
      let f := awlFire 5 (some n) none none s
      if f.2 then uncorrectable n true f.1
      else
        let s := cntBy (R.prtFecCorrCount n) corr f.1
        let s := modPort n (fun p => { p with uncorrRun := 0, pos := some (nbits h 17 13), lock := true }) s
        if nbits h 19 18 = 0 then
          delimit n (nbits h 12 6) (slice body 0 640)
            (modPort n (fun p => { p with first := some (nextFirst (nbits h 12 6)) }) s)
        else if recordGood (body.take 64) then modPort n (fun p => { p with rxRec := some (body.take 64) }) s
        else s
  else s

/-- The overload indication of an OPT port is asserted (R149). -/
def overload (n : Nat) (s : State) : State :=
  let p := port s n
  if (n = 29 ∨ n = 30) ∧ p.ovl = false then
    let s := ev (R.prtEvents n) 11 s
    portChanged (modPort n (fun p =>
      if p.st = .active then
        { p with
          st := .align, lite := true, ovl := true, ovlRun := true, ovlOn := true, ovlCut := true, ovlTail := false, ovlAt := now s
          entered := now s, lock := false }
      else { p with ovl := true }) s)
  else s

/-- The indication clears (R151). -/
def overloadClear (n : Nat) (s : State) : State :=
  if (port s n).ovl then modPort n (fun p => { p with
      ovl := false, ovlOn := false, ovlHold := false, ovlTail := p.ovlTail || p.ovlOn, ovlClear := if p.ovlOn then now s else p.ovlClear }) s
  else s

/-! ### Port commands (R127, R129, R135) -/

/-- A command the state does not allow (R129). -/
def cmdIgnored (n : Nat) (s : State) : State := ev (R.prtEvents n) 14 s

/-- The REASON of a port that a command takes to DOWN (Table 4.10, R126). -/
def downReason (s : State) (n : Nat) : Nat :=
  if !enabled s n then 1 else if serial n ∧ n ≠ 19 ∧ n ≠ 20 ∧ ownId s = 0x1FFF then 11 else 0

def cmdFence (n : Nat) (s : State) : State := goFenced n 1 false s

def cmdUnfence (n : Nat) (s : State) : State :=
  if (port s n).st = .fenced then goDown n (downReason s n) s else cmdIgnored n s

/-- DOZE and SLEEP commands (R140, R142, R143). DESIGN CHOICE (log 22): with an ACK of its own due, the port is on its way to DOZE
or SLEEP, which allow no such command. -/
def cmdPower (n : Nat) (sleep : Bool) (s : State) : State :=
  let p := port s n
  if serial n = true ∧ p.st = .active ∧ p.req = .none ∧ p.lowNext = none then
    if sleep ∧ holdsCells s n = true then ev (R.prtEvents n) 8 s else powerRequest n sleep true false s
  else cmdIgnored n s

/-- RESUME (R129, R144, R145). -/
def cmdResume (n : Nat) (s : State) : State :=
  let p := port s n
  if serial n = true ∧ (p.st = .doze ∨ p.st = .sleep ∨ p.resuming = true) then resume n false s
  else if serial n = true ∧ p.st = .active then s
  else cmdIgnored n s

/-- RETRAIN (R127, R157). A serial port sends the RETRAIN record, on which its peer enters TRAIN too.
DEDUCED (log 22): the rules name the record for this command only on the receiving side. -/
def cmdRetrain (n : Nat) (s : State) : State :=
  let p := port s n
  if serial n = true ∧ (p.st = .active ∨ p.st = .align ∨ p.st = .doze) then retrainSend n s
  else if serial n = false ∧ p.st = .active then goTrain n s
  else cmdIgnored n s

def cmdClearFault (n : Nat) (s : State) : State :=
  if (port s n).st = .fault then modPort n (fun p => { p with failRun := 0 }) (goDown n (downReason s n) s) else cmdIgnored n s

/-- A write to PRTn_COMMAND; reserved values have no effect. -/
def portCommand (n cmd : Nat) (s : State) : State :=
  if 30 < n then s
  else
    match cmd with
    | 1 => cmdFence n s
    | 2 => cmdUnfence n s
    | 3 => cmdPower n false s
    | 4 => cmdPower n true s
    | 5 => cmdResume n s
    | 6 => cmdRetrain n s
    | 7 => cmdClearFault n s
    | _ => s

/-- ENABLE is written 0 (Table 4.10). -/
def portDisable (n : Nat) (s : State) : State :=
  let s := wbitAt (R.prtConfig n) 0 false s
  if (port s n).st = .fenced ∨ (port s n).st = .fault then portChanged s else goDown n 1 s

/-! ### The commands -/

/-- CODEWORD (R125). -/
def execCodeword (n : Nat) (ok : Bool) (corr h : Nat) (body : List Byte) (s : State) : Host.Outcome State Fault Refusal :=
  run (codeword n ok corr h body) s

/-- PORT_SEEK (R127). -/
def execPortSeek (n : Nat) (s : State) : Host.Outcome State Fault Refusal := run (whenB (decide (n ≤ 30)) (portSeek n)) s

/-- BEACON (R130). -/
def execBeacon (n : Nat) (w : W64) (s : State) : Host.Outcome State Fault Refusal := run (whenB (serial n) (beacon n w)) s

/-- TRAIN_COMPLETE: `lanes` is the number of failed lanes of a PKG port in its worse direction (R127, R157). -/
def execTrainComplete (n lanes : Nat) (s : State) : Host.Outcome State Fault Refusal := run (trainComplete n lanes) s

/-- TRAIN_FAIL (R632). -/
def execTrainFail (n : Nat) (s : State) : Host.Outcome State Fault Refusal :=
  run (whenB (serial n && (port s n).st == .train && !(port s n).ovlHold && decide ((port s n).entered + 2 ^ 21 ≤ now s))
    (portFail n 12)) s

/-- ALIGN (R134). -/
def execAlign (n : Nat) (b : List Byte) (s : State) : Host.Outcome State Fault Refusal := run (fun s => alignTake n b (recTaken n b s)) s

/-- ALIGN_FAIL (R632). -/
def execAlignFail (n : Nat) (s : State) : Host.Outcome State Fault Refusal :=
  run (whenB (serial n && (port s n).st == .align && !(port s n).lite && decide ((port s n).entered + 16384 ≤ now s))
    (portFail n 13)) s

/-- KEEP (R137). -/
def execKeep (n : Nat) (b : List Byte) (s : State) : Host.Outcome State Fault Refusal := run (fun s => keepTake n b (recTaken n b s)) s

/-- DOZE_REQ (R141, R142). -/
def execDozeReq (n : Nat) (b : List Byte) (s : State) : Host.Outcome State Fault Refusal := run (fun s => powerAnswer n false b (recTaken n b s)) s

/-- DOZE_ACK (R141). -/
def execDozeAck (n : Nat) (b : List Byte) (s : State) : Host.Outcome State Fault Refusal := run (fun s => powerAck n false b (recTaken n b s)) s

/-- DOZE_NAK (R141). -/
def execDozeNak (n : Nat) (b : List Byte) (s : State) : Host.Outcome State Fault Refusal := run (fun s => powerNak n false b (recTaken n b s)) s

/-- SLEEP_REQ (R141, R142). -/
def execSleepReq (n : Nat) (b : List Byte) (s : State) : Host.Outcome State Fault Refusal := run (fun s => powerAnswer n true b (recTaken n b s)) s

/-- SLEEP_ACK (R141). -/
def execSleepAck (n : Nat) (b : List Byte) (s : State) : Host.Outcome State Fault Refusal := run (fun s => powerAck n true b (recTaken n b s)) s

/-- SLEEP_NAK (R141). -/
def execSleepNak (n : Nat) (b : List Byte) (s : State) : Host.Outcome State Fault Refusal := run (fun s => powerNak n true b (recTaken n b s)) s

/-- RETRAIN_RECORD (R127). -/
def execRetrainRecord (n : Nat) (b : List Byte) (s : State) : Host.Outcome State Fault Refusal :=
  run (whenB (serial n && recordIs 0x30 b
    && ((port s n).st == .active || (port s n).st == .align || (port s n).st == .doze)) (goTrain n)) (recTaken n b s)

/-- FENCE_COMMAND (R127, R135). -/
def execFenceCommand (n : Nat) (s : State) : Host.Outcome State Fault Refusal := run (whenB (decide (n ≤ 30)) (cmdFence n)) s

/-- UNFENCE_COMMAND (R127). -/
def execUnfenceCommand (n : Nat) (s : State) : Host.Outcome State Fault Refusal := run (whenB (decide (n ≤ 30)) (cmdUnfence n)) s

/-- DOZE_COMMAND (R140). -/
def execDozeCommand (n : Nat) (s : State) : Host.Outcome State Fault Refusal := run (whenB (decide (n ≤ 30)) (cmdPower n false)) s

/-- SLEEP_COMMAND (R140, R143). -/
def execSleepCommand (n : Nat) (s : State) : Host.Outcome State Fault Refusal := run (whenB (decide (n ≤ 30)) (cmdPower n true)) s

/-- RESUME (R144). -/
def execResume (n : Nat) (s : State) : Host.Outcome State Fault Refusal := run (whenB (decide (n ≤ 30)) (cmdResume n)) s

/-- RETRAIN_COMMAND (R127, R157). -/
def execRetrainCommand (n : Nat) (s : State) : Host.Outcome State Fault Refusal := run (whenB (decide (n ≤ 30)) (cmdRetrain n)) s

/-- CLEAR_FAULT (R127, R632). -/
def execClearFault (n : Nat) (s : State) : Host.Outcome State Fault Refusal := run (whenB (decide (n ≤ 30)) (cmdClearFault n)) s

/-- PORT_DISABLE (R127, Table 4.10). -/
def execPortDisable (n : Nat) (s : State) : Host.Outcome State Fault Refusal := run (whenB (decide (n ≤ 30)) (portDisable n)) s

/-- IDLE_DOZE (R140). -/
def execIdleDoze (n : Nat) (s : State) : Host.Outcome State Fault Refusal := run (idleDoze n) s

/-- WAKE: a burst detected (R144, R145). -/
def execWake (n : Nat) (s : State) : Host.Outcome State Fault Refusal := run (whenB (serial n) (resume n true)) s

/-- RESUME_TIMEOUT (R147). -/
def execResumeTimeout (n : Nat) (s : State) : Host.Outcome State Fault Refusal :=
  run (whenB (serial n && resumeOver s n) (linkLoss n 9 false)) s

/-- OVERLOAD (R149). -/
def execOverload (n : Nat) (s : State) : Host.Outcome State Fault Refusal := run (overload n) s

/-- OVERLOAD_CLEAR (R151). -/
def execOverloadClear (n : Nat) (s : State) : Host.Outcome State Fault Refusal := run (overloadClear n) s

/-- OVERLOAD_LOCK_TIMEOUT (R151). -/
def execOverloadLockTimeout (n : Nat) (s : State) : Host.Outcome State Fault Refusal :=
  run (whenB ((port s n).st == .align && (port s n).ovlRun && !(port s n).ovlOn && !(port s n).lock
    && decide ((port s n).ovlClear + 2048 ≤ now s)) (retrainOwe n)) s

/-- OVERLOAD_LONG (R152). -/
def execOverloadLong (n : Nat) (s : State) : Host.Outcome State Fault Refusal :=
  run (whenB ((port s n).st == .align && (port s n).ovlRun && (port s n).ovlOn && !(port s n).retrain
      && decide ((port s n).ovlAt + 16384 < now s))
    (fun s => retrainOwe n (ev (R.prtEvents n) 12 s))) s

/-- PORT_ALONE (R138). -/
def execPortAlone (n : Nat) (s : State) : Host.Outcome State Fault Refusal :=
  run (whenB (serial n && (port s n).st == .seek && !(port s n).beaconSeen && decide ((port s n).entered + 1600000 ≤ now s))
    (fun s => portChanged (modPort n (fun p => { p with alone := true }) s))) s

/-- LINK_LOSS: loss of signal, or of codeword lock (R153). -/
def execLinkLoss (n : Nat) (s : State) : Host.Outcome State Fault Refusal :=
  run (whenB (serial n && (port s n).st != .down && (port s n).st != .fenced && (port s n).st != .fault) (linkLoss n 9 false)) s

/-- ACCEL_READY: the accelerator signals ready on a PKG port (R157). -/
def execAccelReady (n : Nat) (s : State) : Host.Outcome State Fault Refusal :=
  run (whenB (isPkg n) (fun s => portSeek n (modPort n (fun p => { p with pkgReady := true }) s))) s

/-- ACCEL_READY_WITHDRAWN (R157). -/
def execAccelReadyWithdrawn (n : Nat) (s : State) : Host.Outcome State Fault Refusal :=
  run (whenB (isPkg n) (fun s =>
    let s := modPort n (fun p => { p with pkgReady := false }) s
    if (port s n).st = .train ∨ (port s n).st = .active then linkLoss n 9 false s else s)) s

end Sys2Proof.Machine
end

