-- ==== Sys2Proof/Machine/Integrity.lean ====
section
/-! DEFINITION. Table memory errors, quench, partition and port resets, identity adoption, and the ring tails software
writes (Integrity, Faults and Spares). -/
namespace Sys2Proof.Machine

/-! ### Table memories (R413, R414) -/

/-- An address is a word of a table memory (Table 21.16). -/
def isTblMem (a : Nat) : Bool :=
  a % 4 == 0
    && (decide (0x1000000 ≤ a ∧ a < 0x1010000) || decide (0x1020000 ≤ a ∧ a < 0x1020200)
      || decide (0x1040000 ≤ a ∧ a < 0x1044000) || decide (0x1060000 ≤ a ∧ a < 0x1082000)
      || decide (0x1800000 ≤ a ∧ a < 0x1880000))

/-- The scrubber reads word `a`, whose cells hold `err` new wrong bits: one is corrected and written back, more are
uncorrectable and stay so until the word is written whole; the bits stored then, which a read returns uncorrected (Table
13.4), are free (log entry 6). -/
def scrub (a err : Nat) (s : State) : State :=
  if s.eccBad.contains a then tblEccHit 0xFF a false s
  else if err = 0 then s
  else if err = 1 then cnt R.glbTblEccCorrCount s
  else
    let f := freeWord s
    tblEccHit 0xFF a false (wr a f.1 { f.2 with eccBad := f.2.eccBad ++ [a] })

/-! ### Quench (R427) -/

/-- Quench stream `k` with a status: QUENCHED, or PART_RESET in a partition reset. -/
def quench (k status : Nat) (s : State) : State :=
  let x := str s k
  if x.st = .idle ∨ x.st = .quenching then s
  else
    let s := annealFlush x.part x.req.step (fun a => a.stream == k) s
    if x.finished then modStr k (fun x => { x with st := .quenching }) (stopStream k x.status s)
    else if (match s.replay with | some r => r.stream == k | none => false) then
      modStr k (fun x => { x with st := .quenching, status := status, finished := true })
        (match s.replay with
          | some r => replayEnd { r with fault := some status } x.inj s
          | none => s)
    else
      let s := stopStream k status s
      let s := modStr k (fun x => { x with st := .quenching, status := status, finished := true }) s
      let s := modPar x.part (fun p => if p.startStr = some k then { p with startStr := none } else p) s
      complete x.part (some k) x.req status (wrN (R.strFault k) status s)

/-- A package transfer of stream `k` is still in flight. -/
def transferOut (s : State) (k : Nat) : Bool :=
  s.txns.any (fun t => match t.owner with
    | .completion _ (some j) _ => j == k
    | .step j _ _ => j == k
    | .shard j _ _ _ => j == k
    | .replay j => j == k
    | _ => false)

/-- BUSY of a partition clears when every stream of it is IDLE (R428). -/
def busyCheck (n : Nat) (s : State) : State :=
  if rbit s (R.parReset n) 9 && (strsOf s n).all (fun k => (str s k).st == .idle) then wbitAt (R.parReset n) 9 false s else s

/-- A quenched stream whose package transfers have finished is IDLE. -/
def quenchDue (s : State) (k : Nat) : Bool := (str s k).st == .quenching && !transferOut s k

/-- The quenched stream returns to IDLE. -/
def quenchComplete (k : Nat) (s : State) : State :=
  let n := (str s k).part
  busyCheck n (toIdle k s)

/-- A write to STRn_COMMAND: 1 is QUENCH, other values have no effect. -/
def strCmd (k : Nat) (v : Word) (s : State) : State × RStat :=
  if fld v 1 0 = 1 then (quench k 0x19 s, .ok) else (s, .refused)

/-! ### Partition reset (R428) -/

/-- Flush what is left of the anneal buffer; the STEP of a decision no request makes is not stated (log entry 6). -/
def flushAll (n : Nat) (s : State) : State :=
  forEach (par s n).anneal (fun a s =>
    let f := freeWord s
    annealDrop n 8 f.1.toNat a f.2) s

/-- RESET written to PARn_RESET. -/
def partitionReset (n : Nat) (discard : Bool) (s : State) : State :=
  let s := wbitAt (R.parReset n) 8 true (wbitAt (R.parReset n) 9 true s)
  let s := forEach (strsOf s n) (fun k => quench k 0x1A) s
  let s := match (par s n).starting with
    | some q => complete n none q 0x1A (modPar n (fun p => { p with starting := none }) s)
    | none => s
  let s := flushAll n (modPar n (fun p => { p with reading := false }) s)
  let s := if (range 0 127).any (fun i =>
      wbit (rd s (R.circuitTbl i)) 31 && fld (rd s (R.circuitTbl i)) 30 27 == n) then
      closeCircuits (fun w => fld w 30 27 == n) s
    else s
  let s := if discard then wr (R.parReqHead n) (rd s (R.parReqTail n)) s else s
  busyCheck n s

/-- RELEASE written to PARn_RESET: HELD clears when BUSY is 0. -/
def release (n : Nat) (s : State) : State :=
  if rbit s (R.parReset n) 9 then s else wbitAt (R.parReset n) 8 false s

/-- A write to PARn_RESET (Table 13.15). -/
def parResetWrite (n : Nat) (v : Word) (s : State) : State × RStat :=
  let s := if wbit v 2 then release n s else s
  (if wbit v 0 then partitionReset n (wbit v 1) s else s, .ok)

/-! ### Port reset (R429) -/

/-- RESET written to PRTn_RESET: port `n` is DOWN with REASON ADMIN. -/
def portReset (n : Nat) (s : State) : State := goDown n 1 s

/-! ### Identity adoption (R430–R432) -/

/-- Every stream is IDLE. -/
def allIdle (s : State) : Bool := s.streams.all (fun x => x.2.st == .idle)

/-- The engine's ID applies (R432); ports that send beacons send it from now on (R130). -/
def setId (id : Nat) (s : State) : State :=
  let s := forEach (range 0 15) selfRank (wrN R.glbEngineId (id % 8192) s)
  forEach ((range 4 30).filter (fun n => (port s n).st == .seek || (port s n).st == .fenced))
    (fun n s => emit (.beacon n (ownBeacon s n)) s) s

/-- A write to GLB_ADOPT (Table 13.13). -/
def adoptWrite (v : Word) (s : State) : State :=
  let old := rd s R.glbAdopt
  let s := wr R.glbAdopt (putFld (old &&& ~~~(v &&& 0x1E)) 28 16 (fld v 28 16)) s
  if wbit v 31 then
    (if fld v 28 16 ≠ ownId s then ev R.glbAdopt 1 s
    else if allIdle s then
      wbitAt R.glbAdopt 0 true { s with mgr := { s.mgr with adoptAt := some (now s) } }
    else ev R.glbAdopt 2 s)
  else s

/-- The adoption window closes. -/
def adoptClose (s : State) : State := wbitAt R.glbAdopt 0 false { s with mgr := { s.mgr with adoptAt := none } }

/-- The window has been open for 2²⁴ ticks. -/
def adoptDue (s : State) : Bool :=
  rbit s R.glbAdopt 0 && (match s.mgr.adoptAt with
    | some t => decide (t + 16777216 ≤ now s)
    | none => false)

/-- The image's registers take a management write now: not in step 4, except in its failed and HOST states (R461, R476). -/
def bootWriteOk (s : State) : Bool :=
  bootStep s != 4 || rbit s R.glbBootStatus 5 || rbit s R.glbBootStatus 6

/-- A write to GLB_ENGINE_ID (R431). -/
def engineIdWrite (v : Word) (s : State) : State × RStat :=
  let id := fld v 12 0
  if 1 ≤ bootStep s ∧ bootStep s ≤ 4 then (if bootWriteOk s then (setId id s, .ok) else (s, .refused))
  else if rbit s R.glbAdopt 0 ∧ id ≠ 0x1FFF then (ev R.glbAdopt 4 (adoptClose (setId id s)), .ok)
  else (ev R.glbAdopt 3 s, .refused)

/-! ### Ring tails (R411) -/

/-- A write of `v` to the tail of a ring of `size` entries: accepted where it leaves no more than `size` unread. -/
def tailWrite (head tail size : Nat) (v : Word) (s : State) : State × RStat :=
  if (rd s head - v).toNat ≤ size then (wr tail v s, .ok) else (s, .refused)

/-! ### The commands -/

/-- SCRUB (R414). -/
def execScrub (a err : Nat) (s : State) : Host.Outcome State Fault Refusal := run (whenB (isTblMem a) (scrub a err)) s

/-- EVENT_TAIL_WRITE (R411). -/
def execEventTailWrite (v : Word) (s : State) : Host.Outcome State Fault Refusal :=
  run (fun s => (tailWrite R.glbEventHead R.glbEventTail 256 v s).1) s

/-- CTRL_RX_TAIL_WRITE (R411). -/
def execCtrlRxTailWrite (v : Word) (s : State) : Host.Outcome State Fault Refusal :=
  run (fun s => (tailWrite R.glbCtrlRxHead R.glbCtrlRxTail 8 v s).1) s

/-- SVY_RX_TAIL_WRITE (R529). -/
def execSvyRxTailWrite (v : Word) (s : State) : Host.Outcome State Fault Refusal :=
  run (fun s => (tailWrite R.telSvyRxHead R.telSvyRxTail 32 v s).1) s

/-- QUENCH (R427). -/
def execQuench (k : Nat) (s : State) : Host.Outcome State Fault Refusal := run (whenB (decide (k < 256)) (quench k 0x19)) s

/-- QUENCH_COMPLETE (R427). -/
def execQuenchComplete (k : Nat) (s : State) : Host.Outcome State Fault Refusal :=
  run (whenB (quenchDue s k) (quenchComplete k)) s

/-- PARTITION_RESET (R428). -/
def execPartitionReset (n : Nat) (discard : Bool) (s : State) : Host.Outcome State Fault Refusal :=
  run (whenB (decide (n < 16)) (partitionReset n discard)) s

/-- RELEASE (R428). -/
def execRelease (n : Nat) (s : State) : Host.Outcome State Fault Refusal := run (whenB (decide (n < 16)) (release n)) s

/-- PORT_RESET (R429). -/
def execPortReset (n : Nat) (s : State) : Host.Outcome State Fault Refusal := run (whenB (decide (n ≤ 30)) (portReset n)) s

/-- ADOPT_OPEN: a write of `v` to GLB_ADOPT (R430). -/
def execAdoptOpen (v : Word) (s : State) : Host.Outcome State Fault Refusal := run (adoptWrite v) s

/-- ENGINE_ID_WRITE (R431). -/
def execEngineIdWrite (v : Word) (s : State) : Host.Outcome State Fault Refusal := run (fun s => (engineIdWrite v s).1) s

/-- ADOPTION_WINDOW_CLOSE (R431). -/
def execAdoptionWindowClose (s : State) : Host.Outcome State Fault Refusal := run (whenB (adoptDue s) adoptClose) s

end Sys2Proof.Machine
end

