-- ==== Sys2Proof/Machine/Time.lean ====
section
/-! DEFINITION. Clocks and machine time: REFCLK and MARK, SYNC cells, steering, root election, joining, and the tick. -/
namespace Sys2Proof.Machine

/-! ### Detectors of time (R85) -/

/-- Loss of lock: detector 11, its count and its event bit (R46, R56, R85). -/
def lossOfLock (inj : Bool) (s : State) : State :=
  let s := evI R.mtcEvents 0 7 inj (cnt R.mtcLockCount s)
  raise { i := 11, inj := inj, code := rfld s R.mtcEvents 7 0 } s

/-- The steering limit: detector 12, its count and its event bit (R85). -/
def steerLimit (inj : Bool) (parent : Nat) (e : Int) (s : State) : State :=
  raise { i := 12, inj := inj, port := parent, engine := rfld s (R.prtPeer parent) 12 0, addr := (BitVec.ofInt 64 e).toNat }
    (evI R.mtcEvents 1 7 inj (cnt R.mtcSteerCount s))

/-- The rack scope is rack-locked in configuration (MTC_MODE.RACK_MODE). -/
def rackLocked (s : State) : Bool := rbit s R.mtcMode 0

/-- The engine is the rack root, or the machine root, as it now takes itself to be. -/
def isRackRoot (s : State) : Bool := rbit s R.mtcStatus 5
def isMachRoot (s : State) : Bool := rbit s R.mtcStatus 6

/-- The engine applies MARK: rack-locked racks, and the configured rack root of a link-steered rack under a rack-locked
machine (Table 2.3). -/
def appliesMark (s : State) : Bool :=
  rackLocked s || (rbit s R.mtcMode 1 && rfld s R.mtcRackRoot 12 0 == ownId s && ownId s != 0x1FFF)

/-- The parent port of the scope the engine follows (R69); 31 for none. -/
def parentPort (s : State) : Nat :=
  if isRackRoot s then (if isMachRoot s then 31 else s.roots.machParent) else s.roots.rackParent

/-- A sample is evaluated under R58 instead of steering. -/
def sampleLocked (s : State) : Bool :=
  if isRackRoot s then rbit s R.mtcMode 1 else rackLocked s && !rbit s R.mtcStatus 3

/-! ### The counter (R51, R63) -/

/-- A forward jump of the MTC made on this tick (R51, R80). -/
def jumpNow (k : Nat) (s : State) : State :=
  if k = 0 then s
  else
    let s := ev R.mtcEvents 3 { s with map := { s.map with jumped := true } }
    { s with t := { s.t with mtc := s.t.mtc + BitVec.ofNat 64 k, jumpFrom := some s.t.mtc } }

/-- A jump decided for the next tick, which then advances by e + 1 (R63). -/
def startJump (k : Nat) (s : State) : State :=
  { s with t := { s.t with jump := k + 1, hold := none, corr := 0 } }

/-- A first sample waits for nothing more: its jump or hold is complete and, in rack-locked mode, the first MARK has been
accepted and the jump decided for the next one made (R75). -/
def joinReady (s : State) : Bool :=
  s.roots.joinAfter && (!sampleLocked s || (s.clk.markSeen && s.clk.bigJump == 0))

/-- A pending correction is at work: in rack-locked mode no steering applies (R58). -/
def steers (s : State) : Bool := s.t.corr != 0 && !sampleLocked s

/-- A hold of `k` ticks (R63); it replaces a hold in progress. -/
def startHold (k : Nat) (s : State) : State :=
  { s with t := { s.t with hold := some k, jump := 0, corr := 0 } }

/-- The MTC resumes counting after a hold; a first sample is then applied (R75). -/
def endHold (s : State) : State :=
  let s := { s with t := { s.t with hold := none } }
  if joinReady s then setJoined s else s

/-- A hold has no ticks left. -/
def holdDone (s : State) : Bool := s.t.hold == some 0

/-- One tick of the counter (R51, R63). -/
def tickTime (s : State) : State :=
  let s := if holdDone s then endHold s else s
  let s := { s with t := { s.t with ticks := s.t.ticks + 1, jumpFrom := none } }
  let b := decide (s.t.ticks % 1024 = 0) && steers s
  match s.t.hold with
  | some k => { s with t := { s.t with hold := some (k - 1) } }
  | none =>
    if s.t.jump ≠ 0 then
      let old := s.t.mtc
      let s := ev R.mtcEvents 3 { s with
        t := { s.t with mtc := s.t.mtc + BitVec.ofNat 64 s.t.jump, jump := 0, jumpFrom := some old }
        map := { s.map with jumped := true } }
      if joinReady s then setJoined s else s
    else if b && decide (0 < s.t.corr) then { s with t := { s.t with mtc := s.t.mtc + 2, corr := s.t.corr - 1 } }
    else if b && decide (s.t.corr < 0) then { s with t := { s.t with corr := s.t.corr + 1 } }
    else { s with t := { s.t with mtc := s.t.mtc + 1 } }

/-! ### SYNC cells (R59–R62) -/

/-- The ports that exchange SYNC: BRD, RCK, OPT. -/
def syncPorts : List Nat := range 4 18 ++ range 21 30

/-- FLAGS of a SYNC (Table 2.2, R566). -/
def syncFlags (s : State) : Nat :=
  b2n (rbit s R.mtcStatus 0) + 2 * b2n (rbit s R.mtcMode 0) + 4 * b2n (rbit s R.mtcMode 1)
    + 8 * b2n (rbit s R.mtcMode 2) + 16 * b2n (rbit s R.mtcStatus 1) + 32 * b2n s.t.hold.isSome
    + 64 * b2n (awlArmed s 11 || awlArmed s 12)

/-- A SYNC payload before its stamps, which the port writes as the first byte leaves (R61, Table 2.2). -/
def syncPayload (s : State) (seq : Nat) : List Byte :=
  pad64 (bytesBE 24 0 ++ bytesBE 2 (rfld s R.mtcRoots 12 0) ++ bytesBE 1 s.roots.rackDist
    ++ bytesBE 2 (rfld s R.mtcRoots 28 16) ++ bytesBE 1 s.roots.machDist ++ bytesBE 1 (syncFlags s)
    ++ bytesBE 1 seq ++ bytesBE 1 (rfld s R.glbPosition 13 8))

/-- Queue one SYNC on port `n`; one that finds the VC3 queue full is lost and SEQ does not advance (R59, R60). -/
def syncQueue (n : Nat) (s : State) : State :=
  if (port s n).st == .active then
    (if 0 < queueFree s n .vc3 then
      let c : Cell :=
        { welt := mkWelt (rfld s (R.prtPeer n) 12 0) (ownId s) s.ep.inj 3 8 0 0 0 0 0 0
          payload := syncPayload s (port s n).seq }
      enqueue n .vc3 c (modPort n (fun p => { p with seq := (p.seq + 1) % 256 }) s)
    else s)
  else s

/-- The stamps of a SYNC on the tick its first byte is handed over (R61); RESIDENCE is 0 where ECHO_TX is 0 (Table 2.2). -/
def syncStamp (n : Nat) (c : Cell) (s : State) : Cell :=
  let e : Nat × Nat := match (port s n).echo with
    | some (tx, rx) => if tx = 0 then (0, 0) else (tx.toNat, (s.t.mtc - rx).toNat)
    | none => (0, 0)
  { c with payload := patch c.payload 0 (bytesBE 8 (mtcN s) ++ bytesBE 8 e.1 ++ bytesBE 8 e.2) }

/-! ### Root choice (R67–R71) -/

/-- The offers held, with their ports, that a test keeps. -/
def offers (s : State) (keep : Offer → Bool) : List (Nat × Offer) :=
  syncPorts.filterMap (fun n => match (port s n).offer with
    | some o => if keep o then some (n, o) else none
    | none => none)

/-- What a port announces at one scope: a root, and its distance from it. -/
structure Ann where
  port : Nat
  root : Nat
  dist : Nat
  /-- local_ticks of the SYNC that announced it -/
  heard : Nat
  /-- the announcing engine had joined -/
  joined : Bool
  deriving DecidableEq, Repr

/-- What an offer announces at rack scope. -/
def rackAnn (x : Nat × Offer) : Ann :=
  { port := x.1, root := x.2.rackRoot, dist := x.2.rackDist, heard := x.2.heard, joined := x.2.flags.testBit 0 }

/-- What an offer announces at machine scope. -/
def machAnn (x : Nat × Offer) : Ann :=
  { port := x.1, root := x.2.machRoot, dist := x.2.machDist, heard := x.2.heard, joined := x.2.flags.testBit 0 }

/-- The announcements that name a root at a distance below 16 (R67, R68). -/
def rooted (l : List Ann) : List Ann := l.filter (fun a => decide (a.dist < 16) && a.root != 0x1FFF)

/-- The best of some ports: lowest distance, then lowest port number. -/
def bestOf : List Ann → Option Ann
  | [] => none
  | a :: t =>
    match bestOf t with
    | none => some a
    | some b => if a.dist < b.dist ∨ (a.dist = b.dist ∧ a.port ≤ b.port) then some a else some b

/-- The lowest root announced. -/
def lowest : List Ann → Option Nat
  | [] => none
  | a :: t =>
    match lowest t with
    | none => some a.root
    | some m => some (min a.root m)

/-- The outcome of a root choice: root ID, distance announced, parent port, and what the parent announced when. -/
structure Choice where
  root : Nat
  dist : Nat
  parent : Nat
  pdist : Nat := 255
  heard : Nat := 0
  deriving DecidableEq, Repr

/-- The engine as root. -/
def asRoot (s : State) : Choice := { root := ownId s, dist := 0, parent := 31 }

/-- Follow root `m` by the best port that offers it; at distance 255 where none does (R67, R68). -/
def follow (m : Nat) (l : List Ann) : Choice :=
  match bestOf (l.filter (fun a => a.root == m)) with
  | some a => { root := m, dist := a.dist + 1, parent := a.port, pdist := a.dist, heard := a.heard }
  | none => { root := m, dist := 255, parent := 31 }

/-- The parent port still counts as offering the root in force, whatever its last SYNC named, until that root is lost
(R71). -/
def keep (s : State) (c : Choice) (l : List Ann) : List Ann :=
  if c.parent = 31 ∨ l.any (fun a => a.port == c.parent && a.root == c.root) then l
  else
    l ++ [{ port := c.parent, root := c.root, dist := c.pdist, heard := c.heard
            joined := match (port s c.parent).offer with | some o => o.flags.testBit 0 | none => false }]

/-- Choose a root among announcements (R68): `can` the engine may announce itself. -/
def chooseRoot (s : State) (can : Bool) (l : List Ann) : Choice :=
  match lowest l with
  | none => if can then asRoot s else { root := 0x1FFF, dist := 255, parent := 31 }
  | some m => if can && decide (ownId s ≤ m) then asRoot s else follow m l

/-- The choice at one scope. `cfg` is the configured root, `elig` says that the engine may be root, `near` holds the
neighbours heard at that scope, `c` is the choice in force. An eligible engine that has not joined does not announce
itself while a joined neighbour is heard, and follows joined neighbours only (R67, R68). -/
def choose (s : State) (cfg : Nat) (elig : Bool) (near all : List Ann) (c : Choice) : Choice :=
  if cfg ≠ 0x1FFF then (if cfg = ownId s then asRoot s else follow cfg (keep s c (rooted all)))
  else
    let waits := elig && !rbit s R.mtcStatus 0 && near.any (fun a => a.joined)
    let l := keep s c (rooted near)
    chooseRoot s (elig && !waits) (if waits then l.filter (fun a => a.joined) else l)

/-- The rack root and the machine root in force. -/
def rackChoice (s : State) : Choice :=
  { root := rfld s R.mtcRoots 12 0, dist := s.roots.rackDist, parent := s.roots.rackParent
    pdist := s.roots.rackPDist, heard := s.roots.rackNamed }
def machChoice (s : State) : Choice :=
  { root := rfld s R.mtcRoots 28 16, dist := s.roots.machDist, parent := s.roots.machParent
    pdist := s.roots.machPDist, heard := s.roots.machNamed }

/-- The rack root chosen afresh (R67, R68). -/
def electRack (s : State) : Choice :=
  choose s (rfld s R.mtcRackRoot 12 0) (rbit s R.mtcMode 2 && ownId s != 0x1FFF)
    ((offers s (fun o => o.rack == rfld s R.glbPosition 13 8)).map rackAnn) ((offers s (fun _ => true)).map rackAnn) (rackChoice s)

/-- The machine root chosen afresh, `self` telling that the engine is rack root (R69, Table 2.3). -/
def electMach (s : State) (self : Bool) : Choice :=
  let all := (offers s (fun _ => true)).map machAnn
  if self && rbit s R.mtcMode 4 && rfld s R.mtcMachineRoot 12 0 == 0x1FFF then asRoot s
  else choose s (rfld s R.mtcMachineRoot 12 0) (self && (rbit s R.mtcMode 3 || rbit s R.mtcMode 4)) all all (machChoice s)

/-- The engine is the root of a choice: at distance 0, not as a follower of its own ID. -/
def isSelf (s : State) (c : Choice) : Bool := c.dist == 0 && c.root == ownId s && ownId s != 0x1FFF

/-- Choose the roots and parents afresh and show them (R67–R71). -/
def elect (s : State) : State :=
  let r := electRack s
  let self := isSelf s r
  let m := electMach s self
  let self2 := isSelf s m
  let s := wfld R.mtcRoots 12 0 r.root (wfld R.mtcRoots 28 16 m.root s)
  let s := wbitAt R.mtcStatus 5 self (wbitAt R.mtcStatus 6 self2 s)
  { s with roots := { s.roots with
      rackParent := r.parent, machParent := m.parent, rackDist := r.dist, machDist := m.dist
      rackPDist := r.pdist, rackNamed := r.heard, machPDist := m.pdist, machNamed := m.heard
      selfSince := if self then s.roots.selfSince else none } }

/-! ### A SYNC sample (R58, R63, R64) -/

/-- JOINED after a first sample (R75): at once when nothing is left to complete. -/
def joinSample (waits : Bool) (s : State) : State :=
  if rbit s R.mtcStatus 0 then s
  else if waits || (sampleLocked s && !s.clk.markSeen) then { s with roots := { s.roots with joinAfter := true } }
  else setJoined s

/-- The nearest multiple of 2²⁴ (R58). -/
def roundMark (e : Nat) : Nat := (e + 0x800000) / 0x1000000 * 0x1000000

/-- The engine keeps its own time against this error: it is too far ahead (R58, R63). -/
def tooFarAhead (s : State) (e : Int) : Bool :=
  if sampleLocked s then decide (e ≤ -8388608) else decide (e < -16777216)

/-- The sample raises the steering limit by itself (R85). -/
def overLimit (s : State) (e : Int) : Bool :=
  (decide (64 < e ∨ e < -64) && rbit s R.mtcStatus 0) || tooFarAhead s e

/-- A first sample that is not applied completes nothing (R75). -/
def joinNot (s : State) : State := { s with roots := { s.roots with joinAfter := false } }

/-- The error of a sample acts in rack-locked mode (R58): no steering applies. DESIGN CHOICE (log 42): a jump decided for the
next MARK stands, whatever smaller error a later sample before that MARK finds. -/
def lockedSample (n : Nat) (e : Int) (s : State) : State :=
  let limit := overLimit s e
  let ahead := tooFarAhead s e
  let s := { s with t := { s.t with corr := 0 } }
  let s := if limit then steerLimit false n e s else s
  if ahead then joinNot (ev R.mtcEvents 2 s)
  else if 8388608 ≤ e then joinSample true { s with clk := { s.clk with bigJump := roundMark e.toNat } }
  else if -64 ≤ e ∧ e ≤ 64 then joinSample (s.clk.bigJump != 0) s
  else s

/-- The error of a sample steers (R63); the sample replaces a hold in progress. -/
def steeredSample (n : Nat) (e : Int) (s : State) : State :=
  let ahead := tooFarAhead s e
  let s := if overLimit s e then steerLimit false n e s else s
  if 64 < e then joinSample true (startJump e.toNat s)
  else if e < -64 then
    (if ahead then joinNot (ev R.mtcEvents 2 { s with t := { s.t with corr := 0, hold := none } })
    else joinSample true (startHold (-e).toNat s))
  else joinSample false { s with t := { s.t with corr := e, hold := none, jump := 0 } }

/-- A sample from the parent port `n` (R63). One that raises the steering limit by itself is no opportunity of injection
point 12 (R561). -/
def syncSample (n tx echo res : Nat) (s : State) : State :=
  let rx : Int := mtcN s
  let rtt : Int := (rx - echo) - res
  let bad := decide (echo = 0 ∨ rtt < 0 ∨ 65535 < rtt)
  let good : Option Nat := if bad then (port s n).rtt else some rtt.toNat
  match good with
  | none => s
  | some g =>
    let s := modPort n (fun p => { p with rtt := some g }) s
    let delay := g / 2
    let e : Int := ((tx + delay : Nat) : Int) - rx
    let s := wr R.mtcError (sat32 e) (wrN R.mtcDelay (delay % 65536) s)
    let f := if overLimit s e then (s, false) else awlFire 12 (some n) none none s
    if f.2 then steerLimit true n e f.1
    else if sampleLocked f.1 then lockedSample n e f.1
    else steeredSample n e f.1

/-- A received SYNC (R60, R63, R67, R74): its stamps are kept for the echo, conflicts are marked, roots chosen, and a
sample from the parent port evaluated. A SYNC that conflicts under R67 is ignored for root choice only. -/
def syncReceive (n : Nat) (c : Cell) (s : State) : State :=
  let p := c.payload
  let tx := fieldBE p 0 8
  let s := modPort n (fun q => { q with echo := some (BitVec.ofNat 64 tx, s.t.mtc) }) s
  let o : Offer :=
    { rackRoot := fieldBE p 24 2 % 8192, rackDist := fieldBE p 26 1, machRoot := fieldBE p 27 2 % 8192
      machDist := fieldBE p 29 1, flags := fieldBE p 30 1, rack := fieldBE p 32 1 % 64, heard := now s }
  let sameRack := o.rack == rfld s R.glbPosition 13 8
  let cfg := rfld s R.mtcRackRoot 12 0
  let mcfg := rfld s R.mtcMachineRoot 12 0
  let rootConflict :=
    (cfg != 0x1FFF && sameRack && o.rackRoot != 0x1FFF && o.rackRoot != cfg)
      || (mcfg != 0x1FFF && o.machRoot != 0x1FFF && o.machRoot != mcfg)
  let modeConflict := sameRack && (o.flags.testBit 1 != rackLocked s)
  let s := if rootConflict || modeConflict then
      wbitAt R.mtcStatus 7 true { s with roots := { s.roots with conflictAt := some (now s) } }
    else s
  let s := if rootConflict then s else modPort n (fun q => { q with offer := some o }) s
  let s := elect s
  let s := if parentPort s ≠ 31 then wbitAt R.mtcStatus 1 false (wbitAt R.mtcStatus 4 false s) else s
  if parentPort s = n then syncSample n tx (fieldBE p 8 8) (fieldBE p 16 8) s else s

/-! ### MARK (R53–R58) -/

/-- The MTC low 24 bits. -/
def mtcLow (s : State) : Nat := mtcN s % 0x1000000

/-- Apply an accepted MARK edge (R54, R58). The tick it was expected on is then no missed one (R56); a return to REFCLK has had
its first MARK edge (R57). -/
def applyMark (s : State) : State :=
  let l := mtcLow s
  let big := s.clk.bigJump
  let s := { s with clk := { s.clk with strays := [], missRun := 0, markSeen := true, bigJump := 0, refBack := false } }
  let s :=
    if l = 0 then jumpNow big s
    else if 0x800000 ≤ l then jumpNow (0x1000000 - l + big) s
    else startHold l (jumpNow big s)
  let s := { s with clk := { s.clk with missFor := mtcN s / 0x1000000 + 1 } }
  if s.t.hold.isNone && joinReady s then setJoined s else s

/-- The stray edges noted, newest first, are all 2²⁴ ± 4 ticks apart. -/
def spaced : List Nat → Bool
  | a :: b :: t => decide (b + 0xFFFFFC ≤ a ∧ a ≤ b + 0x1000004) && spaced (b :: t)
  | _ => true

/-- A MARK edge sampled on this tick (R54, R55, R57). While RACK_FALLBACK is 1 and the PLL has not returned to REFCLK, an
edge is neither tested nor counted. DESIGN CHOICE (log 42): so it is where missed MARKs set RACK_FALLBACK while the PLL never
left REFCLK, until a return to REFCLK; and the accepted fourth stray edge is counted and sets no MARK_STRAY. -/
def markEdge (s : State) : State :=
  let l := mtcLow s
  if rbit s R.mtcStatus 3 then
    (if s.clk.refBack then
      applyMark (wbitAt R.mtcStatus 3 false s)
    else s)
  else if l ≤ 4 ∨ 0xFFFFFC ≤ l then applyMark s
  else
    let st := (now s :: s.clk.strays).take 4
    if st.length = 4 ∧ spaced st then applyMark { s with clk := { s.clk with strayCount := s.clk.strayCount + 1 } }
    else ev R.mtcEvents 6 { s with clk := { s.clk with strays := st, strayCount := s.clk.strayCount + 1 } }

/-- A MARK edge more than 4 ticks overdue (R56). -/
def markMiss (s : State) : State :=
  let s := ev R.mtcEvents 5 { s with clk := { s.clk with
    missRun := s.clk.missRun + 1, missCount := s.clk.missCount + 1, missFor := mtcN s / 0x1000000 + 1 } }
  if s.clk.missRun = 4 then wbitAt R.mtcStatus 3 true (lossOfLock false s) else s

/-! ### Meanings -/

/-- R46, R56: REFCLK is declared lost, in every time mode (R602). -/
def opRefLost (s : State) : State :=
  let s := wbitAt R.clkStatus 1 false (wbitAt R.clkStatus 3 true (ev R.clkEvents 0 s))
  let s := lossOfLock false { s with clk := { s.clk with lostAt := some (now s), refBack := false } }
  wbitAt R.mtcStatus 3 true s

def execRefLost (s : State) : Host.Outcome State Fault Refusal :=
  run (whenB s.clk.lostAt.isNone opRefLost) s

/-- R47: the switch to the local oscillator, within 4,096 ticks of the loss. -/
def opSwitchToLocalOsc (s : State) : State :=
  wbitAt R.clkStatus 2 true (wbitAt R.clkStatus 3 false s)

def execSwitchToLocalOsc (s : State) : Host.Outcome State Fault Refusal :=
  run (whenB (s.clk.lostAt.isSome && rbit s R.clkConfig 0) opSwitchToLocalOsc) s

/-- R48: the return to REFCLK. The first MARK edge after it ends RACK_FALLBACK (R57). -/
def opRefRestored (s : State) : State :=
  let s := wbitAt R.clkStatus 1 true (wbitAt R.clkStatus 2 false (wbitAt R.clkStatus 3 false (ev R.clkEvents 1 s)))
  { s with clk := { s.clk with lostAt := none, refBack := true } }

/-- REFCLK can have been valid for 2²⁴ ticks: as many have passed since it was last found lost or absent. DESIGN CHOICE (log
42): that it was valid throughout them is what the command reports. -/
def refValid (s : State) : Bool :=
  match s.clk.lostAt with
  | some l => decide (l + 2 ^ 24 ≤ now s)
  | none => false

def execRefRestored (s : State) : Host.Outcome State Fault Refusal := run (whenB (refValid s) opRefRestored) s

/-- R53–R55, R57, R602: a MARK edge, which is not ignored where the engine applies MARK or RACK_FALLBACK is 1. -/
def execMarkEdge (s : State) : Host.Outcome State Fault Refusal :=
  runT (whenB (appliesMark s || rbit s R.mtcStatus 3) markEdge) s

/-- A MARK is overdue: more than 4 ticks past its expected tick, and not yet counted. -/
def markDue (s : State) : Bool :=
  appliesMark s && decide (4 < mtcLow s ∧ mtcLow s < 0x800000) && (s.clk.missFor != mtcN s / 0x1000000 + 1)

def execMarkMiss (s : State) : Host.Outcome State Fault Refusal := run (whenB (markDue s) markMiss) s

/-- R59: one SYNC on every ACTIVE fabric port. The count of R75 starts with the first that names the engine as root. -/
def opSyncSend (s : State) : State :=
  let s := elect s
  let names := isRackRoot s && syncPorts.any (fun n => (port s n).st == .active)
  let s := if names && s.roots.selfSince.isNone then { s with roots := { s.roots with selfSince := some (now s) } } else s
  forEach syncPorts syncQueue s

def execSyncSend (s : State) : Host.Outcome State Fault Refusal :=
  run (whenB (decide (now s % 16384 = 0)) opSyncSend) s

/-- R60: a SYNC cell arriving on port `n`. On an SVC port it is consumed and yields nothing. -/
def opSync (n : Nat) (b : List Byte) (s : State) : State :=
  let r := arrive n b s
  match r.2.1 with
  | .sync => if n = 19 ∨ n = 20 then r.1 else syncReceive n r.2.2 r.1
  | _ => r.1

def execSync (n : Nat) (b : List Byte) (s : State) : Host.Outcome State Fault Refusal :=
  runT (whenB (rxOk s n b && (!hopOk b || wType (parseCell b) == 8)) (opSync n b)) s

/-- R63: the end of a hold. -/
def execHoldEnd (s : State) : Host.Outcome State Fault Refusal := runT (whenB (holdDone s) endHold) s

/-- R631: four sync periods have passed without a conflicting SYNC. -/
def conflictOver (s : State) : Bool :=
  match s.roots.conflictAt with
  | some t => decide (t + 65536 ≤ now s)
  | none => false

def opModeConflictClear (s : State) : State :=
  wbitAt R.mtcStatus 7 false { s with roots := { s.roots with conflictAt := none } }

def execModeConflictClear (s : State) : Host.Outcome State Fault Refusal :=
  run (whenB (conflictOver s) opModeConflictClear) s

/-- An offer is older than 4 sync periods (R71). -/
def offerOld (s : State) (n : Nat) : Bool :=
  match (port s n).offer with
  | some o => decide (o.heard + 65536 ≤ now s)
  | none => false

/-- The root in force is lost: 4 sync periods without a SYNC naming it on the parent port (R71). -/
def rackRootLost (s : State) : Bool := s.roots.rackParent != 31 && decide (s.roots.rackNamed + 65536 ≤ now s)
def machRootLost (s : State) : Bool := s.roots.machParent != 31 && decide (s.roots.machNamed + 65536 ≤ now s)

/-- The parents of lost roots count no longer as offering them. -/
def forsake (r m : Bool) (s : State) : State :=
  { s with roots := { s.roots with
      rackParent := if r then 31 else s.roots.rackParent
      machParent := if m then 31 else s.roots.machParent } }

/-- R71: drop the offers not heard for 4 sync periods, let go of a lost root and choose again; a configured root that is
lost and that no port offers sets ROOT_LOST. -/
def opRootLost (s : State) : State :=
  let r := rackRootLost s
  let m := machRootLost s
  let s := forEach syncPorts (fun n s => if offerOld s n then modPort n (fun p => { p with offer := none }) s else s) s
  let s := elect (forsake r m s)
  let lost := (r && rfld s R.mtcRackRoot 12 0 != 0x1FFF && !isRackRoot s && s.roots.rackParent == 31)
    || (m && isRackRoot s && rfld s R.mtcMachineRoot 12 0 != 0x1FFF && !isMachRoot s && s.roots.machParent == 31)
  if lost then wbitAt R.mtcStatus 4 true s else s

def execRootLost (s : State) : Host.Outcome State Fault Refusal :=
  run (whenB (rackRootLost s || machRootLost s || syncPorts.any (offerOld s)) opRootLost) s

/-- R75: three sync periods as own root without a lower root. -/
def selfJoinDue (s : State) : Bool :=
  !rbit s R.mtcStatus 0 && (match s.roots.selfSince with
    | some t => decide (t + 49152 ≤ now s)
    | none => false)

def execRootSelfJoin (s : State) : Host.Outcome State Fault Refusal := run (whenB (selfJoinDue s) setJoined) s

/-- R76: not joined 2²⁶ ticks after boot step 6 began. -/
def islandDue (s : State) : Bool :=
  !rbit s R.mtcStatus 0 && (match s.roots.step6 with
    | some t => decide (t + 67108864 ≤ now s)
    | none => false)

def opIsland (s : State) : State := setJoined (wbitAt R.mtcStatus 1 true s)

def execIsland (s : State) : Host.Outcome State Fault Refusal := run (whenB (islandDue s) opIsland) s

/-- R84: a write to MTC_SNAP captures all 64 bits. -/
def opMtcSnap (s : State) : State :=
  wrN R.mtcSnapLo (mtcN s % 4294967296) (wrN R.mtcSnapHi (mtcN s / 4294967296) s)

def execMtcSnap (s : State) : Host.Outcome State Fault Refusal := run opMtcSnap s

end Sys2Proof.Machine
end

