-- ==== Sys2Proof/Machine/Awl.lean ====
section
/-! DEFINITION. Arming, disarming and leases of injection points, and the opportunities that are ticks (Awl: Injecting
Faults). -/
namespace Sys2Proof.Machine

/-- Fields of the selected point's registers. -/
def AwlPoint.at_ (p : AwlPoint) : Nat := p.atLo.toNat + p.atHi.toNat * 2 ^ 32

/-- The settings an arming takes (R549). -/
def armSettings (s : State) (p : AwlPoint) : ArmS :=
  { on := true, kind := fld p.mode 1 0, gate := wbit p.mode 2, n := fld p.param 15 0, limit := fld p.param 31 16
    atTime := p.at_, filter := p.filter, leaseEnd := now s + p.lease.toNat * 65536 }

/-- AWL_SEL. -/
def awlSel (s : State) : Nat := rfld s R.awlSel 4 0

/-- Replace what point `i` does from the next tick on (R552). -/
def awlSet (i : Nat) (x : ArmS) (s : State) : State :=
  let p := awl s i
  awlStore i { p with old := awlSeen s p, cur := x, wrote := some (now s) } s

/-- An arming that fails its tests: the point keeps its state (R551). -/
def armRefused (bit : Option Nat) (s : State) : State :=
  let s := ev R.awlEvents 0 s
  match bit with
  | some b => ev R.awlEvents b s
  | none => s

/-- A refused write under the seal (R456). -/
def sealRefuse (a : Nat) (s : State) : State := wrN R.glbSealRefusedAddr a (cnt R.glbSealRefusedCount s)

/-- AWL_ARM.ARM written (R551, Table 18.1). -/
def arm (s : State) : State × RStat :=
  let p := awl s (awlSel s)
  if isSealed s ∧ !rbit s R.glbSeal 1 then (armRefused none (sealRefuse R.awlArm s), .refused)
  else if bootStep s ≠ 7 then (armRefused (some 1) s, .refused)
  else if (fld p.mode 1 0 = 2 ∨ wbit p.mode 2) ∧ p.at_ ≤ mtcN s then (armRefused (some 2) s, .refused)
  else (cnt R.awlArmCount (awlSet (awlSel s) (armSettings s p) s), .ok)

/-- AWL_ARM.DISARM written (R553). -/
def disarm (s : State) : State := awlSet (awlSel s) { (awl s (awlSel s)).cur with on := false } s

/-- A write to AWL_ARM; ARM and DISARM together act as a DISARM. -/
def awlArmWrite (v : Word) (s : State) : State × RStat :=
  if wbit v 1 then (disarm s, .ok) else if wbit v 0 then arm s else (s, .ok)

/-- The lease of armed point `i` has ended (R569). -/
def leaseDue (s : State) (i : Nat) : Bool := (awl s i).cur.on && decide ((awl s i).cur.leaseEnd ≤ now s)

/-- Point `i` is disarmed with EXPIRED at the end of the tick: opportunities on it still count (R563). -/
def leaseEnds (i : Nat) (s : State) : State :=
  ev R.awlEvents 3 (awlSet i { (awl s i).cur with on := false } s)

/-- Whole lease units left of the selected point. -/
def leaseLeft (s : State) : Nat :=
  let x := (awl s (awlSel s)).cur
  if x.on then (x.leaseEnd - now s) / 65536 else 0

/-- Every point is disarmed, but for point `keep` (R568). -/
def disarmAll (keep : Option Nat) (s : State) : State :=
  forEach (range 0 19) (fun i s =>
    if some i = keep then s
    else
      let p := awl s i
      awlStore i { p with cur := { p.cur with on := false }, old := { p.old with on := false } } s) s

/-- The opportunities of point 4 on ports ACTIVE in this tick, and of point 11 (Table 18.2). -/
def tickOpportunity (s : State) : State :=
  let ports := (range 4 30).filter (fun n => (port s n).st == .active)
  let s := forEach ports (fun n s =>
    let f := awlFire 4 (some n) none none s
    if f.2 then linkLoss n 9 true f.1 else f.1) { s with mgr := { s.mgr with oppAt := some (now s) } }
  let f := awlFire 11 none none none s
  if f.2 then lossOfLock true f.1 else f.1

/-! ### The commands -/

/-- ARM (R551). -/
def execArm (s : State) : Host.Outcome State Fault Refusal := run (fun s => (arm s).1) s

/-- DISARM (R553). -/
def execDisarm (s : State) : Host.Outcome State Fault Refusal := run disarm s

/-- LEASE_EXPIRED (R569): point `pt`. -/
def execLeaseExpired (pt : Nat) (s : State) : Host.Outcome State Fault Refusal :=
  run (whenB (decide (pt ≤ 19) && leaseDue s pt) (leaseEnds pt)) s

/-- AWL_TICK_OPPORTUNITY (R557): once a tick. -/
def execAwlTickOpportunity (s : State) : Host.Outcome State Fault Refusal :=
  run (whenB (s.mgr.oppAt != some (now s)) tickOpportunity) s

end Sys2Proof.Machine
end

