-- ==== Sys2Proof/Machine/Flash.lean ====
section
/-! DEFINITION. The flash port: its users, frames and busy state, the journal's writes and erases, and software sequences
(Flash and Management Serial Ports, R488–R499; Boot, Configuration Image and Journal, R480–R486). -/
namespace Sys2Proof.Machine

/-- Change the flash port. -/
def modFl (f : FlashS → FlashS) (s : State) : State := { s with fl := f s.fl }

/-- Change where boot stands. -/
def modBoot (f : BootS → BootS) (s : State) : State := { s with boot := f s.boot }

/-- GLB_BOOT_STATUS.FAILED or HOST_WAIT. -/
def hostState (s : State) : Bool := rbit s R.glbBootStatus 5 || rbit s R.glbBootStatus 6

/-! ### Users of the port (R492, Table 16.2) -/

/-- Boot has reads to make: steps 2 to 4 outside the failed and HOST states. -/
def bootReads (s : State) : Bool := decide (2 ≤ bootStep s ∧ bootStep s ≤ 4) && !hostState s

/-- The journal has an erase or a record to write; it writes from step 5 on, behind the BOOT record (R485). -/
def jnlWaits (s : State) : Bool :=
  journalOn s && decide (5 ≤ bootStep s) && (!s.boot.eraseDue.isEmpty || !s.jq.isEmpty)

/-- Status polls, program and erase frames use the descriptor's commands; zero fields and the default settings stand for
0x06, 0x05, bit 0 busy at 1, and 2²² or 2³⁰ ticks (R497). -/
def orDefault (s : State) (v d : Nat) : Nat := if s.boot.desc.deflt ∨ v = 0 then d else v
def wrenCmd (s : State) : Nat := orDefault s s.boot.desc.wren 6
def statusCmd (s : State) : Nat := orDefault s s.boot.desc.status 5
def progTimeout (s : State) : Nat := if s.boot.desc.deflt ∨ s.boot.desc.progTmo = 0 then 4194304 else s.boot.desc.progTmo * 1024
def eraseTimeout (s : State) : Nat := if s.boot.desc.deflt ∨ s.boot.desc.eraseTmo = 0 then 1073741824 else s.boot.desc.eraseTmo * 65536

/-- A status byte says busy (Table 15.4, BUSY). -/
def saysBusy (s : State) (b : Byte) : Bool :=
  let f := orDefault s s.boot.desc.busy 8
  b.toNat.testBit (f % 8) == f.testBit 3

/-! ### Frames (R488–R491) -/

/-- The clock settings of the frames from step 3 on, as NVM_READ_FMT shows them (R488). -/
def sckDiv (s : State) : Nat := rfld s R.nvmReadFmt 20 13
def sckMode (s : State) : Nat := rfld s R.nvmReadFmt 22 21

/-- A frame with the read frame in force: `n` bytes from flash address `a` (R466). -/
def readFrameOf (s : State) (a n : Nat) : FlashFrame :=
  { sckDiv := sckDiv s, mode := sckMode s, cmd := rfld s R.nvmReadCmd 15 0, wide := rbit s R.nvmReadCmd 16
    cmdLanes := rfld s R.nvmReadFmt 2 1, addr := some a, addr32 := rbit s R.nvmReadFmt 3, addrLanes := rfld s R.nvmReadFmt 5 4
    dummy := rfld s R.nvmReadFmt 10 6, dataLanes := rfld s R.nvmReadFmt 12 11, recv := n }

/-- A frame of one lane in every phase: a command of 8 bits, an address of 32 bits where there is one, data bytes sent or
received (R466). -/
def plainFrame (s : State) (cmd : Nat) (addr : Option Nat) (data : List Byte) (recv : Nat) : FlashFrame :=
  { sckDiv := sckDiv s, mode := sckMode s, cmd := cmd, addr := addr, data := data, recv := recv }

/-- The bits of `n`, most significant first. -/
def bitsMsb (w n : Nat) : List Bool := (List.range w).map (fun i => n.testBit (w - 1 - i))

/-- Bits in groups of `l`, one group for each clock cycle. -/
def bitGroups (l : Nat) : Nat → List Bool → List (List Bool)
  | 0, _ => []
  | k + 1, b => if b.isEmpty then [] else b.take l :: bitGroups l k (b.drop l)

/-- What NVM_IO0 to NVM_IO3 carry in one cycle of a phase of `l` lanes: the engine's level, or `none` where it drives
nothing. The highest lane carries the most significant bit (R489); NVM_IO2 and NVM_IO3 are high where fewer than 4 lanes are
used (R491). -/
def laneLevels (l : Nat) (g : List Bool) : List (Option Bool) :=
  (List.range 4).map (fun i =>
    if i < l ∧ l ≤ i + g.length then some (g.getD (l - 1 - i) false) else if 2 ≤ i ∧ l < 4 then some true else none)

/-- A phase that sends `b` on `l` lanes, and one of `n` cycles in which the lanes are the flash's. -/
def phaseOut (l : Nat) (b : List Bool) : List (List (Option Bool)) := (bitGroups l b.length b).map (laneLevels l)
def phaseIn (l n : Nat) : List (List (Option Bool)) := List.replicate n (laneLevels l [])

/-- The lanes in every clock cycle of a frame (R489–R491): command, address, dummy cycles, data. -/
def frameLanes (f : FlashFrame) : List (List (Option Bool)) :=
  phaseOut (2 ^ f.cmdLanes) (bitsMsb (if f.wide then 16 else 8) f.cmd)
    ++ (match f.addr with | some a => phaseOut (2 ^ f.addrLanes) (bitsMsb (if f.addr32 then 32 else 24) a) | none => [])
    ++ phaseIn (2 ^ f.dataLanes) f.dummy
    ++ phaseOut (2 ^ f.dataLanes) (f.data.flatMap (fun b => bitsMsb 8 b.toNat))
    ++ phaseIn (2 ^ f.dataLanes) (8 * f.recv / 2 ^ f.dataLanes)

/-- The lanes while no frame is active (R491). -/
def idleLanes : List (Option Bool) := laneLevels 1 []

/-- A status poll on the journal's select, or on CS1 (R481, R497). -/
def pollFrame (s : State) (cs1 : Bool) (cmd : Nat) : FlashFrame := { plainFrame s cmd none [] 1 with cs1 := cs1 }

/-- A program or erase of the journal: write enable, then the frame (R481, R482). -/
def jnlUnit (s : State) (cmd a : Nat) (data : List Byte) : List Out :=
  [.flash (plainFrame s s.boot.desc.wren none [] 0), .flash (plainFrame s cmd (some a) data 0)]

/-- Data bytes of a software sequence: those sent from the buffer (R497). -/
def swBytes (s : State) (n : Nat) : List Byte :=
  (List.range n).map (fun i => BitVec.ofNat 8 ((rd s (R.nvmFbuf (i / 4))).toNat >>> (8 * (i % 4))))

/-- The address of a software sequence (R497). -/
def swAddr (q : SwSeq) : Nat := if wbit q.cmd 20 then q.addr.toNat else fld q.addr 23 0

/-- Bytes of a journal sector, and sectors of the journal (R480). -/
def sectorSize (s : State) : Nat := 2 ^ s.boot.desc.eraseLog
def sectorCount (s : State) : Nat := 2 ^ (22 - s.boot.desc.eraseLog)
def slotsPer (s : State) : Nat := 2 ^ (s.boot.desc.eraseLog - 6)

/-- The sequence frame of a software sequence (R497). -/
def swFrameOf (s : State) (q : SwSeq) : FlashFrame :=
  let n := fld q.ctrl 8 0
  { cs1 := wbit q.ctrl 19, sckDiv := sckDiv s, mode := sckMode s, cmd := fld q.cmd 15 0, wide := wbit q.cmd 16
    cmdLanes := fld q.cmd 18 17, addr := if wbit q.cmd 19 then some (swAddr q) else none, addr32 := wbit q.cmd 20
    addrLanes := fld q.cmd 22 21, dummy := fld q.cmd 27 23, dataLanes := fld q.cmd 29 28
    data := if wbit q.cmd 30 then swBytes s n else [], recv := if wbit q.cmd 30 then 0 else n }

/-- The flash address of the journal. -/
def jnlBase : Nat := 0x2000000

/-- The next write slot. -/
def jnlSlot (s : State) : Nat := (rdN s R.jnlHeadAddr - jnlBase) / 64

/-! ### Journal writes and erases (R481, R482) -/

/-- The boot record of this boot has its outcome (Table 15.2, step 5); `old` tells a record from before it. -/
def bootRecordDone (old : Bool) (r : JRec) (s : State) : State :=
  if r.kind = 1 ∧ old = false ∧ bootStep s = 5 then modBoot (fun b => { b with recordOut := some (now s) }) s else s

/-- The BODY of a BOOT record as it is written (Table 15.10). -/
def bootBody (s : State) : List Byte :=
  let b := rd s R.glbBootStatus
  bytesLE 1 (rfld s R.glbResetCause 3 0) ++ bytesLE 1 (rfld s R.glbResetCause 7 4) ++ bytesLE 1 (fld b 15 14)
    ++ bytesLE 1 (fld b 8 8 + 2 * fld b 7 7 + 4 * fld b 9 9) ++ bytesLE 4 (rdN s R.glbImageSeq) ++ bytesLE 4 b.toNat
    ++ bytesLE 4 (rdN s R.glbStepping) ++ bytesLE 16 0

/-- The 64 bytes of a journal record (Table 15.9). -/
def recordBytes (s : State) (r : JRec) : List Byte :=
  let b := bytesLE 4 (rdN s R.jnlNextSeq) ++ bytesLE 1 r.kind ++ bytesLE 1 (incarnation s) ++ bytesLE 2 (ownId s)
    ++ slice (if r.kind = 1 then bootBody s else r.body) 0 32 ++ bytesLE 18 0
  b ++ bytesLE 4 (crc32c b) ++ bytesLE 1 0 ++ bytesLE 1 0x3C

/-- The slot after `i`: skipped sectors are passed over (R482). -/
def slotAfter (s : State) (i : Nat) : Nat → Nat
  | 0 => i
  | k + 1 =>
    let j := (i + 1) % (sectorCount s * slotsPer s)
    if j % slotsPer s = 0 ∧ s.boot.skip.contains (j / slotsPer s) then slotAfter s (j + slotsPer s - 1) k else j

/-- The first record has been written into a sector: the erase of the following sector is queued (R482). -/
def queueErase (i : Nat) (s : State) : State :=
  if i % slotsPer s = 0 then modBoot (fun b => { b with eraseDue := b.eraseDue ++ [(i / slotsPer s + 1) % sectorCount s] }) s else s

/-- The journal goes on to the following slot. -/
def nextSlot (s : State) : State :=
  let i := jnlSlot s
  wrN R.jnlHeadAddr (jnlBase + 64 * slotAfter s i (sectorCount s)) (queueErase i s)

/-- A failed write or erase at flash address `a` (R481). -/
def jnlFail (a : Nat) (inj : Bool) (s : State) : State := raise { i := 18, inj := inj, addr := a } (cnt R.jnlFailCount s)

/-- The record at the head of the queue leaves it. -/
def jnlTake (s : State) : State :=
  modBoot (fun b => { b with older := b.older - 1 }) { s with jq := s.jq.tail }

/-- `n` flash bytes from `a` are left as nobody states (log entry 6): a program or erase that did not end in time. -/
def flashFree (a n : Nat) (s : State) : State :=
  forEach (List.range n) (fun i s =>
    let f := freeByte s
    flashWrite (a + i) [f.1] f.2) s

/-- The port is free again. -/
def portFree (s : State) : State :=
  modFl (fun f => { f with owner := .none, busy := false, erasing := false, rcd := [], second := false, polling := false }) s

/-- A record write ends well, or has failed (R481); the next record goes to the following slot. The outcome of the BOOT record
may end step 5 (Table 15.2). -/
def jnlEnd (ok inj : Bool) (s : State) : State :=
  let a := rdN s R.jnlHeadAddr
  let b := s.fl.rcd
  match s.jq with
  | [] => portFree s
  | r :: _ =>
    let s := bootRecordDone (decide (0 < s.boot.older)) r (jnlTake (portFree s))
    let s := if ok then
        let s := if rbit s R.mgtConfig 1 then pushQueue 0x19 b s else s
        wrN R.jnlNextSeq ((rdN s R.jnlNextSeq + 1) % 2 ^ 32) (cnt R.jnlWriteCount (nextSlot s))
      else jnlFail a inj (nextSlot s)
    step5Check s

/-- A program or erase of the journal is over. After the first program of a record the port is free, and the second is a unit
of its own (R481, R492); after the second the record is read back. -/
def jnlProgrammed (s : State) : State :=
  let a := rdN s R.jnlHeadAddr
  let done (s : State) : State := modFl (fun f => { f with busy := false, polling := false }) s
  if s.fl.erasing then done s
  else if s.fl.second then
    emit (.flash (readFrameOf s a 64)) (flashWrite (a + 63) (slice s.fl.rcd 63 1) (done s))
  else flashWrite a (slice s.fl.rcd 0 63) (modFl (fun f => { f with second := true, owner := .none }) (done s))

/-- A frame of the journal has ended: the program or erase frame, whose busy time runs from then on, or a status poll. -/
def jnlFrame (data : List Byte) (s : State) : State :=
  let poll := Out.flash (pollFrame s false s.boot.desc.status)
  if !s.fl.busy then s
  else if !s.fl.polling then emit poll (modFl (fun f => { f with polling := true, since := now s }) s)
  else
    match data with
    | [b] => if saysBusy s b then emit poll s else jnlProgrammed s
    | _ => s

/-- JOURNAL_WRITE: both programs have run, and the slot is read back as `rb`; with injection point 18. -/
def journalWrite (rb : List Byte) (s : State) : State :=
  if s.fl.owner = .journal ∧ s.fl.erasing = false ∧ s.fl.second = true ∧ s.fl.busy = false ∧ rb.length = 64 then
    let good := decide (rb = s.fl.rcd)
    let s := if good then s else flashWrite (rdN s R.jnlHeadAddr) rb s
    let f := if good then awlFire 18 none none none s else (s, false)
    jnlEnd (good && !f.2) f.2 f.1
  else s

/-- JOURNAL_ERASE: the sector at the head of the erases due has been erased. -/
def journalErase (s : State) : State :=
  match s.boot.eraseDue with
  | e :: _ =>
    if s.fl.owner = .journal ∧ s.fl.erasing = true ∧ s.fl.busy = false then
      flashErase (jnlBase + e * sectorSize s) (sectorSize s)
        (modBoot (fun b => { b with eraseDue := b.eraseDue.tail, skip := b.skip.filter (· != e) }) (portFree s))
    else s
  | [] => s

/-- The next write slot lies in no skipped sector (R482). -/
def passSkipped (s : State) : State :=
  let i := jnlSlot s
  if s.boot.skip.contains (i / slotsPer s) then
    wrN R.jnlHeadAddr (jnlBase + 64 * slotAfter s (i / slotsPer s * slotsPer s + slotsPer s - 1) (sectorCount s)) s
  else s

/-- The journal's program or erase is still busy at its timeout: it has failed (R481, R482). -/
def jnlTimeout (s : State) : State :=
  match s.fl.erasing, s.boot.eraseDue with
  | true, e :: t =>
    let a := jnlBase + e * sectorSize s
    jnlFail a false (passSkipped (flashFree a (sectorSize s)
      (modBoot (fun b => { b with eraseDue := t ++ [(e + 1) % sectorCount s], skip := b.skip ++ [e] }) (portFree s))))
  | _, _ => jnlEnd false false (flashFree (rdN s R.jnlHeadAddr) 64 s)

/-- The journal begins its next unit: the second program of the record in hand, an erase that is due, or the first program of
the next record. -/
def jnlServe (s : State) : State :=
  let a := rdN s R.jnlHeadAddr
  let start (er : Bool) (rcd : List Byte) (l : List Out) (s : State) : State :=
    { modFl (fun f => { f with
        owner := .journal, busy := true, since := now s, long := er, erasing := er, polling := false, rcd := rcd }) s with
      out := s.out ++ l }
  if s.fl.second then start false s.fl.rcd (jnlUnit s s.boot.desc.prog (a + 63) (slice s.fl.rcd 63 1)) s
  else
    match s.boot.eraseDue, s.jq with
    | e :: _, _ => start true [] (jnlUnit s s.boot.desc.erase (jnlBase + e * sectorSize s) []) s
    | [], r :: _ =>
      let b := recordBytes s r
      start false b (jnlUnit s s.boot.desc.prog a (slice b 0 63)) s
    | [], [] => s

/-- A software sequence begins: a write-enable frame where it asks for one, then its frame (R497). -/
def swServe (q : SwSeq) (s : State) : State :=
  let s := if wbit q.ctrl 16 then emit (.flash { plainFrame s (wrenCmd s) none [] 0 with cs1 := wbit q.ctrl 19 }) s else s
  modFl (fun f => { f with
    owner := .software, busy := f.busy || wbit q.ctrl 17, since := now s, long := wbit q.ctrl 18, erasing := false
    sw := some { q with sent := true } }) (emit (.flash (swFrameOf s q)) s)

/-- FLASH_PORT_SERVE: the free port begins the unit of the first waiting user in the order of Table 16.2. -/
def portServe (s : State) : State :=
  if s.fl.owner ≠ .none then s
  else if bootReads s ∧ s.fl.busy = false then modFl (fun f => { f with owner := .boot }) s
  else if jnlWaits s ∧ s.fl.busy = false then jnlServe s
  else
    match s.fl.window, s.fl.sw with
    | some (a, n), _ => emit (.flash (readFrameOf s a (4 * n))) (modFl (fun f => { f with owner := .window }) s)
    | none, some q => if q.sent then s else swServe q s
    | none, none => s

/-! ### Software sequences (R497–R499) -/

/-- The busy bit of NVM_FSTATUS. -/
def swBusy (s : State) : Bool := s.fl.sw.isSome

/-- A software sequence ends with a RESULT and the last status byte polled. -/
def swEnd (result : Nat) (s : State) : State :=
  ev R.nvmEvents 0 (wfld R.nvmFstatus 3 1 result { s with fl := { s.fl with sw := none } })

/-- Lanes wired to the flash (R458). -/
def strapLanes (s : State) : Nat :=
  match rfld s R.glbStraps 4 3 with
  | 1 => 2
  | 2 => 4
  | _ => 1

/-- Lanes of a lane field. -/
def lanesOf (v : Nat) : Nat := 2 ^ v

/-- A lane field is not reserved and needs no more lanes than the strap gives (R491). -/
def laneOk (s : State) (v : Nat) : Bool := decide (v ≤ 2 ∧ lanesOf v ≤ strapLanes s)

/-- The RESULT of the first test of Table 16.3 that sequence `q` fails, after the first. -/
def swTest (s : State) (q : SwSeq) : Option Nat :=
  if !(laneOk s (fld q.cmd 18 17) && laneOk s (fld q.cmd 22 21) && laneOk s (fld q.cmd 29 28)) ∨ 256 < fld q.ctrl 8 0 then some 4
  else if ¬ (bootStep s = 7 ∨ (bootStep s = 4 ∧ hostState s = true)) then some 3
  else if journalOn s = true ∧ wbit q.ctrl 19 = false ∧ wbit q.cmd 19 = true
      ∧ (fld q.cmd 15 0 = s.boot.desc.prog ∨ fld q.cmd 15 0 = s.boot.desc.erase)
      ∧ jnlBase ≤ swAddr q ∧ swAddr q < jnlBase + 0x400000 then some 2
  else none

/-- GO written to NVM_FCTRL (R497, R498). -/
def softwareGo (s : State) : State :=
  if swBusy s then ev R.nvmEvents 1 s
  else
    let q : SwSeq := { cmd := rd s R.nvmFcmd, addr := rd s R.nvmFaddr, ctrl := rd s R.nvmFctrl }
    match swTest s q with
    | some r => swEnd r s
    | none => modFl (fun f => { f with sw := some q }) s

/-- What the flash of this board does with a program or erase frame a software sequence has sent: the descriptor's program
command stores the data over what is there, its erase command erases the sector (Table 15.4, R487). -/
def swDevice (q : SwSeq) (s : State) : State :=
  if wbit q.ctrl 19 ∨ wbit q.cmd 19 = false ∨ s.boot.desc.deflt ∨ wbit q.ctrl 16 = false then s
  else
    let a := swAddr q
    if fld q.cmd 15 0 = s.boot.desc.prog ∧ wbit q.cmd 30 then
      let d := swBytes s (fld q.ctrl 8 0)
      flashWrite a (d.zipWith (fun x y => x &&& y) (flashRead s a d.length)) s
    else if fld q.cmd 15 0 = s.boot.desc.erase then flashErase (a / sectorSize s * sectorSize s) (sectorSize s) s
    else s

/-- Received data bytes go to the buffer (R497). -/
def fbufTake (d : List Byte) (n i : Nat) (s : State) : State :=
  forEach (List.range n) (fun j s =>
    wfld (R.nvmFbuf ((i + j) / 4)) (8 * ((i + j) % 4) + 7) (8 * ((i + j) % 4)) (d.getD j 0).toNat s) s

/-- The port of a software sequence is free again; the flash is busy no longer where the sequence has polled it. -/
def swFree (q : SwSeq) (s : State) : State :=
  modFl (fun f => { f with owner := .none, busy := f.busy && !wbit q.ctrl 17 }) s

/-- A frame of a software sequence has ended: the sequence frame, with the bytes it received, or a status poll. -/
def swFrame (q : SwSeq) (data : List Byte) (s : State) : State :=
  let poll := Out.flash (pollFrame s (wbit q.ctrl 19) (statusCmd s))
  if q.ended then
    match data with
    | [b] =>
      let s := wfld R.nvmFstatus 15 8 b.toNat s
      if saysBusy s b then emit poll s else swEnd 0 (swFree q (swDevice q s))
    | _ => s
  else
    let s := if wbit q.cmd 30 then s else fbufTake data (fld q.ctrl 8 0) 0 s
    if wbit q.ctrl 17 then emit poll (modFl (fun f => { f with sw := some { q with ended := true }, since := now s }) s)
    else swEnd 0 (swFree q (swDevice q s))

/-- The frame in progress of a sequence that a reset ended completes, and is the last (R499). The flash stays busy under R494
until a poll in progress says otherwise, or the timeout passes. -/
def stoppedFrame (q : SwSeq) (data : List Byte) (s : State) : State :=
  let s := modFl (fun f => { f with owner := .none, stopped := none }) s
  if q.ended then
    match data with
    | [b] => if saysBusy s b then s else modFl (fun f => { f with busy := false }) (swDevice q s)
    | _ => s
  else
    let s := if wbit q.cmd 30 then s else fbufTake data (fld q.ctrl 8 0) 0 s
    swDevice q (modFl (fun f => { f with since := now s }) s)

/-- A software sequence still busy at its timeout (R497): the flash is no longer treated as busy. -/
def swTimeout (s : State) : State := swEnd 1 (modFl (fun f => { f with owner := .none, busy := false }) s)

/-- The busy state has outlasted its timeout, which runs from the end of the program or erase frame (R481, R497). -/
def busyDue (s : State) : Bool :=
  s.fl.busy && (s.fl.owner != .journal || s.fl.polling) && (match s.fl.sw with | some q => q.ended || !q.sent | none => true)
    && decide (s.fl.since + (if s.fl.long then eraseTimeout s else progTimeout s) ≤ now s)

/-- FLASH_BUSY_TIMEOUT. -/
def busyTimeout (s : State) : State :=
  match s.fl.owner, s.fl.sw with
  | .journal, _ => jnlTimeout s
  | .software, some _ => swTimeout s
  | _, _ => modFl (fun f => { f with busy := false }) s

/-! ### The commands -/

/-- JOURNAL_WRITE (R481). -/
def execJournalWrite (rb : List Byte) (s : State) : Host.Outcome State Fault Refusal := run (journalWrite rb) s

/-- JOURNAL_ERASE (R482). -/
def execJournalErase (s : State) : Host.Outcome State Fault Refusal := run journalErase s

/-- FLASH_PORT_SERVE (R492). -/
def execFlashPortServe (s : State) : Host.Outcome State Fault Refusal := run portServe s

/-- FLASH_BUSY_TIMEOUT (R497, R481). -/
def execFlashBusyTimeout (s : State) : Host.Outcome State Fault Refusal := run (whenB (busyDue s) busyTimeout) s

/-- SOFTWARE_SEQUENCE (R497). -/
def execSoftwareSequence (s : State) : Host.Outcome State Fault Refusal := run softwareGo s

end Sys2Proof.Machine
end

