-- ==== Sys2Proof/Machine/RegRules.lean ====
section
/-! DEFINITION. What kind of register stands at each management address (Register Index, Tables 21.2–21.17), its fields and
reserved encodings, and the writes that act by an access code alone (R8, R12–R14, R448, R449, R455, R456). -/
namespace Sys2Proof.Machine

/-- Who writes a register: the management port, a CTRL cell, or the image. -/
inductive Via where
  | mgt | ctrl | image
  deriving DecidableEq, Repr

/-- A field: bits [hi:lo]; values outside `min` to `max` are reserved encodings (R14). -/
structure FieldR where
  hi : Nat
  lo : Nat
  min : Nat
  max : Nat
  deriving DecidableEq, Repr

/-- A field without reserved encodings. -/
def fAll (hi lo : Nat) : FieldR := { hi := hi, lo := lo, min := 0, max := 2 ^ (hi + 1 - lo) - 1 }

/-- A field that takes `min` to `max`. -/
def fIn (hi lo min max : Nat) : FieldR := { hi := hi, lo := lo, min := min, max := max }

/-- The 32 bits as one field. -/
def fWord : List FieldR := [fAll 31 0]

/-- The kinds of register. -/
inductive RegKind where
  /-- mapped, but not there for this index: reads 0 (note to Table 21.6) -/
  | absent
  | ro
  /-- event bits -/
  | w1c (mask : Nat)
  /-- a counter (R625) -/
  | counter
  | rw (f : List FieldR)
  | rwb (f : List FieldR)
  | rws (f : List FieldR)
  /-- immediate before the seal, at the next flip after it (R455) -/
  | rwn (f : List FieldR)
  /-- CMB_FMT8–15 -/
  | fmt
  /-- a route or lace table word -/
  | table
  /-- a register whose write is an action of its own; `mask` holds the bits that are not reserved -/
  | act (mask : Nat)
  deriving DecidableEq, Repr

/-! ### The blocks -/

/-- Table 21.4. -/
def glbKind (a : Nat) : Option RegKind :=
  match a with
  | 0x00 => some .ro
  | 0x04 => some .ro
  | 0x08 => some (.act 0x1FFF)
  | 0x0C => some .ro
  | 0x10 => some (.rwb [fIn 13 8 0 47, fIn 7 4 0 8, fAll 3 0])
  | 0x14 => some (.act 3)
  | 0x18 => some .ro
  | 0x1C => some (.act 3)
  | 0x20 => some (.w1c 0xFFFFF)
  | 0x24 => some (.rw [fAll 19 0])
  | 0x28 => some (.rw [fAll 19 0])
  | 0x2C => some (.act 0x9FFF001E)
  | 0x30 => some .counter
  | 0x34 => some (.rwn [fAll 28 16, fAll 12 0])
  | 0x38 => some (.rw [fAll 19 0])
  | 0x3C => some (.w1c 0xFFFFF)
  | 0x40 => some .ro
  | 0x44 => some .ro
  | 0x48 => some (.act 1)
  | 0x4C => some .ro
  | 0x50 => some .ro
  | 0x54 => some .ro
  | 0x60 => some .ro
  | 0x64 => some (.act 0xFFFFFFFF)
  | 0x68 => some .counter
  | 0x70 => some .counter
  | 0x74 => some .counter
  | 0x78 => some .ro
  | 0x80 => some .ro
  | 0x84 => some .ro
  | 0x88 => some (.rw [fAll 11 0])
  | 0x8C => some (.w1c 1)
  | 0x240 => some (.rw [fAll 12 0])
  | 0x244 => some (.act 1)
  | 0x248 => some .ro
  | 0x24C => some (.act 0xFFFFFFFF)
  | 0x250 => some (.w1c 0x1F)
  | 0x254 => some .counter
  | _ =>
    if 0x100 ≤ a ∧ a < 0x150 then some .counter
    else if 0x200 ≤ a ∧ a < 0x240 then some (.rw fWord)
    else if 0x400 ≤ a ∧ a < 0x800 ∧ a % 0x80 ≤ 0x40 then some .ro
    else none

/-- Table 21.5. -/
def timeKind (a : Nat) : Option RegKind :=
  match a with
  | 0x10000 => some .ro
  | 0x10004 => some (.rwb [fAll 0 0])
  | 0x10008 => some (.w1c 3)
  | 0x20000 => some .ro
  | 0x20004 => some .ro
  | 0x20008 => some (.act 0)
  | 0x2000C => some .ro
  | 0x20010 => some .ro
  | 0x20014 => some (.rwb [fAll 4 4, fAll 3 3, fAll 2 2, fAll 1 1, fAll 0 0])
  | 0x20018 => some (.rwb [fAll 12 0])
  | 0x2001C => some (.rwb [fAll 12 0])
  | 0x20020 => some .ro
  | 0x20024 => some .ro
  | 0x20028 => some (.w1c 0xFF)
  | 0x2002C => some .ro
  | 0x20030 => some .ro
  | 0x20034 => some .counter
  | 0x20038 => some .counter
  | 0x2003C => some .counter
  | 0x20040 => some .counter
  | _ => none

/-- `k` where the register exists for this port. -/
def forPorts (c : Bool) (k : RegKind) : Option RegKind := some (if c then k else .absent)

/-- Table 21.6, port `n`, offset `o`. -/
def prtKind (n o : Nat) : Option RegKind :=
  let any := decide (n ≤ 30)
  let serial := decide (4 ≤ n ∧ n ≤ 30)
  match o with
  | 0x000 => some .ro
  | 0x004 => forPorts any (.rw [fIn 31 16 1 65535, fAll 2 2, fAll 1 1, fAll 0 0])
  | 0x008 => forPorts any (.act 0xF)
  | 0x00C => forPorts any .ro
  | 0x010 => forPorts any .ro
  | 0x014 => forPorts any (.rw [fAll 12 0])
  | 0x018 => forPorts any (.w1c 0xFFFF)
  | 0x020 => forPorts any .counter
  | 0x024 => forPorts any .counter
  | 0x028 => forPorts any .counter
  | 0x02C => forPorts any .counter
  | 0x030 => forPorts any .counter
  | 0x034 => forPorts (n == 29 || n == 30) .counter
  | 0x038 => forPorts any .counter
  | 0x03C => forPorts (n == 19 || n == 20) .counter
  | 0x040 => forPorts any (.act 1)
  | 0x400 => forPorts serial .counter
  | 0x404 => forPorts serial .counter
  | 0x408 => forPorts serial .counter
  | 0x40C => forPorts serial .counter
  | 0x410 => forPorts serial .counter
  | 0x414 => forPorts any (.w1c 0x3F)
  | 0x500 => forPorts serial .counter
  | 0x504 => forPorts serial .counter
  | 0x508 => forPorts serial .counter
  | 0x50C => forPorts serial .counter
  | 0x510 => forPorts serial .counter
  | 0x514 => forPorts serial .counter
  | 0x518 => forPorts serial .counter
  | 0x51C => forPorts serial .ro
  | 0x520 => forPorts serial (.w1c 0xFF)
  | _ => none

/-- Table 21.7, and the engine-wide port registers of Table 21.6. -/
def tblKind (a : Nat) : Option RegKind :=
  match a with
  | 0x60000 => some .ro
  | 0x60004 => some .ro
  | 0x60008 => some (.w1c 3)
  | 0x80000 => some .ro
  | 0x80004 => some (.rw fWord)
  | 0x80008 => some (.act 0xFFFFFFFF)
  | 0x8000C => some (.act 1)
  | 0x80010 => some (.rw [fIn 19 0 1024 0xFFFFF])
  | 0x80014 => some (.w1c 0x7F)
  | 0x80018 => some .counter
  | 0x8001C => some .counter
  | 0x80020 => some .counter
  | 0x80100 => some (.rws [fIn 2 0 1 7])
  | 0x80104 => some .counter
  | 0x80108 => some .counter
  | 0x8010C => some (.w1c 7)
  | 0x80110 => some (.rws [fIn 15 0 1 65535])
  | 0x80114 => some (.rws [fAll 14 0])
  | 0x80118 => some .ro
  | 0x8011C => some (.w1c 0x3F)
  | 0x80120 => some .counter
  | 0x80124 => some .counter
  | 0x80128 => some .counter
  | 0x8012C => some .counter
  | 0x80130 => some .counter
  | 0x80134 => some (.w1c 0xFFFFFFFF)
  | _ => none

/-- Table 21.8, offset `o` of a stream's block. -/
def strKind (o : Nat) : Option RegKind :=
  match o with
  | 0x00 => some .ro
  | 0x04 => some .ro
  | 0x08 => some .ro
  | 0x0C => some .ro
  | 0x10 => some .ro
  | 0x14 => some .counter
  | 0x18 => some .counter
  | 0x1C => some .ro
  | 0x20 => some .counter
  | 0x24 => some .counter
  | 0x28 => some .counter
  | 0x2C => some .counter
  | 0x40 => some .ro
  | 0x44 => some (.w1c 3)
  | 0x50 => some .ro
  | 0x54 => some .ro
  | 0x60 => some (.act 3)
  | 0xC0 => some .counter
  | 0xC4 => some .counter
  | 0xC8 => some .counter
  | 0xD0 => some .ro
  | 0xD4 => some .ro
  | 0xD8 => some .ro
  | _ => none

/-- Table 21.9, offset `o` of a partition's block. -/
def parKind (o : Nat) : Option RegKind :=
  match o with
  | 0x000 => some (.act 0xFFFFFFFF)
  | 0x004 => some .ro
  | 0x008 => some .ro
  | 0x010 => some (.rws [fIn 13 0 0 8192])
  | 0x014 => some .ro
  | 0x018 => some (.w1c 1)
  | 0x020 => some (.rws [fAll 31 6])
  | 0x024 => some (.rws [fAll 15 0])
  | 0x028 => some (.rws [fIn 4 0 4 16])
  | 0x02C => some (.rws [fAll 31 5])
  | 0x030 => some (.rws [fAll 15 0])
  | 0x034 => some (.rws [fIn 4 0 4 16])
  | 0x038 => some (.rw fWord)
  | 0x03C => some .ro
  | 0x040 => some (.rwb [fIn 7 0 0 128])
  | 0x044 => some .ro
  | 0x048 => some (.rwb [fAll 26 16, fAll 9 0])
  | 0x050 => some (.rwb [fAll 16 8, fAll 7 0])
  | 0x054 => some (.rwb [fIn 6 0 0 88])
  | 0x058 => some .ro
  | 0x05C => some (.rws [fAll 27 16, fAll 11 0])
  | 0x060 => some (.w1c 0x3F)
  | 0x064 => some .ro
  | 0x068 => some (.rws [fIn 1 0 0 2])
  | 0x06C => some (.rws [fIn 1 0 0 2])
  | 0x070 => some (.rws [fIn 3 0 1 15])
  | 0x074 => some .ro
  | 0x078 => some .ro
  | 0x07C => some (.w1c 0x7F)
  | 0x080 => some (.act 7)
  | 0x084 => some (.act 7)
  | _ =>
    if 0x100 ≤ o ∧ o < 0x200 then
      match o % 0x20 with
      | 0x00 => some (.rws [fAll 31 12])
      | 0x04 => some (.rws [fAll 15 0])
      | 0x08 => some (.rws [fAll 31 12])
      | 0x0C => some (.rws [fAll 15 0])
      | 0x10 => some (.rws [fAll 3 0])
      | _ => none
    else none

/-- Tables 21.10 and 21.11, and the engine-wide stream and partition registers. -/
def cmbMemKind (a : Nat) : Option RegKind :=
  match a with
  | 0xB0000 => some (.rwn [fIn 23 0 1024 0xFFFFFF])
  | 0xB0004 => some .counter
  | 0xB0008 => some .counter
  | 0xD0000 => some (.w1c 0xFFFFFFFF)
  | 0xE0040 => some .ro
  | 0xE0044 => some .ro
  | 0xE0048 => some (.w1c 0x1F)
  | 0xE004C => some .counter
  | 0xE0050 => some .counter
  | 0xE0054 => some .counter
  | 0xE0060 => some (.w1c 0x1F)
  | 0xE0064 => some .counter
  | 0xE0068 => some .counter
  | 0x100000 => some (.rwb [fAll 16 0])
  | 0x100004 => some .ro
  | 0x100008 => some (.w1c 0x1FF)
  | 0x10003C => some .ro
  | 0x100040 => some (.rwb [fIn 23 0 1 0xFFFFFF])
  | 0x100044 => some .counter
  | _ =>
    if 0xE0000 ≤ a ∧ a < 0xE0020 then some .ro
    else if 0xE0020 ≤ a ∧ a < 0xE0040 then some .fmt
    else if 0x10000C ≤ a ∧ a < 0x10003C then some .counter
    else none

/-- Tables 21.12 and 21.13. -/
def portsKind (a : Nat) : Option RegKind :=
  match a with
  | 0x120000 => some .ro
  | 0x120004 => some .ro
  | 0x120008 => some .ro
  | 0x120010 => some (.rw [fAll 30 0])
  | 0x120014 => some (.rw fWord)
  | 0x120018 => some (.act 0x800F01FF)
  | 0x12001C => some .ro
  | 0x120020 => some (.w1c 0xF)
  | 0x120024 => some .counter
  | 0x130000 => some (.rw [fIn 31 16 1 65535, fIn 7 4 1 15, fAll 1 1, fAll 0 0])
  | 0x130004 => some (.rw [fAll 19 0])
  | 0x130008 => some .ro
  | 0x13000C => some (.w1c 0x7F)
  | 0x130010 => some .counter
  | 0x130014 => some .counter
  | 0x130018 => some .counter
  | 0x13001C => some .counter
  | 0x130020 => some .counter
  | 0x140000 => some (.rw [fAll 0 0])
  | 0x140004 => some .ro
  | 0x140008 => some .ro
  | 0x140140 => some (.rw [fAll 12 0])
  | 0x140144 => some (.act 1)
  | 0x140148 => some .ro
  | 0x14014C => some (.act 0xFFFFFFFF)
  | 0x140150 => some (.w1c 0xF)
  | 0x140154 => some .counter
  | _ =>
    if 0x120100 ≤ a ∧ a < 0x120200 then some (.rw fWord)
    else if 0x140100 ≤ a ∧ a < 0x140140 then some (.rw fWord)
    else if 0x141000 ≤ a ∧ a < 0x142000 ∧ a % 0x80 ≤ 0x40 then some .ro
    else if 0x144000 ≤ a ∧ a < 0x144000 + 27 * 0x600 then some .ro
    else none

/-- Tables 21.14 and 21.15. -/
def replayKind (a : Nat) : Option RegKind :=
  match a with
  | 0x150000 => some (.rw [fIn 4 0 0 19])
  | 0x150004 => some (.rw [fAll 2 2, fAll 1 0])
  | 0x150008 => some (.rw [fAll 31 16, fIn 15 0 1 65535])
  | 0x15000C => some (.rw fWord)
  | 0x150010 => some (.rw fWord)
  | 0x150014 => some (.rw [fAll 19 0])
  | 0x150018 => some (.rw [fIn 31 0 1 0xFFFFFFFF])
  | 0x15001C => some (.act 3)
  | 0x150020 => some .counter
  | 0x150024 => some .ro
  | 0x150028 => some (.w1c 0x1F)
  | 0x15002C => some .counter
  | 0x150030 => some .ro
  | 0x160000 => some (.rwb [fIn 4 0 0 16])
  | 0x160004 => some .ro
  | 0x160008 => some (.act 0xFFFFFFFF)
  | 0x16000C => some .ro
  | 0x160010 => some (.rw [fAll 31 12])
  | 0x160014 => some (.rw [fAll 15 0])
  | 0x160018 => some (.rw [fIn 15 0 1 65535])
  | 0x16001C => some .ro
  | 0x160020 => some (.w1c 0x3F)
  | 0x160024 => some .counter
  | 0x160028 => some .counter
  | 0x160040 => some (.rw fWord)
  | 0x160044 => some (.rw [fAll 7 0])
  | 0x160078 => some (.act 1)
  | 0x16007C => some .ro
  | 0x160080 => some .ro
  | 0x160084 => some .ro
  | 0x160088 => some .ro
  | 0x170000 => some .ro
  | 0x170004 => some .ro
  | 0x170008 => some .ro
  | 0x17000C => some .counter
  | 0x170010 => some .counter
  | 0x170014 => some .counter
  | _ => if 0x160048 ≤ a ∧ a < 0x160078 then some (.rw (if a % 8 = 0 then fWord else [fAll 15 0])) else none

/-- Table 21.16. -/
def memoryKind (a : Nat) : Option RegKind :=
  if isTableWord a then some .table
  else if 0x1800000 ≤ a ∧ a < 0x1880000 then some (.rws [fAll 12 0])
  else if isTblMem a then some .ro
  else none

/-- The register at a management address; `none` where the address maps to none (R13, R622). -/
def regKind (a : Nat) : Option RegKind :=
  if a % 4 ≠ 0 then none
  else if a < 0x10000 then glbKind a
  else if a < 0x40000 then timeKind a
  else if a < 0x60000 then prtKind ((a - 0x40000) / 0x1000) (a % 0x1000)
  else if a < 0xA0000 then tblKind a
  else if a < 0xB0000 then strKind (a % 0x100)
  else if a < 0xC0000 then cmbMemKind a
  else if a < 0xD0000 then parKind (a % 0x1000)
  else if a < 0x120000 then cmbMemKind a
  else if a < 0x150000 then portsKind a
  else if a < 0x180000 then replayKind a
  else memoryKind a

/-! ### The image's registers (Table 15.7) -/

/-- Writes to a register of this kind have an effect. -/
def RegKind.writable : RegKind → Bool
  | .absent | .ro => false
  | _ => true

/-- The section whose allowed set holds an address; 0 for none. -/
def sectionOf (a : Nat) : Nat :=
  if a % 4 ≠ 0 then 0
  else if a = R.clkConfig then 1
  else if a = R.glbEngineId ∨ a = R.glbPosition ∨ a = R.glbMgrId then 2
  else if 0x40000 ≤ a ∧ a < 0x5F000 ∧ (a % 0x1000 = 4 ∨ a % 0x1000 = 0x14) then 2
  else if a = R.mtcMode ∨ a = R.mtcRackRoot ∨ a = R.mtcMachineRoot then 3
  else if a = R.tblDeflectMax ∨ a = R.tblDrain ∨ a = R.strRetxWait ∨ (0x1000000 ≤ a ∧ a < 0x1008000) then 4
  else if a = R.tblLaceHold ∨ a = R.tblRowMask ∨ (0x1040000 ≤ a ∧ a < 0x1042000) then 5
  else if a = R.memStageBase ∨ a = R.memPkgTimeout ∨ (0x1800000 ≤ a ∧ a < 0x1880000) then 6
  else if 0xC0000 ≤ a ∧ a < 0xD0000 then
    (if a % 0x1000 = 0x84 then 6
    else match parKind (a % 0x1000) with
      | some (.rws _) => 6
      | some (.rwb _) => 6
      | _ => 0)
  else if 0xE0020 ≤ a ∧ a < 0xE0040 then 7
  else if a = R.glbAlertPinMask ∨ a = R.glbAlertRingMask ∨ a = R.glbJournalMask then 9
  else if (0x140000 ≤ a ∧ a < 0x150000) ∨ (0x160000 ≤ a ∧ a < 0x170000) then
    (match regKind a with | some k => if k.writable then 9 else 0 | none => 0)
  else if 0x150000 ≤ a ∧ a < 0x160000 ∧ a ≠ R.awlArm then
    (match regKind a with | some k => if k.writable then 10 else 0 | none => 0)
  else if a = R.glbSeal then 11
  else 0

/-- A register of Table 15.7. -/
def imageAddr (a : Nat) : Bool := sectionOf a != 0

/-! ### Fields -/

/-- Bits a list of fields covers. -/
def fieldsMask : List FieldR → Nat
  | [] => 0
  | f :: t => ((2 ^ (f.hi + 1 - f.lo) - 1) <<< f.lo) ||| fieldsMask t

/-- Write the fields of `v` over `old`; a reserved encoding keeps its field and is reported (R14). -/
def applyFields : List FieldR → Word → Word → Word × Bool
  | [], old, _ => (old, false)
  | f :: t, old, v =>
    let r := applyFields t old v
    let x := fld v f.hi f.lo
    if f.min ≤ x ∧ x ≤ f.max then (putFld r.1 f.hi f.lo x, r.2) else (r.1, true)

/-- A field of `v` holds a reserved encoding. -/
def fieldsBad (l : List FieldR) (v : Word) : Bool :=
  l.any (fun f => decide (fld v f.hi f.lo < f.min ∨ f.max < fld v f.hi f.lo))

/-- The whole-value tests of PARn_LACE_RANGE and PARn_LAST_WINDOW (Tables 6.8, 8.16). -/
def wholeOk (a : Nat) (v : Word) : Bool :=
  if 0xC0000 ≤ a ∧ a < 0xD0000 then
    match a % 0x1000 with
    | 0x048 => decide (fld v 26 16 + fld v 9 0 ≤ 1024)
    | 0x05C => decide (fld v 27 16 + fld v 11 0 ≤ 2048)
    | _ => true
  else true

/-! ### Registers of the selected injection point (R548) -/

/-- The stored value of a register; the AWL registers are those of the selected point. -/
def regGet (s : State) (a : Nat) : Word :=
  let p := awl s (awlSel s)
  match a with
  | 0x150004 => p.mode
  | 0x150008 => p.param
  | 0x15000C => p.atLo
  | 0x150010 => p.atHi
  | 0x150014 => p.filter
  | 0x150018 => p.lease
  | 0x150020 => p.count
  | _ => rd s a

/-- Store a register's value, the AWL registers in the selected point. -/
def regPut (a : Nat) (v : Word) (s : State) : State :=
  let i := awlSel s
  let p := awl s i
  match a with
  | 0x150004 => { s with awl := tset i { p with mode := v } s.awl }
  | 0x150008 => { s with awl := tset i { p with param := v } s.awl }
  | 0x15000C => { s with awl := tset i { p with atLo := v } s.awl }
  | 0x150010 => { s with awl := tset i { p with atHi := v } s.awl }
  | 0x150014 => { s with awl := tset i { p with filter := v } s.awl }
  | 0x150018 => { s with awl := tset i { p with lease := v } s.awl }
  | 0x150020 => { s with awl := tset i { p with count := v } s.awl }
  | _ => wr a v s

/-- Where the increments of a register in this tick are noted. -/
def touchKey (s : State) (a : Nat) : Nat := if a = R.awlCount then awlCountKey (awlSel s) else a

/-! ### Writes by access code -/

/-- GLB_BOOT_STATUS.DONE. -/
def bootDone (s : State) : Bool := rbit s R.glbBootStatus 4

/-- A write to event bits: bits set on this tick stay set (R451). -/
def w1cWrite (a mask : Nat) (v : Word) (s : State) : State :=
  wr a (rd s a &&& ~~~(v &&& BitVec.ofNat 32 mask &&& ~~~(BitVec.ofNat 32 (touched s a)))) s

/-- A write to a counter: the increments of this tick stay counted (R451, R625). -/
def counterWrite (a : Nat) (v : Word) (s : State) : State :=
  let inc := min (touched s (touchKey s a)) (regGet s a).toNat
  let kept := (BitVec.ofNat 32 ((regGet s a).toNat - inc)) &&& ~~~v
  regPut a (BitVec.ofNat 32 (min (kept.toNat + inc) 0xFFFFFFFF)) s

/-- A write whose reserved fields were kept is reported REFUSED (R14). -/
def statOf (bad : Bool) : RStat := if bad then .refused else .ok

/-- An immediate write. -/
def rwWrite (l : List FieldR) (a : Nat) (v : Word) (s : State) : State × RStat :=
  let r := applyFields l (regGet s a) v
  (regPut a r.1 s, statOf r.2)

/-- The staged value a further write builds on. -/
def stagedBase (s : State) (a : Nat) : Word :=
  match tfind a s.stagedNow with
  | some w => w
  | none => match tfind a s.staged with
    | some w => w
    | none => rd s a

/-- A staged write: the value is held pending, and applies at no apply point of the tick it completes on (R448). -/
def rwsWrite (l : List FieldR) (a : Nat) (v : Word) (s : State) : State × RStat :=
  let base := stagedBase s a
  let r := applyFields l base v
  if !wholeOk a r.1 then (s, .refused)
  else if r.2 && r.1 == base then (s, .refused)
  else ({ s with stagedNow := tset a r.1 s.stagedNow }, statOf r.2)

/-- Hold a Boot value pending (R449). -/
def bootStage (a : Nat) (v : Word) (s : State) : State :=
  { s with bootPend := s.bootPend.filter (fun e => e.1 != a) ++ [(a, v)] }

/-- The Boot value a further write builds on. -/
def bootBase (s : State) (a : Nat) : Word :=
  match s.bootPend.find? (fun e => e.1 == a) with
  | some e => e.2
  | none => rd s a

/-- A write to a register whose apply point is Boot (R449, R455, R456). An image's PARn_LACE_RANGE is tested with the cross
tests of Table 15.8. -/
def rwbWrite (via : Via) (l : List FieldR) (a : Nat) (v : Word) (s : State) : State × RStat :=
  if isSealed s ∧ via ≠ .image then
    let r := applyFields l (rd s a) v
    if r.1 ≠ rd s a ∧ wholeOk a r.1 = true then (sealRefuse a s, .refused)
    else (s, statOf (r.2 || !wholeOk a r.1))
  else if via = .image then
    let r := applyFields l (rd s a) v
    (wr a r.1 s, statOf r.2)
  else
    let base := if bootDone s then bootBase s a else rd s a
    let r := applyFields l base v
    if !wholeOk a r.1 then (s, .refused)
    else if bootDone s then ((if r.2 && r.1 == base then s else bootStage a r.1 s), statOf r.2)
    else (wr a r.1 s, statOf r.2)

/-- STR_RETX_WAIT and GLB_MGR_ID: immediate before the seal, staged to the next flip after it (R455). -/
def rwnWrite (via : Via) (l : List FieldR) (a : Nat) (v : Word) (s : State) : State × RStat :=
  if isSealed s ∧ via ≠ .image then rwsWrite l a v s else rwWrite l a v s

/-! ### User formats (R323) -/

/-- Apply a user descriptor: its fields read as written, VALID and CMB_FMT_STATUS by Table 10.5. -/
def fmtApply (n : Nat) (v : Word) (s : State) : State :=
  let ok := fmtOk v
  wbitAt R.cmbFmtStatus n (!ok) (wr (R.cmbFmt n) ((v &&& 0x03FFFFFF) ||| (if ok then 0x80000000 else 0)) s)

/-- A write to CMB_FMTn, n = 8–15. -/
def fmtWrite (via : Via) (a : Nat) (v : Word) (s : State) : State × RStat :=
  let n := (a - 0xE0000) / 4
  if isSealed s ∧ via ≠ .image then
    (if (v &&& 0x03FFFFFF) ≠ (rd s a &&& 0x03FFFFFF) then (sealRefuse a s, .refused) else (s, .ok))
  else if bootDone s ∧ via ≠ .image then (bootStage a v s, .ok)
  else (fmtApply n v s, .ok)

/-- PARn_REPLAY: ISOLATED is a Boot field, the other two are staged (Table 17.13). -/
def parReplayWrite (via : Via) (n : Nat) (v : Word) (s : State) : State × RStat :=
  let a := R.parReplay n
  let r := rwbWrite via [fAll 2 2] a v s
  ((rwsWrite [fAll 1 0] a v r.1).1, r.2)

/-- GLB_SEAL: AWL_OK, whose apply point is Immediate (Table 14.5), then SEALED (R454, R455). -/
def sealWrite (via : Via) (v : Word) (s : State) : State × RStat :=
  let r : State × RStat :=
    if isSealed s ∧ via ≠ .image then
      (if wbit v 1 ≠ rbit s R.glbSeal 1 then (sealRefuse R.glbSeal s, .refused) else (s, .ok))
    else (wbitAt R.glbSeal 1 (wbit v 1) s, .ok)
  (if wbit v 0 then sealIt r.1 else r.1, r.2)

end Sys2Proof.Machine
end

