-- ==== Sys2Proof/Machine/Boot.lean ====
section
/-! DEFINITION. The boot sequence: descriptor, journal scan, slot checks, cross-section tests, the failed and HOST states,
the end of step 4, and step 5 (Boot, Configuration Image and Journal, R457–R486). -/
namespace Sys2Proof.Machine

/-! ### Failures (R479) -/

/-- A failure of boot: LAST_CODE, GLB_BOOT_DETAIL, and detector 14. -/
def bootFail (code typ addr : Nat) (inj : Bool) (s : State) : State :=
  let s := wfld R.glbBootStatus 23 16 code (wrN R.glbBootDetail (addr % 2 ^ 26 + (typ % 16) * 2 ^ 26) s)
  raise { i := 14, inj := inj, code := code + 256 * typ, addr := addr } s

/-- BOOT_SRC with its reserved value treated as 0 (Table 15.1). -/
def bootSrc (s : State) : Nat := if rfld s R.glbStraps 1 0 = 3 then 0 else rfld s R.glbStraps 1 0

/-- The failed state with NO_SLOT (R475). -/
def noSlot (s : State) : State :=
  wbitAt R.glbBootStatus 5 true (bootFail 0x0D 0 0 false (modBoot (fun b => { b with cands := none }) s))

/-- Show boot step `n`. -/
def setStep (n : Nat) (s : State) : State := wfld R.glbBootStatus 3 0 n s

/-- Enter step 4; in HOST mode the engine waits there (R458, R476). -/
def enterStep4 (s : State) : State :=
  let s := setStep 4 (modBoot (fun b => { b with cands := none }) s)
  if bootSrc s = 2 then wbitAt R.glbBootStatus 6 true s else s

/-- Boot may read the flash: nothing else holds the port, the flash is not busy (R492, R494), and WARM# does not hold the
engine in reset (R608). -/
def bootPort (s : State) : Bool :=
  (s.fl.owner == .none || s.fl.owner == .boot) && !s.fl.busy && !s.rst.warmPin

/-- The boot reads of a step leave the port free. -/
def bootPortFree (s : State) : State := if s.fl.owner = .boot then modFl (fun f => { f with owner := .none }) s else s

/-- A read of `n` flash bytes from `a` with the read frame in force: one frame (R466, R493). -/
def readFrame (a n : Nat) (s : State) : State := emit (.flash (readFrameOf s a n)) s

/-- A frame with the settings of R463: one lane in every phase, an address of 24 bits where there is one, clock mode 0 at
25 MHz. -/
def slowFrame (cmd : Nat) (addr : Option Nat) (dummy : Nat) (data : List Byte) (recv : Nat) : FlashFrame :=
  { sckDiv := 3, mode := 0, cmd := cmd, addr := addr, addr32 := false, dummy := dummy, data := data, recv := recv }

/-! ### The boot descriptor (R463–R466, R500) -/

/-- Byte `i` of a structure. -/
def byteAt (b : List Byte) (i : Nat) : Nat := (b.getD i 0).toNat

/-- Every byte of a list is zero. -/
def allZero (b : List Byte) : Bool := b.all (· == 0)

/-- Preamble frames are well formed from frame `i` on: a LEN of 0–2 up to the first with command 0, zeros after it. -/
def preambleOk : List Byte → Nat → Bool
  | _, 0 => true
  | b, n + 1 =>
    if byteAt b 0 = 0 then decide (byteAt b 1 ≤ 2) && allZero (b.drop 4)
    else decide (byteAt b 1 ≤ 2) && preambleOk (b.drop 4) n

/-- A copy of the boot descriptor is valid on a board with `lanes` lanes (R464). -/
def descValid (lanes : Nat) (b : List Byte) : Bool :=
  let laneField (v : Nat) : Bool := decide (v ≤ 2 ∧ 2 ^ v ≤ lanes)
  decide (fieldLE b 0 4 = 0x44424B48) && decide (byteAt b 4 = 1) && decide (fieldLE b 60 4 = crc32c (b.take 60))
    && decide (byteAt b 5 < 4 ∧ byteAt b 9 < 4 ∧ byteAt b 12 < 8 ∧ byteAt b 13 < 8 ∧ byteAt b 14 < 32 ∧ byteAt b 15 < 8
      ∧ byteAt b 15 % 2 = 0 ∧ byteAt b 37 < 16)
    && (byteAt b 12 % 2 == 1 || byteAt b 11 == 0) && allZero (slice b 38 2) && allZero (slice b 44 16)
    && (byteAt b 13 % 2 == 1)
    && laneField (byteAt b 12 / 2) && laneField (byteAt b 13 / 2) && laneField (byteAt b 15 / 2)
    && preambleOk (slice b 16 16) 4
    && (byteAt b 5 / 2 == 0 || (decide (12 ≤ byteAt b 35 ∧ byteAt b 35 ≤ 16) && decide (0 < fieldLE b 40 2 ∧ 0 < fieldLE b 42 2)))

/-- Copy 1 is the later of two valid copies. -/
def laterCopy (b0 b1 : List Byte) : Bool :=
  let d := (fieldLE b1 6 2 + 65536 - fieldLE b0 6 2) % 65536
  decide (1 ≤ d ∧ d ≤ 32767)

/-- The descriptor's other settings. -/
def descOf (b : List Byte) : DescS :=
  { deflt := false, wren := byteAt b 32, prog := byteAt b 33, erase := byteAt b 34, eraseLog := byteAt b 35
    status := byteAt b 36, busy := byteAt b 37, progTmo := fieldLE b 40 2, eraseTmo := fieldLE b 42 2 }

/-- The preamble frames, in order (R466). -/
def preamble : List Byte → Nat → State → State
  | _, 0, s => s
  | b, n + 1, s =>
    if byteAt b 0 = 0 then s
    else preamble (b.drop 4) n (emit (.flash (slowFrame (byteAt b 0) none 0 (slice b 2 (min (byteAt b 1) 2)) 0)) s)

/-- NVM_READ_CMD and NVM_READ_FMT of a descriptor. -/
def readFrameRegs (b : List Byte) (s : State) : State :=
  wrN R.nvmReadCmd (fieldLE b 10 2 + byteAt b 12 % 2 * 65536)
    (wrN R.nvmReadFmt (byteAt b 12 / 2 * 2 + byteAt b 13 * 8 + byteAt b 14 * 64 + byteAt b 15 / 2 * 2048
      + byteAt b 8 * 8192 + byteAt b 9 * 2 ^ 21) s)

/-- The read SFDP discovery takes: command, dummy cycles, and the data lane field (R500). -/
def sfdpRead (lanes : Nat) (x : Sfdp) : Option (Nat × Nat × Nat) :=
  if ¬ (x.sig = true ∧ x.four = true ∧ x.table = true) then none
  else if x.r114 = true ∧ 4 ≤ lanes then some (0x6C, x.d114 % 32, 2)
  else if x.r112 = true ∧ 2 ≤ lanes then some (0x3C, x.d112 % 32, 1)
  else if x.r111 then some (0x0C, 8, 0)
  else none

/-- SFDP discovery (R466, R500). DESIGN CHOICE (log 25): one frame of 256 bytes; how much is read is not stated. -/
def sfdp (x : Sfdp) (s : State) : State :=
  let s := emit (.flash (slowFrame 0x5A (some 0) 8 [] 256)) s
  match sfdpRead (strapLanes s) x with
  | some (c, d, l) =>
    let f := rdN s R.nvmReadFmt
    wbitAt R.glbBootStatus 9 true
      (wrN R.nvmReadCmd c (wrN R.nvmReadFmt (f / 8192 * 8192 + l * 2048 + d * 64 + 8) s))
  | none => wbitAt R.glbBootStatus 10 true s

/-- Step 3 with the journal on, or off: without a journal step 3 ends here (R486). -/
def journalSwitch (on : Bool) (s : State) : State :=
  let s := wbitAt R.jnlStatus 0 on s
  if on then setStep 3 s else enterStep4 (wbitAt R.glbBootStatus 13 true s)

/-- Steps 2 and 3 up to the journal scan: both copies have been read. -/
def descriptorRead' (x : Sfdp) (s : State) : State :=
  let s := bootPortFree (emit (.flash (slowFrame 3 (some 0x1000) 0 [] 64)) (emit (.flash (slowFrame 3 (some 0) 0 [] 64)) s))
  let b0 := flashRead s 0 64
  let b1 := flashRead s 0x1000 64
  let l := strapLanes s
  let take (copy : Bool) (b : List Byte) : State :=
    let s := wbitAt R.glbBootStatus 8 copy (preamble (slice b 16 16) 4 (modBoot (fun t => { t with desc := descOf b }) s))
    let s := readFrameRegs b s
    let s := if byteAt b 5 % 2 = 1 then sfdp x s else s
    journalSwitch (byteAt b 5 / 2 == 1) s
  if descValid l b1 && (!descValid l b0 || laterCopy b0 b1) then take true b1
  else if descValid l b0 then take false b0
  else
    let s := wrN R.nvmReadCmd 0x13 (wrN R.nvmReadFmt 0x6008 (modBoot (fun t => { t with desc := {} }) s))
    let s := wbitAt R.glbBootStatus 7 true (wbitAt R.jnlStatus 0 false s)
    journalSwitch false (bootFail 1 0 0 false s)

/-! ### The journal scan (R484, R423) -/

/-- Record slot `i` of the journal. -/
def slotBytes (s : State) (i : Nat) : List Byte := flashRead s (jnlBase + 64 * i) 64

/-- A valid record (R480). -/
def recordOk (b : List Byte) : Bool := decide (byteAt b 63 = 0x3C) && decide (fieldLE b 58 4 = crc32c (b.take 58))

/-- An erased slot. -/
def slotErased (b : List Byte) : Bool := b.all (· == 0xFF)

/-- A stretch of flash reads 0xFF. -/
def flashErased (s : State) (a n : Nat) : Bool := s.flash.all (fun c => decide (c.1 < a ∨ a + n ≤ c.1) || c.2 == 0xFF)

/-- (J − J0) as a signed 32-bit value (R484). -/
def seqAfter (j0 j : Nat) : Int := (BitVec.ofNat 32 (j + 2 ^ 32 - j0)).toInt

/-- The entry of a list of (place, JSEQ) with the largest JSEQ counted from `j0`. -/
def newest (j0 : Nat) : List (Nat × Nat) → Option (Nat × Nat)
  | [] => none
  | x :: t =>
    match newest j0 t with
    | none => some x
    | some y => if seqAfter j0 y.2 ≤ seqAfter j0 x.2 then some x else some y

/-- Valid records among slots, with their JSEQ. -/
def validSlots (s : State) (l : List Nat) : List (Nat × Nat) :=
  l.filterMap (fun i => if recordOk (slotBytes s i) then some (i, fieldLE (slotBytes s i) 0 4) else none)

/-- Slots of sector `k`, first to last. -/
def sectorSlots (s : State) (k : Nat) : List Nat := List.range' (k * slotsPer s) (slotsPer s)

/-- The incarnation of the last valid BOOT record, searched back sector by sector from `k`. -/
def lastBoot (s : State) (k : Nat) : Nat → Option Nat
  | 0 => none
  | n + 1 =>
    match (sectorSlots s k).reverse.find? (fun i => recordOk (slotBytes s i) && byteAt (slotBytes s i) 4 == 1) with
    | some i => some (byteAt (slotBytes s i) 5 % 16)
    | none => lastBoot s ((k + sectorCount s - 1) % sectorCount s) n

/-- Sectors the search of `lastBoot` reads after the first, which has been read. -/
def bootSearched (s : State) (k : Nat) : Nat → List Nat
  | 0 => []
  | n + 1 =>
    if (sectorSlots s k).any (fun i => recordOk (slotBytes s i) && byteAt (slotBytes s i) 4 == 1) || n = 0 then []
    else
      let j := (k + sectorCount s - 1) % sectorCount s
      j :: bootSearched s j n

/-- The reads of whole sectors, one frame each (R484, R493). -/
def sectorReads (l : List Nat) (s : State) : State :=
  forEach l (fun k s => readFrame (jnlBase + k * sectorSize s) (sectorSize s) s) s

/-- The incarnation after PORST# follows the journal's last BOOT record (R423). -/
def takeIncarnation (last : Option Nat) (s : State) : State :=
  if s.boot.scanned then s
  else
    let s := modBoot (fun b => { b with scanned := true }) s
    match last with
    | none => s
    | some i =>
      let prev := if rfld s R.glbResetCause 3 0 = 0 then i else (rfld s R.glbResetCause 7 4 + i + 1) % 16
      wfld R.glbIncarnation 3 0 (incarnation s + i + 1) (wfld R.glbResetCause 7 4 prev s)

/-- The journal scan of step 3: the first slot of every sector, then the newest sector whole, then earlier ones back to the last
BOOT record. A record whose second program has not run is torn, and is written anew (R483, R484). -/
def journalScan (s : State) : State :=
  let s := bootPortFree (modFl (fun f => { f with second := false, rcd := [] })
    (modBoot (fun b => { b with eraseDue := [], skip := [] }) s))
  let s := forEach (List.range (sectorCount s)) (fun k s => readFrame (jnlBase + k * sectorSize s) 64 s) s
  let used := validSlots s ((List.range (sectorCount s)).map (fun k => k * slotsPer s))
  let s := match used with
    | [] => takeIncarnation none (wrN R.jnlHeadAddr jnlBase (wrN R.jnlNextSeq 0 s))
    | u :: _ =>
      match newest u.2 used with
      | none => s
      | some m =>
        let k := m.1 / slotsPer s
        let l := sectorSlots s k
        let s := sectorReads (k :: bootSearched s k (sectorCount s)) s
        let next := match l.reverse.find? (fun i => !slotErased (slotBytes s i)) with
          | some i => i + 1
          | none => k * slotsPer s
        let top := match newest u.2 (validSlots s l) with
          | some t => t.2
          | none => m.2
        let after := (k + 1) % sectorCount s
        let s := wrN R.jnlHeadAddr (jnlBase + 64 * (next % (sectorCount s * slotsPer s))) (wrN R.jnlNextSeq ((top + 1) % 2 ^ 32) s)
        let s := if flashErased s (jnlBase + after * sectorSize s) (sectorSize s) then s
          else modBoot (fun b => { b with eraseDue := [after] }) s
        takeIncarnation (lastBoot s k (sectorCount s)) s
  enterStep4 s

/-! ### Slot checks (R468–R470) -/

/-- The base address of slot `i`: 0 slot A, 1 slot B. -/
def slotBase (i : Nat) : Nat := i * 0x1000000

/-- The 256 bytes of a slot's image header, and its commit word. -/
def slotHeader (s : State) (i : Nat) : List Byte := flashRead s (slotBase i + 0x2000) 256
def slotCommit (s : State) (i : Nat) : Nat := natLE (flashRead s (slotBase i + 0xFFFFFC) 4)

/-- The first of checks 1 to 3 of Table 15.6 that a slot fails: code and flash address. -/
def slotTest (s : State) (i : Nat) : Option (Nat × Nat) :=
  let h := slotHeader s i
  let a := slotBase i + 0x2000
  let len := fieldLE h 12 4
  if ¬ (fieldLE h 0 4 = 0x4D494B48 ∧ fieldLE h 4 2 = 1 ∧ fieldLE h 6 2 = 256 ∧ len % 4 = 0 ∧ 272 ≤ len ∧ len ≤ 16769020
      ∧ allZero (slice h 30 2) = true ∧ allZero (slice h 64 188) = true ∧ fieldLE h 252 4 = crc32c (h.take 252)) then some (3, a)
  else if slotCommit s i ≠ fieldLE h 8 4 ^^^ 0xA5A55A5A then some (2, slotBase i + 0xFFFFFC)
  else if ¬ (fieldLE h 24 4 = rdN s R.glbId ∧ fieldLE h 28 2 ≤ rfld s R.glbStepping 15 0) then some (4, a)
  else none

/-- A slot whose MAGIC reads all ones is EMPTY. -/
def slotEmpty (s : State) (i : Nat) : Bool := fieldLE (slotHeader s i) 0 4 == 0xFFFFFFFF

/-- Check slot `i`: a failure is raised, a success answers true. -/
def slotCheckOne (i : Nat) (s : State) : State × Bool :=
  if slotEmpty s i then (s, false)
  else match slotTest s i with
    | some (c, a) => (bootFail c 0 a false s, false)
    | none => (s, true)

/-- Slot B is tried before slot A (R470). -/
def slotBFirst (s : State) : Bool :=
  let d := (fieldLE (slotHeader s 1) 8 4 + 2 ^ 32 - fieldLE (slotHeader s 0) 8 4) % 2 ^ 32
  decide (1 ≤ d ∧ d < 2 ^ 31)

/-- Both headers and commit words have been read (R469). -/
def slotCheck (s : State) : State :=
  let s := bootPortFree (readFrame 0xFFFFFC 4 (readFrame 0x2000 256 s))
  let a := slotCheckOne 0 s
  let b := if bootSrc s = 1 then (a.1, false)
    else slotCheckOne 1 (readFrame 0x1FFFFFC 4 (readFrame 0x1002000 256 a.1))
  let l := if a.2 && b.2 then (if slotBFirst s then [1, 0] else [0, 1])
    else if a.2 then [0] else if b.2 then [1] else []
  if l.isEmpty then noSlot b.1 else modBoot (fun t => { t with cands := some l }) b.1

/-! ### Cross-section tests (Tables 1.6, 2.3, 15.8) -/

/-- No two ranges, given by first and count, share a number. -/
def disjointRanges : List (Nat × Nat) → Bool
  | [] => true
  | x :: t => (x.2 == 0 || t.all (fun y => y.2 == 0 || decide (x.1 + x.2 ≤ y.1 ∨ y.1 + y.2 ≤ x.1))) && disjointRanges t

/-- The partition quotas fit the engine (R42, R261, Table 1.6, Table 6.8). -/
def quotaOk (get : Nat → Word) : Bool :=
  let l := range 0 15
  let sum (f : Nat → Nat) : Nat := l.foldl (fun a n => a + f n) 0
  let str := l.map (fun n => (fld (get (R.parStreamRange n)) 7 0, fld (get (R.parStreamRange n)) 16 8))
  let lace := l.map (fun n => (fld (get (R.parLaceRange n)) 9 0, fld (get (R.parLaceRange n)) 26 16))
  decide (sum (fun n => fld (get (R.parStreamRange n)) 16 8) ≤ 256)
    && decide (sum (fun n => fld (get (R.parStageQuota n)) 6 0) + fld (get R.rplRingSize) 4 0 ≤ 88)
    && decide (sum (fun n => fld (get (R.parCircuitQuota n)) 7 0) ≤ 128)
    && str.all (fun r => r.2 == 0 || decide (r.1 + r.2 ≤ 256)) && disjointRanges str
    && lace.all (fun r => decide (r.1 + r.2 ≤ 1024)) && disjointRanges lace

/-- The combination of time modes is accepted (Table 2.3). -/
def timeModeOk (get : Nat → Word) : Bool :=
  let m := get R.mtcMode
  match wbit m 0, wbit m 1 with
  | false, true => decide (fld (get R.mtcRackRoot) 12 0 ≠ 0x1FFF)
  | true, false => wbit m 4
  | _, _ => true

/-- The cross-section tests that fail: code and section. -/
def crossFails (get : Nat → Word) : List (Nat × Nat) :=
  (if quotaOk get then [] else [(0x0A, 6)]) ++ (if timeModeOk get then [] else [(0x0B, 3)])

/-- User descriptors that Table 10.5 refused (R477). -/
def fmtRefused (n addr : Nat) (s : State) : State :=
  if rbit s R.cmbFmtStatus n then bootFail 0x0C 7 addr false (wbitAt R.glbBootStatus 11 true s) else s

/-! ### Step 5 (R478, R485) -/

/-- Discard a pending Boot value (R478). -/
def bootDiscard (e : Nat × Word) (s : State) : State :=
  bootFail 0x0E (sectionOf e.1) 0 false (wbitAt R.glbBootStatus 12 true s)

/-- Apply one pending Boot value; a user format that fails Table 10.5 is discarded, and the applied one stays (R478). -/
def bootApplyOne (e : Nat × Word) (s : State) : State :=
  if 0xE0020 ≤ e.1 ∧ e.1 < 0xE0040 then
    (if fmtOk e.2 then fmtApply ((e.1 - 0xE0000) / 4) e.2 s else bootDiscard e s)
  else if sectionOf e.1 = 6 ∧ e.1 % 0x1000 = 0x84 then wfld e.1 2 2 (fld e.2 2 2) s
  else wr e.1 e.2 s

/-- The pending Boot values at a warm reset: those of a section that fails its cross test are discarded (R478). -/
def bootApply (s : State) : State :=
  let l := s.bootPend
  let get (a : Nat) : Word := match l.find? (fun e => e.1 == a) with | some e => e.2 | none => rd s a
  let bad := (if l.isEmpty then [] else crossFails get).map (fun e => e.2)
  forEach l (fun e s =>
    if bad.contains (sectionOf e.1) then bootDiscard e s else bootApplyOne e s) { s with bootPend := [] }

/-- The BOOT record of this boot is queued ahead of every record queued during it (R485); without a journal the step waits
for none. -/
def bootRecord (s : State) : State :=
  let done := modBoot (fun b => { b with recordOut := some (now s) })
  if !journalOn s then done s
  else if s.jq.length < 16 then
    { s with jq := s.jq.take s.boot.older ++ [{ kind := 1, body := [] }] ++ s.jq.drop s.boot.older }
  else done (raiseCore { i := 18 } (cnt R.jnlLostCount s)).1

/-- Step 5 begins. -/
def enterStep5 (s : State) : State :=
  let s := { s with rst := { s.rst with prog := false, asReload := false, warmAt := none } }
  let s := setStep 5 (modBoot (fun b => { b with entered5 := true, recordOut := none, cands := none }) s)
  step5Check (bootRecord (bootApply s))

/-- Step 4 ends with the image of a slot loaded, or by CONTINUE: version 0 is CURRENT (R436), and a point left armed for the
slot checks is disarmed (R568). -/
def endStep4 (slot seq : Nat) (s : State) : State :=
  let s := wfld R.glbBootStatus 15 14 slot (wrN R.glbImageSeq seq s)
  let s := wfld R.glbBootStatus 6 5 0 s
  enterStep5 (disarmAll none { s with ep := {}, boot := { s.boot with cands := none } } |> fun s =>
    { s with ep := { s.ep with closed := false } })

/-- CONTINUE (R476): a user format that Table 10.5 refuses, or a cross-section test that fails, keeps the engine in step 4. -/
def continueBoot (s : State) : State :=
  if bootStep s = 4 ∧ hostState s = true then
    let fmts := (range 8 15).filter (fun n => rbit s R.cmbFmtStatus n)
    let s := forEach fmts (fun n => fmtRefused n 0) s
    let bad := crossFails (rd s)
    if fmts.isEmpty && bad.isEmpty then endStep4 2 0 s
    else forEach bad (fun e => bootFail e.1 e.2 0 false) s
  else s

/-- Step 5 has lasted 2²² ticks after the boot record's outcome. -/
def portLimitDue (s : State) : Bool :=
  bootStep s == 5 && (match s.boot.recordOut with
    | some t => decide (t + 4194304 ≤ now s)
    | none => false)

/-! ### The commands -/

/-- BOOT_DESCRIPTOR_READ (R464, R466); `x` is what SFDP discovery finds. -/
def execBootDescriptorRead (x : Sfdp) (s : State) : Host.Outcome State Fault Refusal :=
  run (whenB (bootStep s == 2 && bootPort s) (descriptorRead' x)) s

/-- JOURNAL_SCAN (R484). -/
def execJournalScan (s : State) : Host.Outcome State Fault Refusal :=
  run (whenB (bootStep s == 3 && journalOn s && bootPort s) journalScan) s

/-- SLOT_CHECK (R469). -/
def execSlotCheck (s : State) : Host.Outcome State Fault Refusal :=
  run (whenB (bootStep s == 4 && !hostState s && s.boot.cands.isNone && bootPort s) slotCheck) s

/-- CONTINUE (R476). -/
def execContinue (s : State) : Host.Outcome State Fault Refusal := run continueBoot s

/-- BOOT_PORT_LIMIT (Table 15.2). -/
def execBootPortLimit (s : State) : Host.Outcome State Fault Refusal := run (whenB (portLimitDue s) enterStep6) s

end Sys2Proof.Machine
end

