-- ==== Sys2Proof/Machine/Resets.lean ====
section
/-! DEFINITION. Warm reset, reload and cold reset, the pins and supplies that start them, the thermal monitor and the test
access port (Integrity, Faults and Spares, R423–R426; Pins, Power and Reset). -/
namespace Sys2Proof.Machine

/-! ### What a warm reset and a reload keep (Table 13.9) -/

/-- Action registers whose stored value is kept: GLB_ENGINE_ID, GLB_SEAL, the ring tails, TBL_FLIP_AT_HI, NVM_FCTRL,
RPL_TAIL. -/
def keptAct (a : Nat) : Bool :=
  decide (a = R.glbEngineId ∨ a = R.glbSeal ∨ a = R.glbAdopt ∨ a = R.glbEventTail ∨ a = R.glbCtrlRxTail ∨ a = R.tblFlipAtHi
    ∨ a = R.nvmFctrl ∨ a = R.telSvyRxTail ∨ a = R.rplTail)

/-- Read-only registers that keep their value: those that do not show what streams, partitions, ports, tables or the root
choice are doing. -/
def keptRo (a : Nat) : Bool :=
  decide (a < 0x20000) || decide (0x20008 ≤ a ∧ a ≤ 0x20010)
    || (decide (0xA0000 ≤ a ∧ a < 0xB0000) && a % 0x100 == 0x10)
    || (decide (0xC0000 ≤ a ∧ a < 0xD0000) && a % 0x1000 == 0x14)
    || (decide (0xE0000 ≤ a ∧ a < 0x1000000) && a != R.cmbSlots && a != R.memStatus)
    || decide (0x1060000 ≤ a)

/-- A warm reset keeps the register at an address: configuration, GLB_ALERT_STATUS, the detector counts, the event ring, the
management port (R520) and the AWL counters (R568); other counters and event bits return to 0. -/
def warmKeeps (a : Nat) : Bool :=
  match regKind a with
  | some (.w1c _) => decide (a = R.glbAlertStatus) || a == R.mgtEvents
  | some .counter => decide (0x100 ≤ a ∧ a < 0x150) || decide (0x130000 ≤ a ∧ a < 0x130100) || a == R.awlArmCount
  | some (.act _) => keptAct a || (decide (0xC0000 ≤ a ∧ a < 0xD0000) && a % 0x1000 == 0x84)
  | some .ro => keptRo a
  | some (.rw _) => !(decide (0xC0000 ≤ a ∧ a < 0xD0000) && a % 0x1000 == 0x38)
  | _ => true

/-- The reset value of MTC_MODE follows the TIME_ROOT strap (Table 2.8). -/
def mtcModeReset (s : State) : State := wrN R.mtcMode (if rbit s R.glbStraps 2 then 0xC else 0) s

/-- The registers of Table 15.7 a reload replaces from the image return to their reset values; with `awlToo` the AWL
registers too (R475), which a reload itself keeps (R568). -/
def resetImageRegs (awlToo : Bool) (s : State) : State :=
  let gone (a : Nat) : Bool := imageAddr a && (awlToo || sectionOf a != 10)
  let s := { s with
    regs := s.regs.filter (fun e => !gone e.1)
    eccBad := s.eccBad.filter (fun a => !gone a)
    staged := [], stagedNow := []
    bootPend := []
    awl := if awlToo then s.awl.map (fun e => (e.1, { ({} : AwlPoint) with cur := e.2.cur, old := e.2.old, wrote := e.2.wrote }))
      else s.awl }
  forEach (range 0 15) selfRank (mtcModeReset (wrN R.cmbFmtStatus 0 s))

/-- A software sequence in progress ends ABORTED; its frame in progress completes (R499). -/
def abortSoftware (s : State) : State :=
  match s.fl.sw with
  | some q => swEnd 5 (if s.fl.owner = .software then modFl (fun f => { f with stopped := some q }) s else s)
  | none => s

/-- The ports after a reset: DOWN. What the pins show and the NONCE are kept. -/
def resetPorts (s : State) : State :=
  { s with ports := (range 0 30).map (fun n =>
      let p := port s n
      (n, { ({} : Port) with
        reason := downReason s n, entered := now s, nonce := p.nonce, pkgReady := p.pkgReady, ovl := p.ovl, ovlAt := p.ovlAt })) }

/-- Everything in motion is dropped (Table 13.9). -/
def dropAll (s : State) : State :=
  { s with
    staged := [], stagedNow := []
    waiting := [], hold := [], notices := [], localQ := [], streams := [], pars := [], asms := [], landed := []
    receipts := [], tags := [], slots := [], orders := [], gets := [], txns := [], signals := [], caps := []
    lostPuts := [], pkgSet := [], pkgWrote := [], latches := [], waits := []
    copyBuf := [], replay := none, tel := [], touch := [], tblOld := []
    t := { ticks := s.t.ticks }
    clk := { lostAt := s.clk.lostAt, refBack := s.clk.refBack }
    roots := {}
    mgr := { oppAt := s.mgr.oppAt, cache := s.mgr.cache }
    map := { first := s.map.first }
    ep := { closed := true } }

/-- A warm reset or a reload begins (R424, R425): the incarnation advances (R423), GLB_RESET_CAUSE is written, and STEP reads
0 until the boot steps resume. -/
def resetBegin (reload : Bool) (cause : Nat) (s : State) : State :=
  let prev := incarnation s
  let fallback := rbit s R.mtcStatus 3
  let s := { s with
    regs := s.regs.filter (fun e => warmKeeps e.1)
    eccBad := s.eccBad.filter (fun a => decide (a < 0x1020000 ∨ 0x1020200 ≤ a)) }
  let s := wbitAt R.mtcStatus 3 fallback (wfld R.glbAdopt 4 0 0 s)
  let s := abortSoftware (dropAll s)
  let s := if reload then wbitAt R.glbSeal 0 false (resetImageRegs false s) else s
  let s := disarmAll (if reload then some 14 else none) s
  let s := resetPorts { s with ep := { s.ep with closed := reload } }
  let s := wfld R.glbBootStatus 12 12 0 (wfld R.glbBootStatus 6 0 0 s)
  let s := if reload then wrN R.glbBootStatus (0xC000 + rfld s R.glbBootStatus 23 16 * 65536)
      (wrN R.glbImageSeq 0 (modBoot (fun b => { b with entered5 := false, fromCold := false }) s)) else s
  let s := wrN R.glbResetCause (prev * 16 + cause) (wfld R.glbIncarnation 3 0 (prev + 1) s)
  { s with
    boot := { s.boot with older := s.jq.length, recordOut := none, cands := none }
    rst := { s.rst with prog := true, asReload := reload } }

/-- The engine leaves reset: a warm reset enters step 5, a reload step 2 (R425); WARM# (R606, R608) and a thermal trip (R618)
hold it. -/
def resetResume (s : State) : State :=
  if s.rst.prog = false ∨ bootStep s ≠ 0 ∨ s.rst.warmPin = true ∨ rbit s R.glbTemp 12 = true then s
  else if s.rst.asReload then setStep 2 s
  else enterStep5 s

/-- A warm reset; one that starts before step 5 has been entered runs as a reload (R607). -/
def warmStart (cause : Nat) (s : State) : State := resetBegin (!s.boot.entered5) cause s

/-- A warm request: absorbed while a reset has not entered step 5 (R608). -/
def warmRequest (cause : Nat) (s : State) : State :=
  if s.rst.prog then s else resetResume (warmStart cause s)

/-- A reload request; it turns a warm reset in progress into a reload (R608). -/
def reloadRequest (cause : Nat) (s : State) : State :=
  if s.rst.prog = true ∧ s.rst.asReload = false then
    let s := wbitAt R.glbSeal 0 false (resetImageRegs false s)
    let s := { s with
      boot := { s.boot with entered5 := false, fromCold := false }
      ep := { s.ep with closed := true }
      rst := { s.rst with asReload := true } }
    resetResume (wfld R.glbResetCause 3 0 cause (wrN R.glbImageSeq 0
      (wrN R.glbBootStatus (0xC000 + rfld s R.glbBootStatus 23 16 * 65536) s)))
  else resetResume (resetBegin true cause s)

/-! ### GLB_RESET (R426) -/

/-- WARM or RELOAD written through a path: the reset starts 1,024 ticks later. -/
def softReset (reload : Bool) (p : Path) (s : State) : State :=
  let cause := match reload, p with
    | false, .mgt => 2
    | false, .ctrl => 3
    | true, .mgt => 4
    | true, .ctrl => 5
  { s with rst := { s.rst with soft := s.rst.soft ++ [(now s + 1024, cause, reload)] } }

/-- A write to GLB_RESET; both bits together start a reload. -/
def resetWrite (p : Path) (v : Word) (s : State) : State :=
  if wbit v 1 then softReset true p s else if wbit v 0 then softReset false p s else s

/-- The first due entry of a kind. -/
def softDue (s : State) (reload : Bool) : Option (Nat × Nat × Bool) :=
  s.rst.soft.find? (fun e => decide (e.1 ≤ now s) && e.2.2 == reload)

/-- The entry leaves the list and its reset starts. -/
def softGo (reload : Bool) (s : State) : State :=
  match softDue s reload with
  | none => s
  | some e =>
    let s := { s with rst := { s.rst with soft := s.rst.soft.erase e } }
    if reload then reloadRequest e.2.1 s else warmRequest e.2.1 s

/-! ### Cold reset (R596, R604, R605, R609) -/

/-- The store the staging memory fills. -/
def stagingBytes : Nat := 96 * 1048576

/-- A cold reset begins: everything returns to its reset value but the flash, the pins, the test access port and the trip
latch (R618, R621). -/
def coldReset (dip : Bool) (s : State) : State :=
  stgClear 0 stagingBytes { ({} : State) with
    pending := s.pending
    flash := s.flash
    writes := s.writes
    free := s.free
    out := s.out
    t := { ticks := s.t.ticks }
    regs := if rbit s R.glbTemp 12 then [(R.glbTemp, 0x1000)] else []
    rst := { pin := s.rst.pin, coldAt := now s, dip := dip, jtag := s.rst.jtag, straps := s.rst.straps, warmPin := s.rst.warmPin } }

/-- The straps as sampled, with STRAP_RSVD (R458). -/
def sampleStraps (v : Nat) : Nat :=
  let v := v % 32
  v + (if v % 4 = 3 ∨ v / 8 = 3 then 32 else 0)

/-- An instruction that holds the engine in cold reset (Table 20.7). -/
def jtagHolds (op : Nat) : Bool := op == 0 || op == 4 || op == 5 || op == 8 || op == 9

/-- The release takes effect once PORST# is released, the internal cold reset is over, no JTAG instruction holds the engine
and the root PLL has locked (R599, R605, R621): the straps are sampled and step 1 ends (R457, R459, R609, R618). -/
def tryRelease (s : State) : State :=
  if s.rst.cold ∧ s.rst.pin = false ∧ s.rst.ended ∧ jtagHolds s.rst.jtag = false ∧ rbit s R.clkStatus 0 then
    let s := wrN R.glbStraps (sampleStraps s.rst.straps) (wrN R.glbVid Config.vid.toNat s)
    let s := mtcModeReset { s with
      t := {}, rst := { s.rst with cold := false }, clk := { s.clk with lostAt := s.clk.lostAt.map (fun _ => 0) } }
    setStep (if s.rst.warmPin ∨ rbit s R.glbTemp 12 then 1 else 2) s
  else s

/-- A pulse of `d` ticks passes a reset pin's filter (R604); one of 16 to 159 ticks may. -/
def pulseSeen (d : Nat) (s : State) : State × Bool :=
  if d < 16 then (s, false) else if 160 ≤ d then (s, true) else ((freeBit s).2, (freeBit s).1)

/-- PORST#: an assertion that lasts `d` ticks. -/
def porst (d : Nat) (s : State) : State :=
  let r := pulseSeen d s
  if r.2 then coldReset false { r.1 with rst := { r.1.rst with pin := true } } else r.1

/-- The internal cold reset is over: 16,000 ticks after recognition, 1,600,000 after a supply dip. -/
def coldEndDue (s : State) : Bool :=
  s.rst.cold && !s.rst.ended && decide (s.rst.coldAt + (if s.rst.dip then 1600000 else 16000) ≤ now s)

/-- PORST# is released; the straps are at these levels. -/
def porstRelease (straps : Nat) (s : State) : State :=
  tryRelease { s with rst := { s.rst with pin := false, straps := straps } }

/-- The root PLL locks, to REFCLK or, REFCLK being absent, to LOSC (R48). -/
def pllLock (losc : Bool) (s : State) : State :=
  let s := if losc then { s with clk := { s.clk with lostAt := some (now s) } } else s
  tryRelease (wbitAt R.clkStatus 0 true (wbitAt R.clkStatus 1 (!losc) (wbitAt R.clkStatus 2 losc s)))

/-- WARM# is asserted for `d` ticks or more (R606, R608, R609). -/
def warmAssert (d : Nat) (s : State) : State :=
  let r := pulseSeen d s
  let s := if r.2 then { r.1 with rst := { r.1.rst with warmPin := true } } else r.1
  if r.2 = false ∨ s.rst.cold = true ∨ s.rst.prog = true then s
  else
    let s := warmStart 1 s
    { s with rst := { s.rst with warmAt := some (now s) } }

/-- The release of WARM# has been recognised: boot resumes, at the earliest 16,384 ticks after the assertion (R606, R609). -/
def warmRelease (s : State) : State :=
  let s := { s with rst := { s.rst with warmPin := false } }
  let early := match s.rst.warmAt with
    | some t => decide (now s < t + 16384)
    | none => false
  if s.rst.cold = true ∨ early = true then s
  else if bootStep s = 1 then (if rbit s R.glbTemp 12 then s else setStep 2 s)
  else resetResume s

/-- A supply stays below 90 % for `d` ticks (R596); `vddio`: it is VDDIO, whose fall clears the trip latch (R618). -/
def supplyDip (d : Nat) (vddio : Bool) (s : State) : State :=
  let r := pulseSeen d s
  if r.2 then
    let s := coldReset true r.1
    if vddio then wbitAt R.glbTemp 12 false s else s
  else r.1

/-- The sensors have been sampled: the highest reading and its sensor (R617, R618). -/
def thermalSample (temp sensor : Nat) (s : State) : State :=
  let s := wfld R.glbTemp 18 16 sensor (wfld R.glbTemp 11 0 temp s)
  let s := if rfld s R.glbTempWarn 11 0 ≤ temp % 4096 then ev R.glbPwrEvents 0 s else s
  if 716 ≤ temp % 4096 ∧ rbit s R.glbTemp 12 = false then
    warmStart 7 (wbitAt R.glbTemp 12 true (emit .thermtrip s))
  else s

/-- An instruction is updated into the JTAG instruction register (R621). -/
def instructionUpdate (op : Nat) (s : State) : State :=
  let was := jtagHolds s.rst.jtag
  let s := { s with rst := { s.rst with jtag := op % 256 } }
  let s := if op % 256 = 1 then emit (.tdo 0x148071A7) s else s
  if jtagHolds (op % 256) then (if was then s else coldReset false s)
  else if was then tryRelease s
  else s

/-- The root PLL loses lock (R49): a warm reset with CAUSE 6. -/
def rootPllLoss (s : State) : State := resetResume (warmStart 6 (wbitAt R.clkStatus 0 false s))

/-! ### The commands -/

/-- ROOT_PLL_LOSS (R49). -/
def execRootPllLoss (s : State) : Host.Outcome State Fault Refusal := runT rootPllLoss s

/-- WARM (R426): written through path `p`. -/
def execWarm (p : Path) (s : State) : Host.Outcome State Fault Refusal := run (softReset false p) s

/-- RELOAD (R426). -/
def execReload (p : Path) (s : State) : Host.Outcome State Fault Refusal := run (softReset true p) s

/-- WARM_RESET (R424): a warm reset written 1,024 ticks ago starts. -/
def execWarmReset (s : State) : Host.Outcome State Fault Refusal := runT (softGo false) s

/-- RELOAD_START (R425). -/
def execReloadStart (s : State) : Host.Outcome State Fault Refusal := runT (softGo true) s

/-- PORST (R604): PORST# is asserted for `d` ticks. -/
def execPorst (d : Nat) (s : State) : Host.Outcome State Fault Refusal := runPin (porst d) s

/-- COLD_RESET_END (R605). -/
def execColdResetEnd (s : State) : Host.Outcome State Fault Refusal :=
  runPin (whenB (coldEndDue s) (fun s => tryRelease { s with rst := { s.rst with ended := true } })) s

/-- PORST_RELEASE (R457). -/
def execPorstRelease (straps : Nat) (s : State) : Host.Outcome State Fault Refusal := runPin (porstRelease straps) s

/-- PLL_LOCK (R599); `losc`: to the local oscillator. -/
def execPllLock (losc : Bool) (s : State) : Host.Outcome State Fault Refusal := runPin (pllLock losc) s

/-- WARM_PIN_ASSERT (R606). -/
def execWarmPinAssert (d : Nat) (s : State) : Host.Outcome State Fault Refusal := runPin (warmAssert d) s

/-- WARM_PIN_RELEASE (R606). -/
def execWarmPinRelease (s : State) : Host.Outcome State Fault Refusal := runPin warmRelease s

/-- SUPPLY_DIP (R596). -/
def execSupplyDip (d : Nat) (vddio : Bool) (s : State) : Host.Outcome State Fault Refusal := runPin (supplyDip d vddio) s

/-- THERMAL_SAMPLE (R617). -/
def execThermalSample (temp sensor : Nat) (s : State) : Host.Outcome State Fault Refusal := runT (thermalSample temp sensor) s

/-- INSTRUCTION_UPDATE (R621). -/
def execInstructionUpdate (op : Nat) (s : State) : Host.Outcome State Fault Refusal := runPin (instructionUpdate op) s

/-- TAP_RESET (R621): IDCODE is selected. -/
def execTapReset (s : State) : Host.Outcome State Fault Refusal := runPin (instructionUpdate 1) s

end Sys2Proof.Machine
end

