-- ==== Sys2Proof/Machine/Manager.lean ====
section
/-! DEFINITION. The cells software sends: GLB_CTRL_SEND and TEL_SVY_SEND (R422, R529), and the entries that hold the
responses received. -/
namespace Sys2Proof.Machine

/-- A cell of GLB_CTRL_SEND or TEL_SVY_SEND has not begun transmission: it waits at its source or in a VC2 queue. -/
def sendPending (s : State) (o : Option Cell) : Bool :=
  match o with
  | none => false
  | some c => s.waiting.any (fun w => sameCell w.cell c) || s.ports.any (fun p => p.2.qVc2.any (fun d => sameCell d c))

/-- The payload held in 16 words, byte 4w in bits [31:24] of word w, with the check computed (R422). -/
def txPayload (s : State) (base : Nat) : List Byte :=
  let b := ((List.range 16).flatMap (fun w => bytesBE 4 (rdN s (base + 4 * w)))).take 60
  b ++ bytesBE 4 (crc32c b)

/-- GLB_CTRL_SEND (R422): an explicit-path cell goes out on PATH[0], any other is table-routed. -/
def ctrlSend (s : State) : State :=
  if sendPending s s.mgr.ctrlSent then ev R.glbCtrlEvents 0 s
  else
    let c := setWelt 37 37 s.ep.inj
      (mkCell (rfld s R.glbCtrlTxDest 12 0) (ownId s) 2 9 0 0 0 (txPayload s (R.glbCtrlTx 0)))
    let s := { s with mgr := { s.mgr with ctrlSent := some c } }
    if isExplicit c then
      let r := pathSend 0xFF 0 false c s
      if r.2 then r.1 else ev R.glbCtrlEvents 0 r.1
    else
      let r := inject 256 0 c s
      match r.2 with
      | .dropped => ev R.glbCtrlEvents 0 r.1
      | _ => r.1

/-- TEL_SVY_SEND (R529). -/
def svySend (s : State) : State :=
  if sendPending s s.mgr.svySent then ev R.telSvyEvents 0 s
  else
    let c := setWelt 37 37 s.ep.inj
      (mkCell (rfld s R.telSvyTxDest 12 0) (ownId s) 2 10 0 0 0 (txPayload s (R.telSvyTx 0)))
    let s := { s with mgr := { s.mgr with svySent := some c } }
    let r := inject 256 0 c s
    match r.2 with
    | .dropped => ev R.telSvyEvents 0 r.1
    | _ => r.1

/-- Store words in consecutive registers. -/
def wrWords (a : Nat) : List Word → State → State
  | [], s => s
  | v :: t, s => wrWords (a + 4) t (wr a v s)

/-- A response received: stored in the next of `size` entries of 128 bytes from `base`, its payload in words 0–15 and its
SRC in word 16; with none free it is lost and event bit 1 set (R422, R529). -/
def rxStore (base head tail events size : Nat) (c : Cell) (s : State) : State :=
  if (rd s head - rd s tail).toNat = size then ev events 1 s
  else
    let words := (List.range 16).map (fun w => BitVec.ofNat 32 (fieldBE c.payload (4 * w) 4))
    wr head (rd s head + 1)
      (wrWords (base + (rdN s head % size) * 0x80) (words ++ [BitVec.ofNat 32 (wSrc c)]) s)

/-- The check in payload bytes 60–63 is right (R415, R526). -/
def payloadOk (c : Cell) : Bool := fieldBE c.payload 60 4 == crc32c (c.payload.take 60)

/-- A request that arrived on port `n` is trusted (R418). -/
def trusted (s : State) (n : Nat) (c : Cell) : Bool :=
  (n == 19 && wDest c == ownId s) || wSrc c == rfld s R.glbMgrId 12 0 || wSrc c == rfld s R.glbMgrId 28 16

/-- CTRL_SEND. -/
def execCtrlSend (s : State) : Host.Outcome State Fault Refusal := run ctrlSend s

/-- SURVEY_SEND. -/
def execSurveySend (s : State) : Host.Outcome State Fault Refusal := run svySend s

end Sys2Proof.Machine
end

