-- ==== Sys2Proof/Machine/Telemetry.lean ====
section
/-! DEFINITION. Congestion maps, SURVEY cells and the data copies of captures (Telemetry and Step Replay, R521–R529,
R538–R539). -/
namespace Sys2Proof.Machine

/-! ### Map records (R521–R525) -/

/-- TEL_CONFIG.ENABLE. -/
def telOn (s : State) : Bool := rbit s R.telConfig 0

/-- The map record of port `n` for the window in progress (Table 17.1). -/
def mapRecord (s : State) (n : Nat) : List Byte :=
  let x := tget {} n s.tel
  bytesLE 8 s.map.window ++ bytesLE 1 n
    ++ bytesLE 1 (b2n x.inj + 2 * b2n x.notActive + 4 * b2n s.map.first + 8 * b2n s.map.jumped)
    ++ bytesLE 1 x.maxStd ++ bytesLE 1 x.maxRing ++ bytesLE 1 x.maxCirc ++ bytesLE 1 x.maxVc2
    ++ bytesLE 2 (min x.sent 65535) ++ bytesLE 2 (min x.defl 65535) ++ bytesLE 2 (min x.disc 65535)
    ++ bytesLE 2 (min x.circ 65535) ++ bytesLE 2 (min x.iwait 65535)
    ++ x.hist.flatMap (fun h => bytesLE 2 (min h 65535)) ++ bytesLE 8 0

/-- The history slot of a window (R525). -/
def mapSlot (w : Nat) : Nat := w / 4096 % 32

/-- Write the records of the window in progress. -/
def mapWrite (s : State) : State :=
  forEach (range 4 30) (fun n s => wrWords (R.mapHistory n (mapSlot s.map.window) 0) (recordWords (mapRecord s n) 12) s) s

/-- The MTC has reached the end of the window in progress. -/
def mapDue (s : State) : Bool := decide (s.map.window + 4096 ≤ mtcN s)

/-- The window in progress ends: its records are written where ENABLE is 1, and the window the MTC now lies in begins. Windows
jumped over get no record; a window entered by a jump counts the ticks it has (R521, R523). -/
def mapWindowEnd (s : State) : State :=
  let w := s.map.window
  let s1 := if telOn s then mapWrite s else s
  let jumped := s.map.jumped && s.t.jumpFrom.isSome && decide (mtcN s % 4096 ≠ 0)
  { s1 with
    tel := []
    map := { window := mtcN s / 4096 * 4096, first := s.map.first && !telOn s, jumped := jumped, last := w } }

/-- ENABLE changes from 0 to 1 (R524). -/
def telEnable (s : State) : State := { s with tel := [], map := { s.map with first := true } }

/-! ### SURVEY (R526–R529) -/

/-- The 48 bytes of a history slot (R522). -/
def mapRead (s : State) (n slot : Nat) : List Byte :=
  (List.range 12).flatMap (fun w => bytesLE 4 (rdN s (R.mapHistory n slot w)))

/-- A record as a SURVEY payload carries it: every field most significant byte first (R522). -/
def mapBE (r : List Byte) : List Byte :=
  bytesBE 8 (fieldLE r 0 8) ++ slice r 8 6 ++ (List.range 13).flatMap (fun i => bytesBE 2 (fieldLE r (14 + 2 * i) 2)) ++ slice r 40 8

/-- Queue one response to a request (Table 17.3). -/
def svyRespond (c : Cell) (status index count : Nat) (record : List Byte) (s : State) : State :=
  let b := bytesBE 1 2 ++ bytesBE 1 status ++ slice c.payload 2 2 ++ bytesBE 1 index ++ bytesBE 1 count
    ++ bytesBE 1 (incarnation s) ++ bytesBE 1 0 ++ bytesBE 4 0 ++ slice record 0 48
  injectOwn (mkCell (wSrc c) (ownId s) 2 10 0 0 0 (b ++ bytesBE 4 (crc32c b))) s

/-- The response for port `n` and window `w` (R528). -/
def svyPort (c : Cell) (w n index count : Nat) (s : State) : State :=
  let r := mapRead s n (mapSlot w)
  if fieldLE r 0 8 = w ∧ fieldLE r 8 1 = n then svyRespond c 0 index count (mapBE r) s
  else svyRespond c (if telOn s then 3 else 4) index count [] s

/-- Ports and reserved fields of a MAP_REQ are in order (Table 17.5, order 5). -/
def mapReqOk (b : List Byte) : Bool :=
  let first := fieldBE b 4 1
  let count := fieldBE b 5 1
  decide (4 ≤ first ∧ 1 ≤ count ∧ first + count ≤ 31) && fieldBE b 1 1 == 0 && decide (fieldBE b 6 1 ≤ 1) && fieldBE b 7 1 == 0
    && fieldBE b 16 44 == 0

/-- A SURVEY cell delivered from port `n` (Table 17.5). -/
def surveyTake (n : Nat) (c : Cell) (s : State) : State :=
  let b := c.payload
  if !payloadOk c then evI R.telSvyEvents 2 3 false (cnt R.telSvyBadCount s)
  else if fieldBE b 0 1 = 2 then rxStore (R.telSvyRx 0 0) R.telSvyRxHead R.telSvyRxTail R.telSvyEvents 32 c s
  else if fieldBE b 0 1 ≠ 1 then svyRespond c 2 0 1 [] s
  else if !trusted s n c then svyRespond c 1 0 1 [] s
  else if !mapReqOk b then svyRespond c 2 0 1 [] s
  else
    let w := if fieldBE b 6 1 = 1 then s.map.last else fieldBE b 8 8
    let count := fieldBE b 5 1
    forEach (List.range count) (fun i => svyPort c w (fieldBE b 4 1 + i) i count) s

/-! ### Data copies (R538, R539) -/

/-- RPL_DATA_BASE. -/
def dataBase (s : State) : Nat := rdN s R.rplDataBaseLo + rdN s R.rplDataBaseHi * 2 ^ 32

/-- The first item of the copy buffer whose place is known goes out on SVC1 as a PUT to the storage bridge; it waits where no tag
is free, and is not copied where the port takes no cell. -/
def dataCopy (s : State) : State :=
  match s.copyBuf.find? (fun i => i.off.isSome) with
  | none => s
  | some i =>
    let s1 := { s with copyBuf := s.copyBuf.erase i }
    if !usable s false 20 then capLost i.cap (peerLostCount s1)
    else if !tagRoom s i.stream 16 .put then markWait .copy s
    else
      takeTag
        { stream := i.stream, opn := 0, kind := .put, step := i.step, slot := 16, port := 20, dest := rfld s (R.prtPeer 20) 12 0
          addr := (dataBase s + i.off.getD 0) % 2 ^ 48, len := i.bytes.length, loc := 0, part := i.part, data := i.bytes
          copy := some (i.cap, i.entry) } s1

/-! ### Commands -/

/-- MAP_WINDOW_END (R521). -/
def execMapWindowEnd (s : State) : Host.Outcome State Fault Refusal := run (whenB (mapDue s) mapWindowEnd) s

/-- MAP_REQ (R527): a SURVEY cell on port `n` whose OP is not MAP_RSP. -/
def execMapReq (n : Nat) (b : List Byte) (s : State) : Host.Outcome State Fault Refusal :=
  run (takeCell n b (fun c => wType c == 10 && fieldBE c.payload 0 1 != 2) (surveyTake n)) s

/-- MAP_RSP (R529). -/
def execMapRsp (n : Nat) (b : List Byte) (s : State) : Host.Outcome State Fault Refusal :=
  run (takeCell n b (fun c => wType c == 10 && fieldBE c.payload 0 1 == 2) (surveyTake n)) s

/-- DATA_COPY (R539). -/
def execDataCopy (s : State) : Host.Outcome State Fault Refusal := run dataCopy s

end Sys2Proof.Machine
end

