-- ==== Sys2Proof/Machine/Replay.lean ====
section
/-! DEFINITION. Re-execution of a captured step (Telemetry and Step Replay, R541–R547): the tests of GO, the run over the
capture's units, its comparisons, and its end. -/
namespace Sys2Proof.Machine

/-! ### A capture as the ring holds it (R533–R537) -/

/-- Unit `u` of the ring. -/
def unitBytes (s : State) (u : Nat) : List Byte := stgRead s (unitAddr s u) 64

/-- The capture ID and KIND of unit `u`. -/
def unitId (s : State) (u : Nat) : Nat := natLE (stgRead s (unitAddr s u) 2)
def unitKind (s : State) (u : Nat) : Nat := (stgGet s (unitAddr s u + 2)).toNat

/-- Unit `u` lies in [RPL_TAIL, RPL_HEAD). -/
def unitHeld (s : State) (u : Nat) : Bool :=
  decide ((BitVec.ofNat 32 u - rd s R.rplTail).toNat < ringUsed s)

/-- The units after `u` that carry the ID of `u`, as far as RPL_HEAD or another HEAD0 of that ID. -/
def unitsAfter (s : State) (u : Nat) : List Nat :=
  let n := (rd s R.rplHead - BitVec.ofNat 32 u).toNat
  let l := ((List.range (n - 1)).map (fun i => (u + 1 + i) % 2 ^ 32)).filter (fun v => unitId s v == unitId s u)
  l.takeWhile (fun v => unitKind s v != 1)

/-- A contribution entry (Table 17.8); `k` is its number among the data items (R538), `idx` among all items. -/
structure CapEnt where
  pos : Nat
  rank : Nat
  contrib : Nat
  check : Nat
  decision : Nat
  delta : Nat
  k : Nat
  idx : Nat
  deriving DecidableEq, Repr

/-- A check item (R536). -/
structure CapChk where
  target : Nat
  chunk : Nat
  check : Nat
  count : Nat
  idx : Nat
  deriving DecidableEq, Repr

/-- A capture read from its units. -/
structure CapView where
  ents : List CapEnt := []
  chks : List CapChk := []
  /-- data items and items so far -/
  k : Nat := 0
  idx : Nat := 0
  deriving DecidableEq, Repr

/-- Take in one entry of an ENTRY unit. -/
def viewEntry (b : List Byte) (v : CapView) : CapView :=
  let d := fieldLE b 16 1
  { v with
    ents := v.ents ++ [{ pos := fieldLE b 0 4, rank := fieldLE b 4 2, contrib := fieldLE b 6 2, check := fieldLE b 8 4
                         decision := d, delta := fieldLE b 18 2, k := v.k, idx := v.idx }]
    k := if d = 5 then v.k else v.k + 1
    idx := v.idx + 1 }

/-- Take in one item of an INPUT or OUTPUT unit. -/
def viewItem (input : Bool) (target chunk : Nat) (b : List Byte) (v : CapView) : CapView :=
  { v with
    chks := v.chks ++ [{ target := target, chunk := chunk, check := fieldLE b 0 4, count := fieldLE b 4 2, idx := v.idx }]
    k := if input then v.k + 1 else v.k
    idx := v.idx + 1 }

/-- Take in one unit. -/
def viewUnit (b : List Byte) (v : CapView) : CapView :=
  let n := fieldLE b 3 1
  match fieldLE b 2 1 with
  | 3 => (List.range (min n 3)).foldl (fun v i => viewEntry (slice b (4 + 20 * i) 20) v) v
  | 4 => (List.range (min n 7)).foldl (fun v i => viewItem true (fieldLE b 4 1) (fieldLE b 8 4 + i) (slice b (12 + 8 * i) 8) v) v
  | 5 => (List.range (min n 7)).foldl (fun v i => viewItem false (fieldLE b 4 1) (fieldLE b 8 4 + i) (slice b (12 + 8 * i) 8) v) v
  | _ => v

/-! ### The run (R543–R545) -/

/-- What stays the same throughout a replay. -/
structure RCtx where
  k : Nat
  part : Nat
  win : List Win
  run : Run
  step : Nat
  seed : Nat
  data : Nat
  emit : Nat
  view : CapView
  deriving DecidableEq, Repr

/-- Where a replay stands: what the accelerator returns for the reads to come, mismatches (item index, input), fault. -/
structure Rp where
  s : State
  reads : List (List Byte)
  mism : List (Nat × Bool) := []
  fault : Option Nat := none
  deriving DecidableEq, Repr

/-- A change of the state, unless the step has faulted. -/
def Rp.act (p : Rp) (f : State → State) : Rp := if p.fault.isSome then p else { p with s := f p.s }

/-- Read local bytes; nothing after a fault. -/
def rpRead (c : RCtx) (a len : Nat) (p : Rp) : Rp × List Byte :=
  if p.fault.isSome then (p, [])
  else
    let accel := placeOf p.s (offOf a) len == .accel
    let r := localRead (some c.k) c.win c.part a len (if accel then p.reads.headD [] else []) p.s
    match r.2 with
    | .error e => ({ p with s := r.1, fault := some e }, [])
    | .ok b => ({ p with s := r.1, reads := if accel then p.reads.drop 1 else p.reads }, b)

/-- Write local bytes. -/
def rpWrite (c : RCtx) (a : Nat) (b : List Byte) (p : Rp) : Rp :=
  if p.fault.isSome then p
  else
    let r := localWrite (some c.k) c.win c.part a b (.replay c.k) p.s
    match r.2 with
    | .err e => { p with s := r.1, fault := some e }
    | _ => { p with s := r.1 }

/-- Compare an input, or an output with its count, with what was captured of it (R544). -/
def rpCompare (c : RCtx) (input : Bool) (target chunk count : Nat) (b : List Byte) (p : Rp) : Rp :=
  if p.fault.isSome then p
  else
    let bad := c.view.chks.filter (fun x => x.target == target && x.chunk == chunk
      && (x.check != crc32c b || (!input && x.count != count)))
    { p with mism := p.mism ++ bad.map (fun x => (x.idx, input)) }

/-- The count captured with an input chunk; 1 where none was. -/
def rpCount (c : RCtx) (target chunk : Nat) : Nat :=
  match c.view.chks.find? (fun x => x.target == target && x.chunk == chunk) with
  | some x => x.count
  | none => 1

/-- Read and compare a local input of a target (Table 17.9). -/
def rpInput (c : RCtx) (target chunk a len : Nat) (p : Rp) : Rp × List Byte :=
  let r := rpRead c a len p
  (rpCompare c true target chunk 0 r.2 r.1, r.2)

/-- Read input chunk of leg position `j`. -/
def rpLocal (c : RCtx) (j : Nat) (p : Rp) : Rp × List Byte × Nat :=
  let r := rpInput c 0 (c.run.inChunk j) (inAddr p.s c.k c.run j) 4096 p
  (r.1, r.2, rpCount c 0 (c.run.inChunk j))

/-- Write output chunk `i` of the output buffer and compare it. -/
def rpOutput (c : RCtx) (target i count : Nat) (b : List Byte) (p : Rp) : Rp :=
  rpCompare c false target i count b (rpWrite c (outAddr p.s c.k c.run i) b p)

/-- The entries with their data, each read and verified in order (R543); ABSENT entries have none. -/
def rpEntries (c : RCtx) : List CapEnt → Rp → Rp × List (CapEnt × List Byte)
  | [], p => (p, [])
  | e :: t, p =>
    if e.decision = 5 then rpEntries c t p
    else
      let r := rpRead c (c.data + e.k * 4096) 4096 p
      let p := if r.1.fault.isSome ∨ e.check = crc32c r.2 then r.1 else { r.1 with mism := r.1.mism ++ [(e.idx, true)] }
      let u := rpEntries c t p
      (u.1, (e, r.2) :: u.2)

/-- The entry enters its position: ON_TIME, WAITED or CONSUMED. -/
def CapEnt.enters (e : CapEnt) : Bool := e.decision == 0 || e.decision == 1 || e.decision == 6

/-- The contributions that enter position `j`. -/
def rpContribs (s : State) (c : RCtx) (j : Nat) (l : List (CapEnt × List Byte)) : List Contrib :=
  (l.filter (fun x => x.1.enters && x.1.pos == c.run.bias + j)).map (fun x =>
    { rank := x.1.rank, count := x.1.contrib, elements := eIn s c.run, data := x.2
      sstep := (c.step + 2 ^ 32 - x.1.delta) % 2 ^ 32, seq := 0, carried := x.1.decision == 6, added := true })

/-- Write what a sending step forms, with its SEAL payload (R545). -/
def rpEmit (c : RCtx) (j fmt elements count : Nat) (carry : Bool) (b : List Byte) (p : Rp) : Rp :=
  if c.emit = 0 then p
  else rpWrite c (c.emit + j * 4160)
    (b ++ sealBytes (crc32c b) c.step c.run.self count fmt (2 * b2n carry + 8) elements) p

/-- Combine position `j`: the local input, the contributions, the outputs with their count. -/
def rpCombine (c : RCtx) (l : List (CapEnt × List Byte)) (j : Nat) (p : Rp) : Rp × List (List Byte) × Nat :=
  let r := rpLocal c j p
  let p := r.1
  let own : Contrib :=
    { rank := c.run.self, count := r.2.2, elements := eIn p.s c.run, data := r.2.1, sstep := c.step, seq := 0, added := true }
  let cs := rankOrder (own :: rpContribs p.s c j l)
  let count := min 65535 ((cs.map (fun x => x.count)).sum)
  if p.fault.isSome then (p, [], count)
  else
    let ms := posOutputs p.s c.run c.seed j count cs
    (p.act (forEach ms madeEvents), ms.map (fun m => m.bytes), count)

/-- SEND. -/
def rpSend (c : RCtx) (p : Rp) : Rp :=
  (List.range c.run.rc.length).foldl (fun p j =>
    let r := rpLocal c j p
    rpEmit c j c.run.rc.inFmt (eIn r.1.s c.run) r.2.2 false r.2.1 r.1) p

/-- RECV. -/
def rpRecv (c : RCtx) (l : List (CapEnt × List Byte)) (p : Rp) : Rp :=
  l.foldl (fun p x =>
    if x.1.enters && decide (c.run.bias ≤ x.1.pos ∧ x.1.pos < c.run.bias + c.run.rc.length) then
      rpOutput c 1 (c.run.rc.outOff + x.1.pos) x.1.contrib x.2 p
    else p) p

/-- RECV_COMBINE with output chunks that each come from one position. -/
def rpRecvCombine (c : RCtx) (l : List (CapEnt × List Byte)) (p : Rp) : Rp :=
  (List.range c.run.rc.length).foldl (fun p j =>
    let r := rpCombine c l j p
    let o := c.run.rc.outOff + firstOut r.1.s c.run j
    ((List.range r.2.1.length).zip r.2.1).foldl (fun p x => rpOutput c 1 (o + x.1) r.2.2 x.2 p) r.1) p

/-- RECV_COMBINE with output chunks of several positions (R346, R348). -/
def rpGather (c : RCtx) (l : List (CapEnt × List Byte)) (p : Rp) : Rp :=
  let q : Rp × List (Nat × List Byte × Nat) := (List.range c.run.rc.length).foldl (fun q j =>
    let r := rpCombine c l j q.1
    (r.1, q.2 ++ [(j, r.2.1.headD [], r.2.2)])) (p, [])
  let s := q.1.s
  let ei := eIn s c.run
  let eo := eOut s c.run
  (range (firstOut s c.run 0) (endOut s c.run (c.run.rc.length - 1) - 1)).foldl (fun p o =>
    let parts := q.2.filter (fun x => decide (firstOut s c.run x.1 ≤ o ∧ o < endOut s c.run x.1))
    let counts := parts.map (fun x => x.2.2)
    let low := counts.foldl min (counts.headD 1)
    let p := if counts.all (· == low) then p else p.act (ev R.cmbEvents 3)
    rpOutput c 1 (c.run.rc.outOff + o) low
      (gatherBytes (parts.map (fun x => ((c.run.bias + x.1) * ei - o * eo, x.2.1))) eo) p) q.1

/-- COMBINE_SEND. -/
def rpCombineSend (c : RCtx) (l : List (CapEnt × List Byte)) (p : Rp) : Rp :=
  (List.range c.run.rc.length).foldl (fun p j =>
    let r := rpCombine c l j p
    let b := r.2.1.headD []
    let carry := (rpContribs r.1.s c j l).any (fun x => x.carried)
    rpEmit c j c.run.rc.outFmt (eOut r.1.s c.run) r.2.2 carry b (rpCompare c false 2 j r.2.2 b r.1)) p

/-- COPY. -/
def rpCopy (c : RCtx) (p : Rp) : Rp :=
  (List.range c.run.rc.length).foldl (fun p j =>
    let r := rpLocal c j p
    rpOutput c 1 (c.run.rc.outOff + c.run.bias + j) r.2.2 r.2.1 r.1) p

/-- NARROW and WIDEN. -/
def rpConvert (c : RCtx) (p : Rp) : Rp :=
  let q : Rp × List Pos := (List.range c.run.rc.length).foldl (fun q j =>
    let r := rpLocal c j q.1
    (r.1, q.2 ++ [{ j := j, loc := some (r.2.1, r.2.2) }])) (p, [])
  let run := { c.run with poss := q.2 }
  let s := q.1.s
  (range (firstOut s run 0) (endOut s run (run.rc.length - 1) - 1)).foldl (fun p o =>
    let m := convertChunk p.s run c.seed o
    let first := (max (o * eOut s run) (run.bias * eIn s run)) / eIn s run - run.bias
    let count := match run.pos first with | some { loc := some (_, n), .. } => n | _ => 1
    rpOutput c 1 (run.rc.outOff + o) count m.bytes (p.act (madeEvents m))) q.1

/-- One chunk of a SHARD_UPDATE: its operands read and compared, its new master chunk and moments written. -/
def rpShardChunk (c : RCtx) (ub : List Byte) (j : Nat) (p : Rp) : Rp × List Byte :=
  let r := c.run
  let i := r.bias + j
  if ubSkip ub then rpInput c 4 i (masterAddr r ub j) 4096 p
  else
    let g := rpInput c 3 (r.inChunk j) (inAddr p.s c.k r j) 4096 p
    let w := rpInput c 4 i (masterAddr r ub j) 4096 g.1
    let m := rpInput c 5 i (momentAddr r ub j) 2112 w.1
    if m.1.fault.isSome then (m.1, [])
    else
      let o := shardResult ub c.seed r.idx (i * 1024) g.2 w.2 m.2
      let p := m.1.act (shardEvents c.k o)
      let p := rpCompare c false 7 i 1 o.mom (rpWrite c (momentAddr r ub j) o.mom p)
      (rpCompare c false 6 i 1 o.master (rpWrite c (masterAddr r ub j) o.master p), o.master)

/-- A working-copy chunk from the new master chunks (R369). -/
def rpCopyChunk (c : RCtx) (masters : Tbl Nat) (o : Nat) (p : Rp) : Rp :=
  let r := c.run
  let fo := fmtAt p.s r.rc.outFmt
  let eo := perChunk fo
  let i := r.rc.outOff + o
  let m := makeChunk fo 2 ((List.range eo).map (fun e =>
    let g := o * eo + e
    (resOf (chunkElem fp32 (tget 0 (g / 1024 - r.bias) masters) (g % 1024)), rndWord c.seed 0x12 r.idx (i * eo + e))))
  rpOutput c 8 i 1 m.bytes (p.act (madeEvents m))

/-- SHARD_UPDATE. -/
def rpShard (c : RCtx) (p : Rp) : Rp :=
  let r := c.run
  let n := r.rc.length
  let u := rpRead c (bufOf p.s c.k (r.rc.aux % 4) + r.rc.peer * 64) 64 p
  let ub := u.2
  if u.1.fault.isSome then u.1
  else if !ubOk ub || !(ubSkip ub || constsOk (constsOf ub)) then { u.1 with s := ev R.cmbShdEvents 1 u.1.s, fault := some 0x1B }
  else
    let t := rangesTest (some c.k) c.win c.part (shardRanges u.1.s c.k r ub) u.1.s
    match t.2 with
    | some (e, _) => { u.1 with s := t.1, fault := some e }
    | none =>
      let p := { u.1 with s := if ubSkip ub then ev R.cmbShdEvents 3 t.1 else t.1 }
      let q : Rp × Tbl Nat := (List.range n).foldl (fun q j =>
        let x := rpShardChunk c ub j q.1
        (x.1, q.2 ++ [(j, natLE x.2)])) (p, [])
      (range (firstOut p.s r 0) (endOut p.s r (n - 1) - 1)).foldl (fun p o => rpCopyChunk c q.2 o p) q.1

/-- The step of the capture (R543): its record tests, its entries, its positions. -/
def rpStep (c : RCtx) (p : Rp) : Rp :=
  match stepTest p.s c.k c.run.rc with
  | some e => { p with fault := some e }
  | none =>
    let r := rpEntries c c.view.ents p
    let p := r.1
    match c.run.op with
    | 1 => rpSend c p
    | 2 => rpRecv c r.2 p
    | 3 => if eOut p.s c.run ≤ eIn p.s c.run then rpRecvCombine c r.2 p else rpGather c r.2 p
    | 4 => rpCombineSend c r.2 p
    | 5 => rpCopy c p
    | 6 => rpConvert c p
    | 7 => rpConvert c p
    | 13 => rpShard c p
    | _ => p

/-! ### GO and its tests (R542) -/

/-- The run of HEAD0 and HEAD1. -/
def rpRun (s : State) (u : Nat) (l : List Nat) : Run :=
  let h := unitBytes s u
  let rec1 := match l.find? (fun v => unitKind s v == 2) with
    | some v => parseRec (slice (unitBytes s v) 4 32)
    | none => {}
  { rid := 0, idx := fieldLE h 36 2, rc := rec1, fired := now s, base := fieldLE h 8 8, bias := fieldLE h 48 4
    policy := fieldLE h 41 1 % 4, rounding := fieldLE h 41 1 / 4 % 4, self := fieldLE h 42 2 }

/-- The request a replay's stream shows: the values of HEAD0, the buffers of the run registers. -/
def rpReq (s : State) (k u : Nat) (bufs : List Nat) : Req :=
  let h := unitBytes s u
  { last := fieldLE h 32 4, step := fieldLE h 4 4, stream := k, baseTime := fieldLE h 8 8, buf := bufs, seed := fieldLE h 24 8 }

/-- `n` pieces of `unit` bytes from `a` lie in the own slot and pass the windows of partition `part`. -/
def spanOk (s : State) (part a unit n : Nat) (w : WKind) : Bool :=
  (List.range n).all (fun i =>
    inOwnSlot s (a + i * unit) unit && placeOf s (offOf (a + i * unit)) unit != .bad
      && windowOk (winsOf s part) (a + i * unit) unit w false)

/-- Test 5 of Table 17.11. -/
def rpSpans (s : State) (k part : Nat) (r : Run) (items data emit : Nat) : Bool :=
  let n := r.rc.length
  let inOk := spanOk s part (inAddr s k r 0) 4096 n .read
  let o0 := firstOut s r 0
  let outOk := spanOk s part (outAddr s k r (r.rc.outOff + o0)) 4096 (endOut s r (n - 1) - o0) .write
  (match r.op with
    | 1 => inOk
    | 2 => outOk
    | 4 => inOk
    | 13 => inOk && outOk && spanOk s part (bufOf s k (r.rc.aux % 4) + r.rc.peer * 64) 64 1 .read
    | _ => inOk && outOk)
    && spanOk s part data 4096 items .read
    && (emit == 0 || spanOk s part emit 4160 n .write)

/-- A replay that its tests end: its result and ID. -/
def rpRefuse (code id : Nat) (s : State) : State :=
  evI R.rplEvents 2 5 false (wrN R.rplResult (code * 16 + id % 65536 * 65536) s)

/-- The same where no capture was found: its ID is not stated (log entry 6). -/
def rpRefuseFree (code : Nat) (s : State) : State :=
  let f := freeWord s
  rpRefuse code f.1.toNat f.2

/-- A 48-bit address in a register pair. -/
def addr48 (s : State) (lo hi : Nat) : Nat := rdN s lo + rfld s hi 15 0 * 2 ^ 32

/-- A write of 1 to RPL_RUN_CTRL.GO (R542): a replay whose tests pass runs from the next tick. -/
def replayGo (s : State) : State :=
  if s.replay.isSome then ev R.rplEvents 4 s
  else
    let s := wrN R.rplMismatchCount 0 (wrN R.rplFirstMismatch 0 s)
    let k := rfld s R.rplRunStream 7 0
    let u := rdN s R.rplRunCapture
    match (if isolated s k then ownerOf s k else none) with
    | none => rpRefuseFree 4 s
    | some n =>
      if (str s k).st ≠ .idle then rpRefuseFree 4 s
      else if ringUnits s = 0 ∨ unitHeld s u = false ∨ unitKind s u ≠ 1 then rpRefuseFree 5 s
      else
        let l := unitsAfter s u
        let id := unitId s u
        match l.find? (fun v => unitKind s v == 6) with
        | none => rpRefuse 5 id s
        | some e =>
          let eb := unitBytes s e
          if !l.any (fun v => unitKind s v == 2) then rpRefuse 5 id s
          else if fieldLE eb 12 1 ≠ 0 ∨ fieldLE eb 13 1 % 2 = 1 then rpRefuse 6 id s
          else
            let bufs := (range 0 3).map (fun b => addr48 s (R.rplRunBufLo b) (R.rplRunBufHi b))
            let data := addr48 s R.rplRunDataLo R.rplRunDataHi
            let emit := addr48 s R.rplRunEmitLo R.rplRunEmitHi
            let r := rpRun s u l
            let s1 := modStr k (fun x => { x with
              st := .running, part := n, req := rpReq s k u bufs, bias := r.bias, base := r.base, inj := false, finished := false }) s
            if !rpSpans s1 k n r (fieldLE eb 28 4) data emit then rpRefuse 7 id s
            else { s1 with replay := some { stream := k, cap := id, ready := true, unit := u, bufs := bufs, data := data, emit := emit } }

/-! ### Running and ending (R543, R546) -/

/-- Fold the units of a capture, in ring order, into its view. -/
def rpUnits (c : Nat) (part : Nat) : List Nat → CapView → State → State × Option CapView
  | [], v, s => (s, some v)
  | u :: t, v, s =>
    let r := storeRead (some c) part (unitAddr s u) 64 s
    match r.2 with
    | none => (r.1, none)
    | some b => rpUnits c part t (viewUnit b v) r.1

/-- The mismatch of the lowest item index. -/
def firstMism : List (Nat × Bool) → Option (Nat × Bool)
  | [] => none
  | x :: t =>
    match firstMism t with
    | none => some x
    | some y => if x.1 ≤ y.1 then some x else some y

/-- Run a replay: `reads` is what the accelerator returns, in the order of the reads. Its writes are issued; it ends when they
are acknowledged. -/
def replayRun (r : Replay) (reads : List (List Byte)) (s : State) : State :=
  let k := r.stream
  let n := (str s k).part
  let l := unitsAfter s r.unit
  let v := rpUnits k n (r.unit :: l) {} s
  let p : Rp := match v.2 with
    | none => { s := v.1, reads := reads, fault := some 0x13 }
    | some view =>
      let run := rpRun v.1 r.unit l
      let q := (str v.1 k).req
      rpStep { k := k, part := n, win := winsOf v.1 n, run := run, step := q.step, seed := q.seed, data := r.data, emit := r.emit, view := view }
        { s := v.1, reads := reads }
  let m := p.mism.length
  let f := firstMism p.mism
  let s := wrN R.rplMismatchCount m (wrN R.rplFirstMismatch (match f with | some x => x.1 | none => 0) p.s)
  { s with replay := some { r with ready := false, fault := p.fault, mism := m, first := f } }

/-- REPLAY_START: a replay that GO made ready runs; without one, the command is the write of GO and the run. -/
def replayStart (reads : List (List Byte)) (s : State) : State :=
  match s.replay with
  | some r => if r.ready then replayRun r reads s else replayGo s
  | none =>
    let s := replayGo s
    match s.replay with
    | some r => replayRun r reads s
    | none => s

/-- A replay whose writes are all acknowledged. -/
def replayOver (s : State) : Bool :=
  match s.replay with
  | some r => !r.ready && s.txns.all (fun t => t.owner != .replay r.stream)
  | none => false

/-- The end of a replay: no completion record, the stream is IDLE (R546). -/
def replayDone (s : State) : State :=
  match s.replay with
  | some r => toIdle r.stream (replayEnd r (str s r.stream).inj s)
  | none => s

/-! ### Commands -/

/-- REPLAY_START (R542, R543). -/
def execReplayStart (reads : List (List Byte)) (s : State) : Host.Outcome State Fault Refusal := run (replayStart reads) s

/-- REPLAY_DONE (R546). -/
def execReplayDone (s : State) : Host.Outcome State Fault Refusal := run (whenB (replayOver s) replayDone) s

end Sys2Proof.Machine
end

