-- ==== Sys2Proof/Machine/RegAccess.lean ====
section
/-! DEFINITION. Register reads and writes: what a register shows, the latches of 64-bit values, and the dispatch of a write to
the action of its register, TABLE_WRITE and CONFIGURATION_SEAL among them (Register Index; R8–R14, R82, R413, R438, R450,
R454, R456, R461, R622–R629). -/
namespace Sys2Proof.Machine

/-! ### Registers that show the engine's state -/

/-- The code of a port state (Table 4.2). -/
def PState.code : PState → Nat
  | .down => 0
  | .seek => 1
  | .train => 2
  | .align => 3
  | .active => 4
  | .doze => 5
  | .sleep => 6
  | .fenced => 7
  | .fault => 8

/-- PRTn_STATE (Table 4.9); port 31 is always ACTIVE. -/
def showPort (s : State) (n : Nat) : Nat :=
  if n = 31 then 4
  else
    let p := port s n
    p.st.code + 16 * b2n p.lite + 32 * b2n p.leader + 64 * b2n p.alone + 128 * b2n p.resuming + 256 * (p.reason % 16)

/-- PRT_ACTIVE_MASK; LOCAL always reads ACTIVE. -/
def showActive (s : State) : Nat := (range 0 30).foldl (fun a n => a + b2n ((port s n).st == .active) * 2 ^ n) (2 ^ 31)

/-- PRTn_QUEUE_DEPTH (Table 5.11). -/
def showDepth (s : State) (n : Nat) : Nat :=
  let p := port s n
  p.qVc0s.length + 2 ^ 5 * p.qVc0r.length + 2 ^ 11 * p.qVc1r.length + 2 ^ 17 * p.qCirc.length + 2 ^ 23 * p.qVc2.length

/-- MTC_STATUS with HOLDING and PARENT (Table 2.9): an engine that is root, island or unjoined shows parent 31. -/
def showTime (s : State) : Word :=
  let w := rd s R.mtcStatus
  let parent := if rbit s R.mtcStatus 0 ∧ rbit s R.mtcStatus 1 = false then parentPort s else 31
  putFld (putFld w 12 8 parent) 2 2 (b2n s.t.hold.isSome)

/-- TBL_EPOCH (Table 14.6). -/
def showEpoch (s : State) : Nat :=
  s.ep.inj % 2 + 2 * b2n s.ep.armed.isSome + 4 * b2n s.ep.draining + 256 * (s.ep.flips % 256)

/-- A step is armed and waits for its launch. -/
def armedStep (x : Stream) : Bool :=
  match x.arm with
  | some (_, r, _, _) => r.opcode != 0 && r.opcode != 15
  | none => false

/-- The state code of a stream (Table 8.2). -/
def Stream.code (x : Stream) : Nat :=
  match x.st with
  | .idle => 0
  | .starting => 1
  | .armed => 2
  | .running => if armedStep x then 2 else 3
  | .ending => 4
  | .faulted => 5
  | .quenching => 6

/-- A replay runs on stream `k`. -/
def replaysOn (s : State) (k : Nat) : Bool := match s.replay with | some r => r.stream == k | none => false

/-- STRn_STATE (Table 8.13). -/
def showStream (s : State) (k : Nat) : Nat :=
  let x := str s k
  x.code + 16 * ((inflight s k + b2n (replaysOn s k)) % 32) + 512 * (x.lastArmed % 4096) + 2 ^ 21 * ((ownerOf s k).getD 0 % 16)

/-- `v`, or 0 for an IDLE stream. -/
def unlessIdle (s : State) (k v : Nat) : Nat := if (str s k).st = .idle then 0 else v

/-- The owner code of the flash port (NVM_STATUS). -/
def FUser.code : FUser → Nat
  | .none => 0
  | .boot => 1
  | .journal => 2
  | .window => 3
  | .software => 4

/-- The registers formed when they are read. -/
def showReg (s : State) (a : Nat) : Option Nat :=
  if 0x40000 ≤ a ∧ a < 0x60000 then
    (match a % 0x1000 with
    | 0x000 => some (showPort s ((a - 0x40000) / 0x1000))
    | 0x51C => some (showDepth s ((a - 0x40000) / 0x1000))
    | _ => none)
  else if 0xA0000 ≤ a ∧ a < 0xB0000 then
    let k := (a - 0xA0000) / 0x100
    (match a % 0x100 with
    | 0x00 => some (showStream s k)
    | 0x04 => some (unlessIdle s k ((str s k).req.last % 2 ^ 23))
    | 0x08 => some ((str s k).base % 2 ^ 32)
    | 0x1C => some (unlessIdle s k ((str s k).reserve + (str s k).drawn))
    | 0x40 => some (unlessIdle s k (str s k).cmap.length)
    | _ => none)
  else if 0xC0000 ≤ a ∧ a < 0xD0000 then
    let n := (a - 0xC0000) / 0x1000
    (match a % 0x1000 with
    | 0x058 => some (stageUsed s n % 2 ^ 15)
    | 0x064 => some ((par s n).outstanding)
    | 0x074 => some ((par s n).anneal.length)
    | _ => none)
  else if a = R.prtActiveMask then some (showActive s)
  else if a = R.mtcStatus then some (showTime s).toNat
  else if a = R.mtcNowLo then some (mtcN s % 2 ^ 32)
  else if a = R.telWindowLo then some (s.map.last % 2 ^ 32)
  else if a = R.tblEpoch then some (showEpoch s)
  else if a = R.tblMcHoldDepth then some s.hold.length
  else if a = R.glbSeal then some (rfld s R.glbSeal 1 0 + 0x10000 * b2n (!s.bootPend.isEmpty))
  else if a = R.cmbSlots then some ((range 0 3).foldl (fun t c => t + slotsUsed s c * 2 ^ (8 * c)) 0)
  else if a = R.memStatus then some (s.tags.length + 0x10000 * s.slots.length)
  else if a = R.nvmStatus then some (b2n s.fl.busy + 2 * b2n (s.fl.owner != .none) + 4 * s.fl.owner.code)
  else if a = R.nvmFctrl then some (rdN s R.nvmFctrl + 2 ^ 31 * b2n (swBusy s))
  else if a = R.nvmFstatus then some (rdN s R.nvmFstatus + b2n (swBusy s))
  else if a = R.mgtStatus then some (2 * b2n s.mgt.tripped + 4 * s.pushq.length + 256 * (s.mgt.fseq % 16))
  else if a = R.jnlStatus then
    some (rfld s R.jnlStatus 0 0 + 2 * b2n (s.fl.owner == .journal || s.fl.second) + 4 * b2n (s.fl.owner == .journal && s.fl.erasing) + 8 * s.jq.length)
  else if a = R.awlArm then some (4 * b2n (awl s (awlSel s)).cur.on)
  else if a = R.awlLeaseLeft then
    some (if (awl s (awlSel s)).cur.on then ((awl s (awlSel s)).cur.leaseEnd - now s) / 65536 else 0)
  else if a = R.rplResult then some (rdN s R.rplResult + b2n s.replay.isSome)
  else none

/-! ### 64-bit values (R82, R627) -/

/-- The high half that a read of this register latches, if it is the low half of a pair. -/
def latchedHalf (s : State) (a : Nat) : Option Nat :=
  if a = R.mtcNowLo then some (mtcN s / 2 ^ 32)
  else if a = R.telWindowLo then some (s.map.last / 2 ^ 32)
  else if 0xA0000 ≤ a ∧ a < 0xB0000 ∧ a % 0x100 = 8 then some ((str s ((a - 0xA0000) / 0x100)).base / 2 ^ 32)
  else none

/-- The register returns what its low half latched. -/
def isLatch (a : Nat) : Bool :=
  decide (a = R.mtcNowHi ∨ a = R.telWindowHi ∨ (0xA0000 ≤ a ∧ a < 0xB0000 ∧ a % 0x100 = 0xC))

/-- The latch of an access path behind a low half. -/
def latchKey (a : Nat) (p : Path) : Nat := a * 2 + (match p with | .mgt => 0 | .ctrl => 1)

/-! ### Reads -/

/-- The word at offset 28 of a ledger entry: partition and entry (R396). -/
def ledgerLast (a : Nat) : Option (Nat × Nat) :=
  if 0x1060000 ≤ a ∧ a < 0x1080000 ∧ a % 0x20 = 0x1C then some ((a - 0x1060000) / 0x2000, (a - 0x1060000) / 0x20 % 256) else none

/-- A ledger entry has been read. -/
def ledgerSeen (n e : Nat) (s : State) : State := modPar n (fun p => { p with unread := p.unread.filter (· != e) }) s

/-- A read of a register over an access path: its value and status (R13, R413, R450). -/
def regRead (p : Path) (a : Nat) (s : State) : State × Word × RStat :=
  match regKind a with
  | none => (s, 0, .unmapped)
  | some .absent => (s, 0, .ok)
  | some _ =>
    if isLatch a then (s, tget 0 (latchKey (a - 4) p) s.latches, .ok)
    else
      let v := match showReg s a with
        | some n => BitVec.ofNat 32 n
        | none => regGet s a
      let s := match latchedHalf s a with
        | some h => { s with latches := tset (latchKey a p) (BitVec.ofNat 32 h) s.latches }
        | none => s
      if isTblMem a ∧ s.eccBad.contains a then (tblEccHit 0xFF a false s, v, .ecc)
      else
        match ledgerLast a with
        | some (n, e) => (ledgerSeen n e s, v, .ok)
        | none => (s, v, .ok)

/-! ### Writes -/

/-- The path a write through management or CTRL takes. -/
def Via.path : Via → Path
  | .ctrl => .ctrl
  | _ => .mgt

/-- PRTn_CONFIG: clearing ENABLE takes the port down (Table 4.10). -/
def prtConfigWrite (l : List FieldR) (a n : Nat) (v : Word) (s : State) : State × RStat :=
  let was := rbit s a 0
  let r := rwWrite l a v s
  (if was && !rbit r.1 a 0 then portDisable n r.1 else r.1, r.2)

/-- TEL_CONFIG: setting ENABLE starts afresh (R524). -/
def telConfigWrite (l : List FieldR) (v : Word) (s : State) : State × RStat :=
  let was := telOn s
  let r := rwWrite l R.telConfig v s
  (if !was && telOn r.1 then telEnable r.1 else r.1, r.2)

/-- A write of 1 to bit 0 that starts something. -/
def go (v : Word) (f : State → State) (s : State) : State × RStat := (if wbit v 0 then f s else s, .ok)

/-- GLB_ENGINE_ID: the image sets it as boot does (R431, R432). -/
def idWrite (via : Via) (v : Word) (s : State) : State × RStat :=
  if via = .image then (setId (fld v 12 0) s, .ok) else engineIdWrite v s

/-- PARn_DOORBELL (R266). -/
def doorbellWrite (n : Nat) (v : Word) (s : State) : State × RStat :=
  let t := pkgUndo n true s
  (mgtStore n true v s, statOf (doorbellHeard t n && !doorbellOk t n v))

/-- NVM_FCTRL: its fields are stored, then GO acts (Table 16.12). -/
def fctrlWrite (v : Word) (s : State) : State × RStat :=
  let s := wr R.nvmFctrl (v &&& 0x000F01FF) s
  (if wbit v 31 then softwareGo s else s, .ok)

/-- Writes whose register acts: GLB, MTC and TBL. -/
def actWrite1 (via : Via) (a : Nat) (v : Word) (s : State) : State × RStat :=
  if a = R.glbEngineId then idWrite via v s
  else if a = R.glbReset then (resetWrite via.path v s, .ok)
  else if a = R.glbSeal then sealWrite via v s
  else if a = R.glbAdopt then (adoptWrite v s, .ok)
  else if a = R.glbBootCtrl then go v continueBoot s
  else if a = R.glbEventTail then tailWrite R.glbEventHead R.glbEventTail 256 v s
  else if a = R.glbCtrlSend then go v ctrlSend s
  else if a = R.glbCtrlRxTail then tailWrite R.glbCtrlRxHead R.glbCtrlRxTail 8 v s
  else if a = R.mtcSnap then (opMtcSnap s, .ok)
  else if a = R.tblFlipAtHi then flipArm v s
  else go v flipDisarm s

/-- Writes whose register acts: streams, partitions, flash, telemetry, replay, Awl. -/
def actWrite2 (via : Via) (a : Nat) (v : Word) (s : State) : State × RStat :=
  if 0xA0000 ≤ a ∧ a < 0xB0000 then strCmd ((a - 0xA0000) / 0x100) v s
  else if 0xC0000 ≤ a ∧ a < 0xD0000 then
    let n := (a - 0xC0000) / 0x1000
    (match a % 0x1000 with
    | 0x000 => doorbellWrite n v s
    | 0x080 => parResetWrite n v s
    | _ => parReplayWrite via n v s)
  else if a = R.nvmFctrl then fctrlWrite v s
  else if a = R.telSvySend then go v svySend s
  else if a = R.telSvyRxTail then tailWrite R.telSvyRxHead R.telSvyRxTail 32 v s
  else if a = R.rplTail then (rplTailWrite v s, statOf (rd (rplTailWrite v s) R.rplTail != v))
  else if a = R.rplRunCtrl then go v replayGo s
  else awlArmWrite v s

/-- A write to a register whose write is an action of its own. -/
def actWrite (via : Via) (a : Nat) (v : Word) (s : State) : State × RStat :=
  if 0x40000 ≤ a ∧ a < 0x60000 then
    let n := (a - 0x40000) / 0x1000
    if a % 0x1000 = 0x008 then (portCommand n (fld v 3 0) s, statOf (decide (¬ (1 ≤ fld v 3 0 ∧ fld v 3 0 ≤ 7))))
    else go v (portReset n) s
  else if a < 0x90000 then actWrite1 via a v s
  else actWrite2 via a v s

/-- An immediate write, with what some registers do beside storing it. -/
def plainWrite (l : List FieldR) (a : Nat) (v : Word) (s : State) : State × RStat :=
  if 0x40000 ≤ a ∧ a < 0x60000 ∧ a % 0x1000 = 4 then prtConfigWrite l a ((a - 0x40000) / 0x1000) v s
  else if a = R.telConfig then telConfigWrite l v s
  else if 0xC0000 ≤ a ∧ a < 0xD0000 ∧ a % 0x1000 = 0x38 then (mgtStore ((a - 0xC0000) / 0x1000) false v s, .ok)
  else rwWrite l a v s

/-- A write to a register under its access code and apply point (R8, R12–R14); registers of Table 15.7 are refused while
boot step 4 works on them (R461). -/
def regWrite (via : Via) (a : Nat) (v : Word) (s : State) : State × RStat :=
  match regKind a with
  | none => (s, .unmapped)
  | some k =>
    if via ≠ .image ∧ imageAddr a = true ∧ bootWriteOk s = false then (s, .refused)
    else
      match k with
      | .absent => (s, .refused)
      | .ro => (s, .refused)
      | .w1c m => (w1cWrite a m v s, .ok)
      | .counter => (counterWrite a v s, .ok)
      | .rw l => plainWrite l a v s
      | .rwb l => rwbWrite via l a v s
      | .rws l => rwsWrite l a v s
      | .rwn l => rwnWrite via l a v s
      | .fmt => fmtWrite via a v s
      | .table => if via = .image then (tblWrite a (v &&& tableMask a) s, .ok) else tableWrite a v s
      | .act _ => actWrite via a v s

/-! ### Commands -/

/-- The way of a write over an access path. -/
def viaOf : Path → Via
  | .mgt => .mgt
  | .ctrl => .ctrl

/-- REGISTER_WRITE (R8): a write over the management port or by a CTRL cell. -/
def execRegisterWrite (p : Path) (a : Nat) (v : Word) (s : State) : Host.Outcome State Fault Refusal :=
  run (fun s => (regWrite (viaOf p) a v s).1) s

/-- TABLE_WRITE: a management or CTRL write of a route or lace table word (R438, R461). -/
def execTableWrite (a : Nat) (v : Word) (s : State) : Host.Outcome State Fault Refusal :=
  run (whenB (isTableWord a) (fun s => (regWrite .mgt a v s).1)) s

/-- CONFIGURATION_SEAL (R454): a management or CTRL write of 1 to GLB_SEAL.SEALED, without effect in step 4 as R461 says. -/
def execConfigurationSeal (s : State) : Host.Outcome State Fault Refusal := run (whenB (bootWriteOk s) sealIt) s

/-- MTC_NOW_LO_READ (R82). -/
def execMtcNowLoRead (p : Path) (s : State) : Host.Outcome State Fault Refusal :=
  run (fun s => (regRead p R.mtcNowLo s).1) s

/-- STR_BASE_LO_READ (R627). -/
def execStrBaseLoRead (p : Path) (k : Nat) (s : State) : Host.Outcome State Fault Refusal :=
  run (whenB (decide (k < 256)) (fun s => (regRead p (R.strBaseLo k) s).1)) s

/-- TEL_WINDOW_LO_READ (R627). -/
def execTelWindowLoRead (p : Path) (s : State) : Host.Outcome State Fault Refusal :=
  run (fun s => (regRead p R.telWindowLo s).1) s

/-- LEDGER_READ (R396): the word at offset 28 of entry `e` of partition `n`. -/
def execLedgerRead (p : Path) (n e : Nat) (s : State) : Host.Outcome State Fault Refusal :=
  run (whenB (decide (n < 16 ∧ e < 256)) (fun s => (regRead p (R.ledgerWord n (8 * e + 7)) s).1)) s

end Sys2Proof.Machine
end

