-- ==== Sys2Proof/Machine/Image.lean ====
section
/-! DEFINITION. Loading an image: check 4 of a slot, its sections and records, the refusals of Table 15.8, and the fall to the next
candidate (Boot, Configuration Image and Journal, R467–R477). -/
namespace Sys2Proof.Machine

/-- Where loading stands: the state, and whether the SEAL section has asked for SEALED, which applies last (R474). -/
structure LoadS where
  s : State
  wantSeal : Bool := false
  deriving DecidableEq, Repr

/-- A refusal: failure code, section TYPE and flash address (R479). -/
structure LoadErr where
  code : Nat
  typ : Nat
  addr : Nat
  deriving DecidableEq, Repr

/-! ### Words (R472, R473, Table 15.8) -/

/-- A word holds a reserved encoding or sets a reserved field; user formats are tested by Table 10.5 instead (R477). -/
def imageBad (a : Nat) (v : Word) : Bool :=
  let reserved (m : Nat) : Bool := (v &&& ~~~(BitVec.ofNat 32 m)) != 0
  match regKind a with
  | some (.rw l) => fieldsBad l v || reserved (fieldsMask l)
  | some (.rwb l) => fieldsBad l v || reserved (fieldsMask l)
  | some (.rws l) => fieldsBad l v || reserved (fieldsMask l)
  | some (.rwn l) => fieldsBad l v || reserved (fieldsMask l)
  | some .table => reserved (tableMask a).toNat || (decide (a < 0x1040000) && wbit v 17)
  | some (.w1c m) => reserved m
  | some (.act m) => reserved m
  | _ => false

/-- One word of a register record. -/
def imageWord (a : Nat) (v : Word) (rec0 : Nat) (l : LoadS) : LoadS :=
  if a = R.glbSeal then { s := wbitAt R.glbSeal 1 (wbit v 1) l.s, wantSeal := l.wantSeal || wbit v 0 }
  else if a = R.parLaceRange ((a - 0xC0000) / 0x1000) then { l with s := wr a v l.s }
  else
    let s := (regWrite .image a v l.s).1
    { l with s := if regKind a = some .fmt then fmtRefused ((a - 0xE0000) / 4) rec0 s else s }

/-- The words of a register record in order: each lies in the section's set and holds values the register takes. -/
def imageWords (typ a rec0 : Nat) : List Word → LoadS → LoadS × Option LoadErr
  | [], l => (l, none)
  | v :: t, l =>
    if sectionOf a ≠ typ then (l, some { code := 8, typ := typ, addr := rec0 })
    else if imageBad a v then (l, some { code := 9, typ := typ, addr := rec0 })
    else imageWords typ (a + 4) rec0 t (imageWord a v rec0 l)

/-- The words of bytes, little-endian. -/
def wordsLE (n : Nat) (b : List Byte) : List Word := (List.range n).map (fun i => BitVec.ofNat 32 (fieldLE b (4 * i) 4))

/-! ### Records and sections (R471–R474) -/

/-- The Last region is the first 8 MiB of the staging store. -/
def lastBytes : Nat := 8 * 2 ^ 20

/-- The records of a section body `b` at flash address `a`; `left` records are still to come. -/
def imageRecords (typ : Nat) : Nat → Nat → Nat → List Byte → LoadS → LoadS × Option LoadErr
  | 0, left, a, b, l => (l, if left = 0 ∧ b.isEmpty = true then none else some { code := 7, typ := typ, addr := a })
  | k + 1, left, a, b, l =>
    let bad (c : Nat) : LoadS × Option LoadErr := (l, some { code := c, typ := typ, addr := a })
    if b.isEmpty then (if left = 0 then (l, none) else bad 7)
    else if left = 0 ∨ b.length < 8 then bad 7
    else
      let x := fieldLE b 0 4
      let n := fieldLE b 4 4
      if typ = 8 then
        if x % 4 ≠ 0 ∨ n % 4 ≠ 0 ∨ b.length < 8 + n then bad 7
        else if lastBytes < x + n then bad 8
        else imageRecords typ k (left - 1) (a + 8 + n) (b.drop (8 + n)) { l with s := storeWrite x (slice b 8 n) l.s }
      else if n = 0 ∨ 262144 < n ∨ b.length < 8 + 4 * n then bad 7
      else
        let r := imageWords typ x a (wordsLE n (b.drop 8)) l
        match r.2 with
        | some e => (r.1, some e)
        | none => imageRecords typ k (left - 1) (a + 8 + 4 * n) (b.drop (8 + 4 * n)) r.1

/-- The sections of an image from the bytes `b` at flash address `a`; `prev` is the TYPE of the section before. -/
def imageSections : Nat → Nat → Nat → List Byte → LoadS → LoadS × Option LoadErr
  | 0, _, a, b, l => (l, if b.isEmpty then none else some { code := 7, typ := 0, addr := a })
  | k + 1, prev, a, b, l =>
    if b.isEmpty then (l, none)
    else
      let typ := fieldLE b 0 2
      let len := fieldLE b 4 4
      let bad (c : Nat) : LoadS × Option LoadErr := (l, some { code := c, typ := typ % 256, addr := a })
      if b.length < 16 ∨ typ = 0 ∨ 11 < typ ∨ typ < prev ∨ (typ = prev ∧ typ ≠ 8) ∨ fieldLE b 2 2 ≠ 0 ∨ len % 4 ≠ 0 ∨ b.length < 16 + len
      then bad 7
      else
        let body := slice b 16 len
        if crc32c body ≠ fieldLE b 8 4 then bad 6
        else
          let r := imageRecords typ len (fieldLE b 12 4) (a + 16) body l
          match r.2 with
          | some e => (r.1, some e)
          | none => imageSections k typ (a + 16 + len) (b.drop (16 + len)) r.1

/-! ### The load (R469, R470, R474, R475) -/

/-- The slot in hand is abandoned (R475): the registers of Table 15.7 return to their reset values, the Last region is zeroed
again after PORST#, and the next candidate is tried. -/
def abandonSlot (reset : Bool) (rest : List Nat) (s : State) : State :=
  let s := if reset then
      let s := resetImageRegs true s
      if s.boot.fromCold then stgClear 0 lastBytes { s with stgBad := s.stgBad.filter (fun w => decide (lastBytes ≤ 8 * w)) } else s
    else s
  if rest.isEmpty then noSlot s else modBoot (fun b => { b with cands := some rest }) s

/-- The flash address of the header of section `typ` among the sections `b` at flash address `a`, or `d` where none is there. -/
def sectionAddr (typ d : Nat) : Nat → Nat → List Byte → Nat
  | 0, _, _ => d
  | k + 1, a, b =>
    if b.isEmpty then d
    else if fieldLE b 0 2 = typ then a
    else sectionAddr typ d k (a + 16 + fieldLE b 4 4) (b.drop (16 + fieldLE b 4 4))

/-- The sections of candidate `c` have been read. A cross-section test that fails names the header of its section (R479). -/
def loadSections (c : Nat) (rest : List Nat) (body : List Byte) (s : State) : State :=
  let base := slotBase c + 0x2000
  let r := imageSections body.length 0 (base + 256) body { s := s }
  match r.2 with
  | some e => abandonSlot true rest (bootFail e.code e.typ e.addr false r.1.s)
  | none =>
    let s := r.1.s
    let bad := crossFails (rd s)
    if bad.isEmpty then endStep4 c (fieldLE (slotHeader s c) 8 4) (if r.1.wantSeal then sealIt s else s)
    else abandonSlot true rest
      (forEach bad (fun e => bootFail e.1 e.2 (sectionAddr e.2 base body.length (base + 256) body) false) s)

/-- Load the first candidate: the verify read of check 4, with injection point 14, then its sections. -/
def imageLoad (c : Nat) (rest : List Nat) (s : State) : State :=
  let base := slotBase c + 0x2000
  let h := slotHeader s c
  let len := fieldLE h 12 4
  let s := bootPortFree (readFrame (base + 256) (len - 256) s)
  let body := flashRead s (base + 256) (len - 256)
  if crc32c body ≠ fieldLE h 16 4 then abandonSlot false rest (bootFail 5 0 base false s)
  else
    let f := awlFire 14 none none none s
    if f.2 then abandonSlot false rest (bootFail 5 0 base true f.1)
    else loadSections c rest body (readFrame (base + 256) (len - 256) f.1)

/-- The candidate about to be loaded, and those behind it. -/
def loadDue (s : State) : Option (Nat × List Nat) :=
  if bootStep s = 4 ∧ hostState s = false ∧ bootPort s = true then
    match s.boot.cands with
    | some (c :: t) => some (c, t)
    | _ => none
  else none

/-- IMAGE_LOAD (R474). -/
def execImageLoad (s : State) : Host.Outcome State Fault Refusal :=
  run (fun s => match loadDue s with
    | some (c, t) => imageLoad c t s
    | none => s) s

end Sys2Proof.Machine
end

