-- ==== Sys2Proof/Machine/Ctrl.lean ====
section
/-! DEFINITION. CTRL cells delivered to this engine: requests executed and answered, the replay cache, and responses stored
(Integrity, Faults and Spares, R415–R422). -/
namespace Sys2Proof.Machine

/-- The code of a register status (Table 13.7, Table 16.7). -/
def RStat.code : RStat → Nat
  | .ok => 0
  | .unmapped => 3
  | .refused => 4
  | .tblBusy => 5
  | .ecc => 6

/-! ### Requests (Table 13.5) -/

def ctrlOp (c : Cell) : Nat := fieldBE c.payload 8 1
def ctrlTag (c : Cell) : Nat := fieldBE c.payload 10 2
def ctrlCount (c : Cell) : Nat := fieldBE c.payload 13 1
def ctrlAddr (c : Cell) : Nat := fieldBE c.payload 24 4
def ctrlWord (c : Cell) (i : Nat) : Word := BitVec.ofNat 32 (fieldBE c.payload (28 + 4 * i) 4)

/-- The operation of a response to operation `op`; a reserved operation is answered by one nobody states (log entry 6). -/
def rspOp (op : Nat) (s : State) : State × Nat :=
  match op with
  | 1 => (s, 3)
  | 2 => (s, 4)
  | 5 => (s, 6)
  | _ =>
    let f := freeByte s
    (f.2, f.1.toNat)

/-- Bytes 0–7 of a response to a request with bytes 16–23 `ret` (R420). -/
def rspPath (ret : List Byte) : List Byte :=
  let h := (ret.getD 0 0).toNat
  if h.testBit 7 then bytesLE 1 (0x80 + h % 8) ++ slice ret 1 7 else bytesLE 8 0

/-- The response cell of a request (R415, R420). `ret` is bytes 16–23 of the request. -/
def rspCell (s : State) (c : Cell) (op status : Nat) (data : List Byte) (ret : List Byte) : Cell :=
  let b := rspPath ret ++ bytesLE 1 op ++ bytesLE 1 status ++ bytesBE 2 (ctrlTag c) ++ bytesLE 1 0 ++ bytesLE 1 (ctrlCount c)
    ++ bytesLE 1 (incarnation s) ++ bytesLE 1 0 ++ bytesLE 8 0 ++ bytesBE 4 (ctrlAddr c) ++ slice data 0 32
  mkCell (wSrc c) (ownId s) 2 9 0 0 0 (b ++ bytesBE 4 (crc32c b))

/-- Send a response in the current injection epoch: along the request's return path, or table-routed (R420). -/
def rspSend (c : Cell) (s : State) : State :=
  let c := setWelt 37 37 s.ep.inj c
  if isExplicit c then (pathSend 0xFF 0 false c s).1 else injectOwn c s

/-- A stored response as it is sent again (Table 13.8, R420): from the engine's own ID, by the return path of the request that
asks for it. -/
def rspAgain (s : State) (c : Cell) (e : CacheEnt) : Cell :=
  let b := rspPath (slice c.payload 16 8) ++ slice e.cell.payload 8 52
  mkCell (wSrc c) (ownId s) 2 9 0 0 0 (b ++ bytesBE 4 (crc32c b))

/-- Answer a request. -/
def ctrlRespond (c : Cell) (status : Nat) (data : List Byte) (s : State) : State × Cell :=
  let o := rspOp (ctrlOp c) s
  let r := rspCell o.1 c o.2 status data (slice c.payload 16 8)
  (rspSend r o.1, r)

/-- Answer a request and keep the response in the replay cache, in place of its oldest entry where it is full (R421). -/
def respondKeep (c : Cell) (status : Nat) (data : List Byte) (s : State) : State :=
  let r := ctrlRespond c status data s
  let e : CacheEnt := { src := wSrc c, tag := ctrlTag c, at_ := now s, cell := r.2 }
  let old := r.1.mgr.cache
  { r.1 with mgr := { r.1.mgr with cache := (if old.length < 16 then old else old.tail) ++ [e] } }

/-- The first of two statuses that is not OK. -/
def RStat.first (a b : RStat) : RStat := if a = .ok then b else a

/-- Read `n` words from `a` upward: the words as returned and the first status that is not OK (R419). -/
def readWords (p : Path) (a : Nat) : Nat → State → State × List Word × RStat
  | 0, s => (s, [], .ok)
  | n + 1, s =>
    let r := regRead p a s
    let t := readWords p (a + 4) n r.1
    (t.1, r.2.1 :: t.2.1, RStat.first r.2.2 t.2.2)

/-- The port a write of `v` to register `a` resets (R429). -/
def resetsPort (a : Nat) (v : Word) : Option Nat :=
  if (regKind a).any RegKind.writable && wbit v 0 && decide (0x40000 ≤ a ∧ a < 0x60000 ∧ a % 0x1000 = 0x40) then
    some ((a - 0x40000) / 0x1000)
  else none

/-- The writes of a request: a port reset among them is left to begin after the response (R419). -/
def ctrlWrites (a : Nat) : List Word → State → State × RStat × List Nat
  | [], s => (s, .ok, [])
  | v :: l, s =>
    match resetsPort a v with
    | some n =>
      let t := ctrlWrites (a + 4) l s
      (t.1, t.2.1, n :: t.2.2)
    | none =>
      let r := regWrite .ctrl a v s
      let t := ctrlWrites (a + 4) l r.1
      (t.1, RStat.first r.2 t.2.1, t.2.2)

/-- Execute a request (R419). -/
def ctrlExecute (c : Cell) (s : State) : State :=
  if ctrlOp c = 1 then
    let r := readWords .ctrl (ctrlAddr c) (ctrlCount c) s
    respondKeep c r.2.2.code (r.2.1.flatMap (fun w => bytesBE 4 w.toNat)) r.1
  else
    let r := ctrlWrites (ctrlAddr c) ((List.range (ctrlCount c)).map (ctrlWord c)) s
    forEach r.2.2 portReset (respondKeep c r.2.1.code [] r.1)

/-- A CTRL cell delivered from port `n` (Table 13.8). -/
def ctrlTake (n : Nat) (c : Cell) (s : State) : State :=
  let op := ctrlOp c
  if !payloadOk c then ev R.glbCtrlEvents 2 (cnt R.glbCtrlBadCount s)
  else if op = 0 ∨ 6 < op then (ctrlRespond c 2 [] s).1
  else if op = 3 ∨ op = 4 ∨ op = 6 then rxStore (R.glbCtrlRx 0 0) R.glbCtrlRxHead R.glbCtrlRxTail R.glbCtrlEvents 8 c s
  else if op = 5 then (ctrlRespond c 0 (slice c.payload 28 32) s).1
  else
    match s.mgr.cache.find? (fun e => e.src == wSrc c && e.tag == ctrlTag c) with
    | some e => rspSend (rspAgain s c e) s
    | none =>
      if !trusted s n c then respondKeep c 1 [] (ev R.glbCtrlEvents 3 s)
      else if ctrlCount c = 0 ∨ 8 < ctrlCount c ∨ ctrlAddr c % 4 ≠ 0 then (ctrlRespond c 2 [] s).1
      else ctrlExecute c s

/-- Take a CTRL cell of one of the given operations from port `n`. -/
def ctrlArrive (pick : Nat → Bool) (n : Nat) (b : List Byte) (s : State) : State :=
  takeCell n b (fun c => wType c == 9 && pick (ctrlOp c)) (ctrlTake n) s

/-- Replay cache entries whose time is over are removed (R421). -/
def cacheExpire (s : State) : State :=
  { s with mgr := { s.mgr with cache := s.mgr.cache.filter (fun e => decide (now s < e.at_ + 4 * retxWait s)) } }

/-! ### Commands -/

/-- REG_READ, and a CTRL cell of a reserved operation (R417, R419). -/
def execRegRead (n : Nat) (b : List Byte) (s : State) : Host.Outcome State Fault Refusal :=
  run (ctrlArrive (fun op => op == 1 || op == 0 || decide (6 < op)) n b) s

/-- REG_WRITE (R419). -/
def execRegWrite (n : Nat) (b : List Byte) (s : State) : Host.Outcome State Fault Refusal := run (ctrlArrive (· == 2) n b) s

/-- ECHO (R417). -/
def execEcho (n : Nat) (b : List Byte) (s : State) : Host.Outcome State Fault Refusal := run (ctrlArrive (· == 5) n b) s

/-- READ_RSP (R422). -/
def execReadRsp (n : Nat) (b : List Byte) (s : State) : Host.Outcome State Fault Refusal := run (ctrlArrive (· == 3) n b) s

/-- WRITE_RSP (R422). -/
def execWriteRsp (n : Nat) (b : List Byte) (s : State) : Host.Outcome State Fault Refusal := run (ctrlArrive (· == 4) n b) s

/-- ECHO_RSP (R422). -/
def execEchoRsp (n : Nat) (b : List Byte) (s : State) : Host.Outcome State Fault Refusal := run (ctrlArrive (· == 6) n b) s

/-- REPLAY_CACHE_EXPIRE (R421). -/
def execReplayCacheExpire (s : State) : Host.Outcome State Fault Refusal := run cacheExpire s

end Sys2Proof.Machine
end

