-- ==== Sys2Proof/Machine/Mgt.lean ====
section
/-! DEFINITION. The management port: frames and their replies, underruns, the chip-select watchdog, pushes as master, and the
end of a flash frame (Flash and Management Serial Ports, R490–R520). -/
namespace Sys2Proof.Machine

/-- Change the management port. -/
def modMgt (f : MgtS → MgtS) (s : State) : State := { s with mgt := f s.mgt }

/-! ### Frames (R503–R511) -/

/-- A frame has at least one bit. -/
def frameAny (f : Frame) : Bool := decide (0 < f.words.length ∨ 0 < f.bits ∧ f.bits < 32)

/-- It ended partway through a word (R511). -/
def frameCut (f : Frame) : Bool := decide (0 < f.bits ∧ f.bits < 32)

/-- Its command word: a partial one is used right-aligned (R511). -/
def frameCommand (f : Frame) : Nat :=
  match f.words with
  | w :: _ => w.toNat
  | [] => f.tail % 2 ^ f.bits

/-- OPCODE of the command word (R503). -/
def frameOpcode (f : Frame) : Nat := nbits (frameCommand f) 31 24

/-- The number of words is in the range of its opcode (Table 16.5, R506). -/
def frameSizeOk (f : Frame) : Bool :=
  let w := f.words.length
  decide (w ≤ 64) &&
    (if (frameOpcode f) = 0x10 ∨ (frameOpcode f) = 0x11 then decide (1 ≤ w) else if (frameOpcode f) = 0x12 then decide (2 ≤ w) else true)

/-- The status word, but for LOST and FRESH (Table 16.6). -/
def statusWord (s : State) (f : Frame) (count code : Nat) : Word :=
  BitVec.ofNat 32 (code + 2 ^ 8 * count + 2 ^ 17 * b2n (alertPin s) + 2 ^ 18 * b2n (frameCut f) + 2 ^ 20 * (s.mgt.fseq % 16)
    + 2 ^ 24 * (frameOpcode f))

/-- What MGT_MISO carries in a frame of `w` words: the reply, its status word with LOST and FRESH, and zeros (R508). -/
def misoWords (s : State) (w : Nat) : List Word :=
  let h := (s.mgt.reply.headD 0).toNat + 2 ^ 19 * b2n s.mgt.lost + 2 ^ 16 * b2n s.mgt.fresh
  (BitVec.ofNat 32 h :: s.mgt.reply.tail ++ List.replicate w 0).take w

/-- The reply goes out in a frame of `w` words (R508). -/
def sendReply (w : Nat) (s : State) : State :=
  let l := misoWords s w
  if w = 0 then s
  else emit (.mgt l) (modMgt (fun m => { m with lost := false, fresh := false, lastWord := l.getLastD 0 }) s)

/-- The frame is not executed: its reply is not ready, or point 15 says so (R510). -/
def underrun (w : Nat) (inj : Bool) (s : State) : State :=
  let s := emit (.mgt (List.replicate w s.mgt.lastWord)) (modMgt (fun m => { m with lost := true }) s)
  raise { i := 15, inj := inj } (evI R.mgtEvents 0 6 inj (cnt R.mgtUnderrunCount s))

/-- The watchdog trips (R512). -/
def watchdogTrip (inj : Bool) (s : State) : State :=
  let s := modMgt (fun m => { m with lost := true, tripped := true, idleFrom := now s }) s
  raise { i := 17, inj := inj } (evI R.mgtEvents 3 6 inj (cnt R.mgtWatchdogCount s))

/-- The status of a read or write in progress: words that completed OK, and the first status that is not OK. -/
structure Tally where
  count : Nat := 0
  first : RStat := .ok
  deriving DecidableEq, Repr

/-- One more word. -/
def Tally.add (t : Tally) (r : RStat) : Tally := { count := t.count + b2n (r == .ok), first := t.first.first r }

/-- Read `n` registers from `a` upward (R505). -/
def mgtReads (a : Nat) : Nat → Tally → State → State × List Word × Tally
  | 0, t, s => (s, [], t)
  | n + 1, t, s =>
    let r := if 0x4000000 ≤ a then (s, 0, RStat.unmapped) else regRead .mgt a s
    let q := mgtReads (a + 4) n (t.add r.2.2) r.1
    (q.1, r.2.1 :: q.2.1, q.2.2)

/-- Write words to registers from `a` upward (R505). -/
def mgtWrites (a : Nat) : List Word → Tally → State → State × Tally
  | [], t, s => (s, t)
  | v :: l, t, s =>
    let r := if 0x4000000 ≤ a then (s, RStat.unmapped) else regWrite .mgt a v s
    mgtWrites (a + 4) l (t.add r.2) r.1

/-- Hold the reply to a frame: its status word and data; it may not be ready before `late` ticks have passed (R507, R509). -/
def holdReply (f : Frame) (count code : Nat) (data : List Word) (late : Nat) (s : State) : State :=
  modMgt (fun m => { m with reply := statusWord s f count code :: data, wait := false, lateAt := now s + late }) s

/-- A direct read of `w` words at byte `a` of the window (R495, R496): at once with FLASH_BUSY, or through the flash port. -/
def windowRead (f : Frame) (a w : Nat) (s : State) : State :=
  if (1 ≤ bootStep s ∧ bootStep s ≤ 4 ∧ hostState s = false) ∨ s.fl.busy = true then
    holdReply f 0 7 (List.replicate w 0) 128 (ev R.nvmEvents 2 (cnt R.nvmWindowBusyCount s))
  else
    let n := min w ((0x4000000 - a) / 4)
    let code := if n < w then 3 else 0
    let s := holdReply f n code (List.replicate w 0) 128 s
    modMgt (fun m => { m with wait := true }) (modFl (fun x => { x with window := some (a, n) }) s)

/-- Execute a frame (Table 16.5, R504–R507). -/
def frameExecute (f : Frame) (s : State) : State :=
  let s := modMgt (fun m => { m with fseq := (m.fseq + 1) % 16 }) s
  let s := if (frameCut f) then ev R.mgtEvents 1 s else s
  let a := 4 * nbits (frameCommand f) 23 0
  let w := f.words.length
  if 64 < w then holdReply f 0 8 [] 0 s
  else if (frameOpcode f) ≤ 0x0F then holdReply f 0 0 [] 0 s
  else if 0x12 < (frameOpcode f) then holdReply f 0 2 [] 0 s
  else if !(frameSizeOk f) then holdReply f 0 8 [] 0 s
  else if (frameOpcode f) = 0x10 then
    let r := mgtReads a w {} s
    holdReply f r.2.2.count r.2.2.first.code r.2.1 (128 + 16 * w) r.1
  else if (frameOpcode f) = 0x11 then windowRead f a w s
  else
    let r := mgtWrites a f.words.tail {} s
    holdReply f r.2.count r.2.first.code [] (128 + 16 * w) r.1

/-- The port listens to an assertion: it is not tripped, or MGT_CS# has been high for 64 ticks since (R512). -/
def mgtListens (s : State) : Bool := !s.mgt.tripped || decide (s.mgt.idleFrom + 64 ≤ now s)

/-- MGT_CS# is released. -/
def mgtReleased (s : State) : State := modMgt (fun m => { m with idleFrom := now s }) s

/-- A frame from the assertion of MGT_CS# to its release, with points 15 and 17; a reply that is not ready is a genuine
underrun, no opportunity of point 15 (R561). -/
def mgtFrame (f : Frame) (s : State) : State :=
  if !mgtListens s then mgtReleased (modMgt (fun m => { m with lost := true }) s)
  else
    let s := modMgt (fun m => { m with tripped := false }) s
    let u := if s.mgt.wait then (s, false) else awlFire 15 none none none s
    let d := awlFire 17 none none none u.1
    let s := d.1
    if u.2 ∨ s.mgt.wait then
      let s := underrun f.words.length u.2 s
      mgtReleased (if d.2 then watchdogTrip true s else s)
    else if d.2 then mgtReleased (watchdogTrip true s)
    else mgtReleased (frameExecute f (sendReply f.words.length s))

/-- A frame whose opcode a row names. -/
def mgtOp (pick : Nat → Bool) (f : Frame) (s : State) : State := if (frameAny f) && pick (frameOpcode f) then mgtFrame f s else s

/-- UNDERRUN: a frame of `w` words asserted while the reply is not ready, or within the bound of R509. -/
def mgtUnderrun (w : Nat) (s : State) : State :=
  if mgtListens s ∧ (s.mgt.wait = true ∨ now s < s.mgt.lateAt) then
    mgtReleased (underrun w false (modMgt (fun m => { m with tripped := false }) s))
  else s

/-- CS_WATCHDOG: MGT_CS# has stayed asserted for 16,000,000 ticks, `w` words into a frame. -/
def mgtWatchdog (w : Nat) (s : State) : State :=
  if mgtListens s then
    let s := if s.mgt.wait then underrun w false s else sendReply w s
    watchdogTrip false s
  else s

/-! ### Pushes as master (R514–R518) -/

/-- A push may start (R515; a point's opportunities are only those of an enabled push, R559). -/
def pushDue (s : State) : Bool :=
  rbit s R.mgtConfig 0 && !s.pushq.isEmpty && decide (5 ≤ bootStep s) && !s.mgt.tripped
    && decide (s.mgt.idleFrom + 64 * rfld s R.mgtConfig 31 16 ≤ now s)

/-- A push frame as the engine sends it (Table 16.9); CRC-32C runs over words 0 to LEN in transmission order. -/
def pushFrame (r : PRec) : List Word :=
  let len := r.bytes.length / 4
  let h := BitVec.ofNat 32 (r.kind * 2 ^ 24 + len * 2 ^ 16 + r.pseq) :: recordWords r.bytes len
  h ++ [BitVec.ofNat 32 (crc32c (h.flatMap (fun w => bytesBE 4 w.toNat))), 0]

/-- A failed attempt: the third drops the record (R517). -/
def pushFail (s : State) : State :=
  match s.pushq with
  | [] => s
  | r :: t =>
    if r.tries = 2 then ev R.mgtEvents 5 (cnt R.mgtPushDropCount { s with pushq := t })
    else { s with pushq := { r with tries := r.tries + 1 } :: t }

/-- A multi-master fault (R518): `frame` where a frame of the board controller began before the revert. -/
def mmFault (frame inj : Bool) (s : State) : State :=
  let s := emit (.mgtCs false) (emit (.mgtCs true) s)
  let s := modMgt (fun m => { m with lost := m.lost || frame, idleFrom := now s }) s
  pushFail (raise { i := 16, inj := inj } (evI R.mgtEvents 2 6 inj (cnt R.mgtMmfaultCount s)))

/-- PUSH_ATTEMPT: the frame goes out and its last word is answered by `ack`. -/
def pushAttempt (ack : Word) (s : State) : State :=
  match s.pushq with
  | [] => s
  | r :: t =>
    let f := awlFire 16 none none none s
    if f.2 then mmFault false true f.1
    else
      let s := emit (.mgtCs false) (emit (.push (pushFrame r)) (emit (.mgtCs true) f.1))
      let s := modMgt (fun m => { m with idleFrom := now s }) s
      if ack.toNat = 0x5A5A0000 + r.pseq then cnt R.mgtPushCount { s with pushq := t } else pushFail s

/-! ### The end of a flash frame (R490) -/

/-- A window read's frame has ended: its bytes form the reply (R495). -/
def windowDone (s : State) : State :=
  match s.fl.window with
  | none => modFl (fun f => { f with owner := .none }) s
  | some (a, n) =>
    let d := flashRead s a (4 * n)
    let words := recordWords d n
    let s := modMgt (fun m => { m with wait := false, reply := m.reply.take 1 ++ words ++ m.reply.drop (1 + n) }) s
    modFl (fun f => { f with owner := .none, window := none }) s

/-- FLASH_FRAME_DONE: `data` is what the flash returned. -/
def flashFrameDone (data : List Byte) (s : State) : State :=
  match s.fl.owner with
  | .none => s
  | .boot => modFl (fun f => { f with owner := .none }) s
  | .window => windowDone s
  | .journal => jnlFrame data s
  | .software =>
    match s.fl.sw, s.fl.stopped with
    | some q, _ => swFrame q data s
    | none, some q => stoppedFrame q data s
    | none, none => modFl (fun f => { f with owner := .none }) s

/-! ### Commands -/

/-- FLASH_FRAME_DONE (R490). -/
def execFlashFrameDone (data : List Byte) (s : State) : Host.Outcome State Fault Refusal := run (flashFrameDone data) s

/-- NOP (R504). -/
def execNop (f : Frame) (s : State) : Host.Outcome State Fault Refusal := run (mgtOp (fun o => decide (o ≤ 0x0F)) f) s

/-- READ (R505). -/
def execRead (f : Frame) (s : State) : Host.Outcome State Fault Refusal := run (mgtOp (· == 0x10) f) s

/-- READ_WINDOW (R495). -/
def execReadWindow (f : Frame) (s : State) : Host.Outcome State Fault Refusal := run (mgtOp (· == 0x11) f) s

/-- WRITE (R505). -/
def execWrite (f : Frame) (s : State) : Host.Outcome State Fault Refusal := run (mgtOp (· == 0x12) f) s

/-- BAD_OP (R504). -/
def execBadOp (f : Frame) (s : State) : Host.Outcome State Fault Refusal := run (mgtOp (fun o => decide (0x12 < o)) f) s

/-- UNDERRUN (R510). -/
def execUnderrun (w : Nat) (s : State) : Host.Outcome State Fault Refusal := run (mgtUnderrun w) s

/-- CS_WATCHDOG (R512). -/
def execCsWatchdog (w : Nat) (s : State) : Host.Outcome State Fault Refusal := run (mgtWatchdog w) s

/-- PUSH_ATTEMPT (R515). -/
def execPushAttempt (ack : Word) (s : State) : Host.Outcome State Fault Refusal := run (whenB (pushDue s) (pushAttempt ack)) s

/-- MULTI_MASTER_FAULT (R518): in a push attempt; a genuine fault is no opportunity of point 16 (R561). -/
def execMultiMasterFault (frame : Bool) (s : State) : Host.Outcome State Fault Refusal :=
  run (whenB (pushDue s) (mmFault frame false)) s

end Sys2Proof.Machine
end

