-- ==== Sys2Proof/Machine/Tick.lean ====
section
/-! DEFINITION. One tick of CCLK: ticks of waiting, samples of the congestion map, machine time (log entry 2). -/
namespace Sys2Proof.Machine

/-- The bin of a VC0 standard depth (Table 17.2). -/
def depthBin (d : Nat) : Nat := if d = 0 then 0 else min 7 (d / 4 + 1)

/-- A list of counts with entry `i` one higher. -/
def bump : List Nat → Nat → List Nat
  | [], _ => []
  | x :: t, 0 => (x + 1) :: t
  | x :: t, i + 1 => x :: bump t i

/-- End-of-tick sampling of a port's queue depths for the congestion map (R523, R524). -/
def telSample (n : Nat) (s : State) : State :=
  let p := port s n
  modTel n (fun x =>
    { x with
      maxStd := max x.maxStd p.qVc0s.length
      maxRing := max x.maxRing (max p.qVc0r.length p.qVc1r.length)
      maxCirc := max x.maxCirc p.qCirc.length
      maxVc2 := max x.maxVc2 p.qVc2.length
      hist := bump x.hist (depthBin p.qVc0s.length)
      notActive := x.notActive || (p.st != .active) }) s

/-! ### Ticks of waiting -/

/-- It waits still: the run is at the same point and what it waits for is not there. -/
def WaitMark.still (s : State) : WaitMark → Bool
  | .window k rid j _ =>
    (match runOf s k rid with | some r => !r.ended && r.done == j | none => false)
      && (legsOf s k rid).any (fun g => decide (512 ≤ g.out.length))
  | .tag k rid j sl kind =>
    (match runOf s k rid with | some r => !r.ended && r.done == j | none => false) && !tagRoom s k sl kind
  | .copy =>
    (match s.copyBuf.find? (fun i => i.off.isSome) with
    | some i => usable s false 20 && !tagRoom s i.stream 16 .put
    | none => false)
  | .gate k rid a => (match runOf s k rid with | some r => !r.ended | none => false) && gated s k rid a
  | .slot k rid j =>
    (match runOf s k rid with | some r => !r.ended && r.nextShard == j | none => false) && (pickCombiner s 1).isNone

/-- Count a tick of it (R168, R237, R317, R372). -/
def WaitMark.count (w : WaitMark) (s : State) : State :=
  match w with
  | .window _ _ _ l => forEach (l.filter (fun p => decide (4 ≤ p ∧ p ≤ 30))) countWait s
  | .tag _ _ _ _ _ => cnt R.memTagWaitCount s
  | .copy => cnt R.memTagWaitCount s
  | .gate _ _ _ => ev R.cmbShdEvents 2 (cnt R.cmbShdGateWaitCount s)
  | .slot _ _ _ => ev R.cmbEvents 4 (cnt R.cmbSlotWaitCount s)

/-- The legs of a stream that wait for an earlier one (R379). -/
def legsWaiting (s : State) (k : Nat) : Nat := (str s k).legs.countP (fun g => !g.started && !legMay s k g)

/-- The ticks of waiting that this tick adds. -/
def countTicks (s : State) : State :=
  let s := countWaits { s with waits := s.waits.filter (fun w => w.still s) }
  let s := forEach s.waits WaitMark.count s
  let s := if (slotQueue s).isEmpty then s else ev R.cmbEvents 4 (cntBy R.cmbSlotWaitCount (slotQueue s).length s)
  forEach s.streams (fun x s => cntBy (R.strLegWaitCount x.1) (legsWaiting s x.1) s) s

/-- The values staged on the tick that ends wait with the others (R448). -/
def stagedOf (s : State) : Tbl Word := s.stagedNow.foldl (fun l e => tset e.1 e.2 l) s.staged

/-- One tick of CCLK ends and the next begins: the ticks of waiting and the samples of the congestion map close the old
one, machine time opens the new one. -/
def tick (s : State) : State :=
  let s := forEach (range 4 30) telSample (countTicks s)
  pkgRelease (tickTime { s with touch := [], tblOld := [], pkgWrote := [], staged := stagedOf s, stagedNow := [] })

/-- In cold reset no clock but the count of its own duration runs (R605). -/
def coldTick (s : State) : State := { s with t := { s.t with ticks := s.t.ticks + 1 } }

/-- What a step does where no command waits: one tick of CCLK passes (log entry 2). -/
def idle (s : State) : Host.Outcome State Fault Refusal := runPin (fun s => if s.rst.cold then coldTick s else tick s) s

/-- A pending correction acts on the next tick. -/
def steerDue (s : State) : Bool :=
  decide ((now s + 1) % 1024 = 0) && steers s && s.t.hold.isNone && s.t.jump == 0

/-- R63: the tick on which a pending correction adds or skips one increment. -/
def execSteerIncrement (s : State) : Host.Outcome State Fault Refusal := runT (whenB (steerDue s) tick) s

end Sys2Proof.Machine
end

