-- ==== Sys2Proof/Machine/Transmit.lean ====
section
/-! DEFINITION. What an output port sends at a cell boundary, the codewords its cells fill, and its control codewords (R94, R95,
R118, R120–R123, R165–R167). -/
namespace Sys2Proof.Machine

/-- The queue an output port takes its next cell from (R94, R166). -/
def pickQueue (p : Port) : Option QCls :=
  let vc0 := if p.qVc0s.isEmpty && p.qVc0r.isEmpty then none
    else if p.qVc0s.isEmpty then some QCls.vc0r
    else if p.qVc0r.isEmpty then some .vc0s
    else some (if p.nextRing then .vc0r else .vc0s)
  if !p.qVc3.isEmpty then some .vc3
  else if !p.qVc2.isEmpty then some .vc2
  else if !p.qCirc.isEmpty then some .circuit
  else if p.qVc1r.isEmpty then vc0
  else match vc0 with
    | none => some .vc1r
    | some q => some (if p.nextVc1 then .vc1r else q)

/-- Whose turn is next after a cell from queue `k` (R94, R166). -/
def turned (k : QCls) (p : Port) : Port :=
  match k with
  | .vc1r => { p with nextVc1 := false }
  | .vc0s => { p with nextVc1 := true, nextRing := true }
  | .vc0r => { p with nextVc1 := true, nextRing := false }
  | _ => p

/-- An IDLE_FILL cell (R95). -/
def idleCell (s : State) : Cell := { welt := mkWelt 0x1FFF (ownId s) 0 0 0 0 0 0 0 0 0, payload := List.replicate 64 0 }

/-- The port sends traffic, or IDLE_FILL only (Table 4.2, R123, R148, R150). -/
def sends (p : Port) : Bool := p.st == .active || (p.st == .align && p.ovlRun)

/-- A one-sided request's tail begins transmission: its retransmission timer starts (R237). -/
def tailSent (s : State) (c : Cell) (t : Tag) : Tag :=
  if (wType c = 4 ∨ wType c = 5 ∨ wType c = 7) ∧ osTail c ∧ wSrc c = ownId s ∧ t.stream = wStream c ∧ t.opn = osOpn c
      ∧ t.dest = wDest c then
    { t with due := some (now s + retxWait s) }
  else t

/-- What the beginning of a cell's transmission starts and ends (R237, R283, R400). -/
def cellBegun (c : Cell) (s : State) : State :=
  let s := { s with tags := s.tags.map (tailSent s c) }
  if wSrc c = ownId s then settleSends (cellSent c s) else s

/-- The cell stream of a port with `b` as its next slot: what is left of it after the codeword it may complete, and that
codeword. The stream starts anew with each cycle of 19 codewords, which are 160 cells (R118, R120). -/
def stream (n : Nat) (p : Port) (b : List Byte) : List Byte × List Out :=
  let l := p.txBuf ++ b
  if l.length < 640 then (l, [])
  else
    let pos := p.txCells * 76 / 640
    (l.drop 640, [.codeword n (cwHeader 0 pos ((76 - 640 * pos % 76) % 76)) (l.take 640)])

/-- Cell `b` begins transmission on port `n`. -/
def slotSend (n : Nat) (b : List Byte) (s : State) : State :=
  let r := stream n (port s n) b
  let s := modPort n (fun p => { p with txBuf := r.1 }) s
  { s with out := s.out ++ .cell n b :: r.2 }

/-- Port `n` sends its next cell, or IDLE_FILL. -/
def transmit (n : Nat) (s : State) : State :=
  let p := port s n
  let idle := slotSend n (cellWire (idleCell s)) s
  if p.st = .active ∨ p.st = .align then
    if sends p then
      match pickQueue p with
      | none => idle
      | some k =>
        match queue p k with
        | [] => idle
        | c :: rest =>
          let c := if k = .vc3 then syncStamp n c s else c
          let s := modPort n (fun p => turned k (putQueue k rest { p with traffic := if k = .vc3 then p.traffic else now s })) s
          let s := modTel n (fun x => { x with sent := x.sent + 1, circ := x.circ + b2n (k == .circuit) }) s
          cellBegun c (slotSend n (cellWire c) s)
    else idle
  else s

/-- The control codeword after 160 cells, 19 codewords of 640 bytes: a record that is due, an ALIGN record in ALIGN with
LITE = 0, or KEEP (R118, R121, R122). The end of one that carries an ACK, or a request that crosses the peer's, is the entry
to DOZE or SLEEP (R141, R142); the end of one that carries RETRAIN is the entry to TRAIN (R152). -/
def control (n : Nat) (s : State) : State :=
  let p := port s n
  let s := modPort n (fun p => { p with txCells := 0, txBuf := [], owed := p.owed.drop 1 }) s
  let e : Nat × Nat := match p.owed with
    | e :: _ => e
    | [] => if p.st = .align ∧ p.lite = false then (0x01, b2n p.accepted) else (0x02, 0)
  let s := emit (recordOut s n e.1 e.2) s
  if e.1 = 0x30 ∧ p.retrain = true then
    (let s := goTrain n s
     modPort n (fun q => { q with ovlHold := p.ovlOn }) s)
  else
    match p.lowNext with
    | some sleep => if p.st = .active ∧ [0x10, 0x11, 0x13, 0x14].contains e.1 = true then goLow n sleep s else s
    | none => s

/-- One cell boundary of port `n`. -/
def boundary (n : Nat) (s : State) : State :=
  let s := modPort n (fun p => { p with txCells := p.txCells + 1 }) (transmit n s)
  if 160 ≤ (port s n).txCells ∧ ((port s n).st = .active ∨ (port s n).st = .align) then control n s else s

/-- CELL_TRANSMIT: port `n` reaches a cell boundary (R94). -/
def execCellTransmit (n : Nat) (s : State) : Host.Outcome State Fault Refusal := run (whenB (serial n && ((port s n).st == .active || (port s n).st == .align)) (boundary n)) s

end Sys2Proof.Machine
end

