-- ==== Sys2Proof/Machine/Dispatch.lean ====
section
/-! DEFINITION. One arm per command of the opcode table: a direct call of its meaning. -/
namespace Sys2Proof.Machine

/-- The effect of a command on everything but the queue. -/
def exec (i : Instr) (s : State) : Host.Outcome State Fault Refusal :=
  match i with
  | .registerWrite p a v => Sys2Proof.Machine.execRegisterWrite p a v s
  | .stagedApply n => Sys2Proof.Machine.execStagedApply n s
  | .refLost => Sys2Proof.Machine.execRefLost s
  | .switchToLocalOsc => Sys2Proof.Machine.execSwitchToLocalOsc s
  | .refRestored => Sys2Proof.Machine.execRefRestored s
  | .rootPllLoss => Sys2Proof.Machine.execRootPllLoss s
  | .markEdge => Sys2Proof.Machine.execMarkEdge s
  | .markMiss => Sys2Proof.Machine.execMarkMiss s
  | .syncSend => Sys2Proof.Machine.execSyncSend s
  | .sync n b => Sys2Proof.Machine.execSync n b s
  | .steerIncrement => Sys2Proof.Machine.execSteerIncrement s
  | .holdEnd => Sys2Proof.Machine.execHoldEnd s
  | .modeConflictClear => Sys2Proof.Machine.execModeConflictClear s
  | .rootLost => Sys2Proof.Machine.execRootLost s
  | .rootSelfJoin => Sys2Proof.Machine.execRootSelfJoin s
  | .island => Sys2Proof.Machine.execIsland s
  | .launch k => Sys2Proof.Machine.execLaunch k s
  | .mtcNowLoRead p => Sys2Proof.Machine.execMtcNowLoRead p s
  | .strBaseLoRead p k => Sys2Proof.Machine.execStrBaseLoRead p k s
  | .telWindowLoRead p => Sys2Proof.Machine.execTelWindowLoRead p s
  | .mtcSnap => Sys2Proof.Machine.execMtcSnap s
  | .cellTransmit n => Sys2Proof.Machine.execCellTransmit n s
  | .idleFill n b => Sys2Proof.Machine.execIdleFill n b s
  | .dataCell n b => Sys2Proof.Machine.execDataCell n b s
  | .sealCell n b => Sys2Proof.Machine.execSealCell n b s
  | .chunkLanding src k seq => Sys2Proof.Machine.execChunkLanding src k seq s
  | .sendReceipt => Sys2Proof.Machine.execSendReceipt s
  | .transitCell n b => Sys2Proof.Machine.execTransitCell n b s
  | .multicastCell n b => Sys2Proof.Machine.execMulticastCell n b s
  | .codeword n ok corr h body => Sys2Proof.Machine.execCodeword n ok corr h body s
  | .portSeek n => Sys2Proof.Machine.execPortSeek n s
  | .beacon n w => Sys2Proof.Machine.execBeacon n w s
  | .trainComplete n lanes => Sys2Proof.Machine.execTrainComplete n lanes s
  | .trainFail n => Sys2Proof.Machine.execTrainFail n s
  | .align n b => Sys2Proof.Machine.execAlign n b s
  | .alignFail n => Sys2Proof.Machine.execAlignFail n s
  | .keep n b => Sys2Proof.Machine.execKeep n b s
  | .dozeReq n b => Sys2Proof.Machine.execDozeReq n b s
  | .dozeAck n b => Sys2Proof.Machine.execDozeAck n b s
  | .dozeNak n b => Sys2Proof.Machine.execDozeNak n b s
  | .sleepReq n b => Sys2Proof.Machine.execSleepReq n b s
  | .sleepAck n b => Sys2Proof.Machine.execSleepAck n b s
  | .sleepNak n b => Sys2Proof.Machine.execSleepNak n b s
  | .retrainRecord n b => Sys2Proof.Machine.execRetrainRecord n b s
  | .fenceCommand n => Sys2Proof.Machine.execFenceCommand n s
  | .unfenceCommand n => Sys2Proof.Machine.execUnfenceCommand n s
  | .dozeCommand n => Sys2Proof.Machine.execDozeCommand n s
  | .sleepCommand n => Sys2Proof.Machine.execSleepCommand n s
  | .resume n => Sys2Proof.Machine.execResume n s
  | .retrainCommand n => Sys2Proof.Machine.execRetrainCommand n s
  | .clearFault n => Sys2Proof.Machine.execClearFault n s
  | .portDisable n => Sys2Proof.Machine.execPortDisable n s
  | .idleDoze n => Sys2Proof.Machine.execIdleDoze n s
  | .wake n => Sys2Proof.Machine.execWake n s
  | .resumeTimeout n => Sys2Proof.Machine.execResumeTimeout n s
  | .overload n => Sys2Proof.Machine.execOverload n s
  | .overloadClear n => Sys2Proof.Machine.execOverloadClear n s
  | .overloadLockTimeout n => Sys2Proof.Machine.execOverloadLockTimeout n s
  | .overloadLong n => Sys2Proof.Machine.execOverloadLong n s
  | .portAlone n => Sys2Proof.Machine.execPortAlone n s
  | .linkLoss n => Sys2Proof.Machine.execLinkLoss n s
  | .accelReady n => Sys2Proof.Machine.execAccelReady n s
  | .accelReadyWithdrawn n => Sys2Proof.Machine.execAccelReadyWithdrawn n s
  | .injectionAdmit k => Sys2Proof.Machine.execInjectionAdmit k s
  | .heldCopyOffer => Sys2Proof.Machine.execHeldCopyOffer s
  | .holdExpired => Sys2Proof.Machine.execHoldExpired s
  | .notice n b => Sys2Proof.Machine.execNotice n b s
  | .noticeKeyExpire => Sys2Proof.Machine.execNoticeKeyExpire s
  | .openCircuit k idx => Sys2Proof.Machine.execOpenCircuit k idx s
  | .closeCircuit k idx => Sys2Proof.Machine.execCloseCircuit k idx s
  | .accessIssue k idx data => Sys2Proof.Machine.execAccessIssue k idx data s
  | .putData n b => Sys2Proof.Machine.execPutData n b s
  | .putTail n b => Sys2Proof.Machine.execPutTail n b s
  | .putCheckComplete n stream opn => Sys2Proof.Machine.execPutCheckComplete n stream opn s
  | .putLanded n stream opn => Sys2Proof.Machine.execPutLanded n stream opn s
  | .getReq n b => Sys2Proof.Machine.execGetReq n b s
  | .getReadDone n stream opn data => Sys2Proof.Machine.execGetReadDone n stream opn data s
  | .atomic n b => Sys2Proof.Machine.execAtomic n b s
  | .getRsp n b => Sys2Proof.Machine.execGetRsp n b s
  | .getRspData n b => Sys2Proof.Machine.execGetRspData n b s
  | .accessRetxTimeout stream opn => Sys2Proof.Machine.execAccessRetxTimeout stream opn s
  | .busyReissue stream opn => Sys2Proof.Machine.execBusyReissue stream opn s
  | .memTimeout stream opn => Sys2Proof.Machine.execMemTimeout stream opn s
  | .orderSkip n stream => Sys2Proof.Machine.execOrderSkip n stream s
  | .assemblySlotTimeout => Sys2Proof.Machine.execAssemblySlotTimeout s
  | .stagingBankGrant w err => Sys2Proof.Machine.execStagingBankGrant w err s
  | .pkgTransactionDone id failed => Sys2Proof.Machine.execPkgTransactionDone id failed s
  | .pkgTimeout id => Sys2Proof.Machine.execPkgTimeout id s
  | .pkgStagingAccess p write a len data => Sys2Proof.Machine.execPkgStagingAccess p write a len data s
  | .pkgRegisterWrite p a v => Sys2Proof.Machine.execPkgRegisterWrite p a v s
  | .doorbell n v => Sys2Proof.Machine.execDoorbell n v s
  | .requestTake n => Sys2Proof.Machine.execRequestTake n s
  | .descriptorRead n data => Sys2Proof.Machine.execDescriptorRead n data s
  | .streamAssign n => Sys2Proof.Machine.execStreamAssign n s
  | .lastHeaderRead k => Sys2Proof.Machine.execLastHeaderRead k s
  | .stageReserveGrant k => Sys2Proof.Machine.execStageReserveGrant k s
  | .stepRecordRead k => Sys2Proof.Machine.execStepRecordRead k s
  | .stepArm k => Sys2Proof.Machine.execStepArm k s
  | .stepEnd k => Sys2Proof.Machine.execEnd k s
  | .send k idx data => Sys2Proof.Machine.execSend k idx data s
  | .recv k idx => Sys2Proof.Machine.execRecv k idx s
  | .recvCombine k idx => Sys2Proof.Machine.execRecvCombine k idx s
  | .combineSend k idx => Sys2Proof.Machine.execCombineSend k idx s
  | .copy k idx data => Sys2Proof.Machine.execCopy k idx data s
  | .narrow k idx data => Sys2Proof.Machine.execNarrow k idx data s
  | .widen k idx data => Sys2Proof.Machine.execWiden k idx data s
  | .waitTime k idx => Sys2Proof.Machine.execWaitTime k idx s
  | .barrier k idx => Sys2Proof.Machine.execBarrier k idx s
  | .fence k idx => Sys2Proof.Machine.execFence k idx s
  | .shardUpdate k idx => Sys2Proof.Machine.execShardUpdate k idx s
  | .signal k idx data => Sys2Proof.Machine.execSignal k idx data s
  | .loop k => Sys2Proof.Machine.execLoop k s
  | .signalWordWrite n => Sys2Proof.Machine.execSignalWordWrite n s
  | .stagingBlockGrant k idx => Sys2Proof.Machine.execStagingBlockGrant k idx s
  | .stagingQuotaTimeout k idx => Sys2Proof.Machine.execStagingQuotaTimeout k idx s
  | .slotGrant => Sys2Proof.Machine.execSlotGrant s
  | .combinerOperation k idx j rank data => Sys2Proof.Machine.execCombinerOperation k idx j rank data s
  | .updateBlockRead k idx data => Sys2Proof.Machine.execUpdateBlockRead k idx data s
  | .shardChunkBegin k idx grad master mom => Sys2Proof.Machine.execShardChunkBegin k idx grad master mom s
  | .shardGateRelease k idx data => Sys2Proof.Machine.execShardGateRelease k idx data s
  | .deadlineExpiry k idx => Sys2Proof.Machine.execDeadlineExpiry k idx s
  | .timeout k idx => Sys2Proof.Machine.execTimeout k idx s
  | .retxTimer k dest seq data => Sys2Proof.Machine.execRetxTimer k dest seq data s
  | .retxExhausted k dest seq => Sys2Proof.Machine.execRetxExhausted k dest seq s
  | .landedRecordRelease => Sys2Proof.Machine.execLandedRecordRelease s
  | .legStart k dest => Sys2Proof.Machine.execLegStart k dest s
  | .receipt n b data => Sys2Proof.Machine.execReceipt n b data s
  | .scrub a err => Sys2Proof.Machine.execScrub a err s
  | .eventTailWrite v => Sys2Proof.Machine.execEventTailWrite v s
  | .regRead n b => Sys2Proof.Machine.execRegRead n b s
  | .regWrite n b => Sys2Proof.Machine.execRegWrite n b s
  | .echo n b => Sys2Proof.Machine.execEcho n b s
  | .readRsp n b => Sys2Proof.Machine.execReadRsp n b s
  | .writeRsp n b => Sys2Proof.Machine.execWriteRsp n b s
  | .echoRsp n b => Sys2Proof.Machine.execEchoRsp n b s
  | .ctrlSend => Sys2Proof.Machine.execCtrlSend s
  | .ctrlRxTailWrite v => Sys2Proof.Machine.execCtrlRxTailWrite v s
  | .replayCacheExpire => Sys2Proof.Machine.execReplayCacheExpire s
  | .warm p => Sys2Proof.Machine.execWarm p s
  | .reload p => Sys2Proof.Machine.execReload p s
  | .warmReset => Sys2Proof.Machine.execWarmReset s
  | .reloadStart => Sys2Proof.Machine.execReloadStart s
  | .quench k => Sys2Proof.Machine.execQuench k s
  | .quenchComplete k => Sys2Proof.Machine.execQuenchComplete k s
  | .partitionReset n discard => Sys2Proof.Machine.execPartitionReset n discard s
  | .release n => Sys2Proof.Machine.execRelease n s
  | .portReset n => Sys2Proof.Machine.execPortReset n s
  | .adoptOpen v => Sys2Proof.Machine.execAdoptOpen v s
  | .engineIdWrite v => Sys2Proof.Machine.execEngineIdWrite v s
  | .adoptionWindowClose => Sys2Proof.Machine.execAdoptionWindowClose s
  | .flipArm v => Sys2Proof.Machine.execFlipArm v s
  | .flipDisarm => Sys2Proof.Machine.execFlipDisarm s
  | .flip => Sys2Proof.Machine.execFlip s
  | .drainEnd => Sys2Proof.Machine.execDrainEnd s
  | .tableWrite a v => Sys2Proof.Machine.execTableWrite a v s
  | .configurationSeal => Sys2Proof.Machine.execConfigurationSeal s
  | .porst d => Sys2Proof.Machine.execPorst d s
  | .coldResetEnd => Sys2Proof.Machine.execColdResetEnd s
  | .porstRelease straps => Sys2Proof.Machine.execPorstRelease straps s
  | .pllLock losc => Sys2Proof.Machine.execPllLock losc s
  | .bootDescriptorRead x => Sys2Proof.Machine.execBootDescriptorRead x s
  | .journalScan => Sys2Proof.Machine.execJournalScan s
  | .slotCheck => Sys2Proof.Machine.execSlotCheck s
  | .imageLoad => Sys2Proof.Machine.execImageLoad s
  | .bootContinue => Sys2Proof.Machine.execContinue s
  | .bootPortLimit => Sys2Proof.Machine.execBootPortLimit s
  | .journalWrite rb => Sys2Proof.Machine.execJournalWrite rb s
  | .journalErase => Sys2Proof.Machine.execJournalErase s
  | .flashPortServe => Sys2Proof.Machine.execFlashPortServe s
  | .flashFrameDone data => Sys2Proof.Machine.execFlashFrameDone data s
  | .flashBusyTimeout => Sys2Proof.Machine.execFlashBusyTimeout s
  | .softwareSequence => Sys2Proof.Machine.execSoftwareSequence s
  | .nop f => Sys2Proof.Machine.execNop f s
  | .read f => Sys2Proof.Machine.execRead f s
  | .readWindow f => Sys2Proof.Machine.execReadWindow f s
  | .write f => Sys2Proof.Machine.execWrite f s
  | .badOp f => Sys2Proof.Machine.execBadOp f s
  | .underrun w => Sys2Proof.Machine.execUnderrun w s
  | .csWatchdog w => Sys2Proof.Machine.execCsWatchdog w s
  | .pushAttempt ack => Sys2Proof.Machine.execPushAttempt ack s
  | .multiMasterFault frame => Sys2Proof.Machine.execMultiMasterFault frame s
  | .mapWindowEnd => Sys2Proof.Machine.execMapWindowEnd s
  | .mapReq n b => Sys2Proof.Machine.execMapReq n b s
  | .mapRsp n b => Sys2Proof.Machine.execMapRsp n b s
  | .surveySend => Sys2Proof.Machine.execSurveySend s
  | .rplTailWrite t => Sys2Proof.Machine.execRplTailWrite t s
  | .dataCopy => Sys2Proof.Machine.execDataCopy s
  | .replayStart reads => Sys2Proof.Machine.execReplayStart reads s
  | .replayDone => Sys2Proof.Machine.execReplayDone s
  | .arm => Sys2Proof.Machine.execArm s
  | .disarm => Sys2Proof.Machine.execDisarm s
  | .leaseExpired pt => Sys2Proof.Machine.execLeaseExpired pt s
  | .warmPinAssert d => Sys2Proof.Machine.execWarmPinAssert d s
  | .warmPinRelease => Sys2Proof.Machine.execWarmPinRelease s
  | .supplyDip d vddio => Sys2Proof.Machine.execSupplyDip d vddio s
  | .thermalSample temp sensor => Sys2Proof.Machine.execThermalSample temp sensor s
  | .instructionUpdate op => Sys2Proof.Machine.execInstructionUpdate op s
  | .tapReset => Sys2Proof.Machine.execTapReset s
  | .awlTickOpportunity => Sys2Proof.Machine.execAwlTickOpportunity s
  | .svyRxTailWrite v => Sys2Proof.Machine.execSvyRxTailWrite v s
  | .ledgerRead p n e => Sys2Proof.Machine.execLedgerRead p n e s

end Sys2Proof.Machine
end

