-- ==== Sys2Proof/Safety.lean ====
section
/-! DEFINITION. What claims use: the invariant of the machine, and the plain conditions under which a command has its effect. -/
namespace Sys2Proof.Machine

/-- Both byte memories hold only bytes that differ from what an unlisted one reads as, at rising addresses, and no write
waits to be applied. -/
abbrev State.Inv (s : State) : Prop :=
  Memory.wf stgFill s.stg = true ∧ Memory.wf flashFill s.flash = true ∧ s.writes = []

/-- The engine is out of cold reset and between two commands. -/
abbrev State.Ready (s : State) : Prop := s.rst.cold = false ∧ s.writes = []

/-- No injection point is armed, before or after a write to AWL_ARM on this tick (R552). -/
abbrev State.Quiet (s : State) : Prop := ∀ e ∈ s.awl, e.2.cur.on = false ∧ e.2.old.on = false

/-- A cell arriving on port `n` (31: from the engine itself) as it is delivered to the engine's own endpoint, with the state
its arrival leaves; `none` where the receive checks end it or send it on. -/
def deliveredCell (n : Nat) (b : List Byte) (s : State) : Option (State × Cell) :=
  if n = 31 then
    match arriveLocal 31 b s with
    | (s1, some c) => some (s1, c)
    | _ => none
  else if rxOk s n b then
    match arrive n b s with
    | (s1, .endpoint, c) => some (s1, c)
    | _ => none
  else none

/-- The commands that may change machine time: MARK, SYNC and steering (R51, R54, R61, R63), and what resets the engine (R50). -/
def Instr.movesTime : Instr → Bool
  | .markEdge => true
  | .sync _ _ => true
  | .steerIncrement => true
  | .holdEnd => true
  | .rootPllLoss => true
  | .warmReset => true
  | .reloadStart => true
  | .porst _ => true
  | .coldResetEnd => true
  | .porstRelease _ => true
  | .pllLock _ => true
  | .warmPinAssert _ => true
  | .warmPinRelease => true
  | .supplyDip _ _ => true
  | .thermalSample _ _ => true
  | .instructionUpdate _ => true
  | .tapReset => true
  | _ => false

/-- The commands of the reset pins, the supplies, the root PLL and the test access port, which act in cold reset too. -/
def Instr.actsInReset : Instr → Bool
  | .porst _ => true
  | .coldResetEnd => true
  | .porstRelease _ => true
  | .pllLock _ => true
  | .warmPinAssert _ => true
  | .warmPinRelease => true
  | .supplyDip _ _ => true
  | .instructionUpdate _ => true
  | .tapReset => true
  | _ => false

/-- Commands that store no byte of the staging store or of the flash: those of machine time, of the switch's tables, of the injection
points, of latched reads and ring tails, of CTRL and SURVEY cells sent, and of the frames of the management port that write
no register. -/
def Instr.storesNothing : Instr → Bool
  | .refLost => true
  | .switchToLocalOsc => true
  | .refRestored => true
  | .markEdge => true
  | .markMiss => true
  | .syncSend => true
  | .steerIncrement => true
  | .holdEnd => true
  | .modeConflictClear => true
  | .rootLost => true
  | .rootSelfJoin => true
  | .island => true
  | .mtcNowLoRead _ => true
  | .strBaseLoRead _ _ => true
  | .telWindowLoRead _ => true
  | .ledgerRead _ _ _ => true
  | .mtcSnap => true
  | .noticeKeyExpire => true
  | .scrub _ _ => true
  | .eventTailWrite _ => true
  | .ctrlRxTailWrite _ => true
  | .svyRxTailWrite _ => true
  | .rplTailWrite _ => true
  | .ctrlSend => true
  | .surveySend => true
  | .replayCacheExpire => true
  | .warm _ => true
  | .reload _ => true
  | .release _ => true
  | .adoptOpen _ => true
  | .engineIdWrite _ => true
  | .adoptionWindowClose => true
  | .flipArm _ => true
  | .flipDisarm => true
  | .drainEnd => true
  | .tableWrite _ _ => true
  | .configurationSeal => true
  | .arm => true
  | .disarm => true
  | .leaseExpired _ => true
  | .mapWindowEnd => true
  | .softwareSequence => true
  | .flashPortServe => true
  | .nop _ => true
  | .badOp _ => true
  | .underrun _ => true
  | .csWatchdog _ => true
  | .pushAttempt _ => true
  | .multiMasterFault _ => true
  | .journalScan => true
  | .slotCheck => true
  | _ => false

end Sys2Proof.Machine
end

