-- ==== Sys2Proof/Certificates/Slice0/Obligations.lean ====
section
/-! DEFINITION. The statements for the provers: what the commands and the machine do, by the rules of spec/ each docstring names. -/
section
open Sys2Proof Sys2Proof.Machine

/-- A step with a command at the front of the queue is that command's effect on the state with the queue's rest. -/
def Obligations.StepRunsTheCommand : Prop := ∀ (c : Instr) (s : State) (rest : List Instr),
  step { s with pending := c :: rest } = exec c { s with pending := rest }

/-- After reset both memories are in canonical form and no write waits. -/
def Obligations.ResetHoldsTheInvariant : Prop := State.reset.Inv

/-- The canonical form of the memories is kept by every step: from any state that has it, whatever command is at the front
of the queue, and where none is. -/
def Obligations.EveryStepKeepsTheInvariant : Prop := ∀ s t : State, s.Inv → step s = .next t → t.Inv

/-- R51: every command of the table answers a next state, in every state; it leaves the queue alone, and machine time too
unless it is one of the commands of MARK, SYNC, steering and the resets. -/
def Obligations.CommandFrame : Prop := ∀ (i : Instr) (s : State),
  ∃ t, exec i s = .next t ∧ t.pending = s.pending ∧ t.writes = [] ∧ (Machine.Instr.movesTime i = false → t.t = s.t)

/-- Commands of machine time, of the tables, of the injection points, of latched reads, of ring tails and of management
frames that write no register store nothing: every byte of the staging store and of the flash reads as before. -/
def Obligations.CommandsThatStoreNothing : Prop := ∀ (i : Instr) (s t : State), s.writes = [] → Machine.Instr.storesNothing i = true →
  exec i s = .next t → (∀ a, stgGet t a = stgGet s a) ∧ ∀ a, flashGet t a = flashGet s a

/-- R604, R605: in cold reset no command but those of the reset pins, the supplies, the root PLL and the test access port
has an effect. -/
def Obligations.ColdResetHoldsStill : Prop := ∀ (i : Instr) (s : State), s.rst.cold = true → s.writes = [] →
  Machine.Instr.actsInReset i = false → exec i s = .next s

/-- R451: a write-1-to-clear write in the tick in which the engine sets the same bit leaves it set, whichever comes first; a
counter cleared on a tick on which it was incremented then reads the number of increments of that tick. -/
def Obligations.SameTickWrites : Prop := ∀ (s : State) (p : Path) a (v : Word), s.Ready → (imageAddr a = false ∨ bootWriteOk s = true) →
  (∀ m i, regKind a = some (.w1c m) → i < 32 →
    (∃ t, exec (.registerWrite p a v) (ev a i s) = .next t ∧ rbit t a i = true)
    ∧ (∃ t, exec (.registerWrite p a v) s = .next t ∧ rbit (ev a i t) a i = true))
  ∧ (∀ k, regKind a = some .counter → touched s (touchKey s a) = k → k ≤ (regGet s a).toNat →
    ∃ t, exec (.registerWrite p a 0xFFFFFFFF) s = .next t ∧ (regGet t a).toNat = k)
  ∧ (∀ k, touched (cntBy a k s) a = touched s a + k)

/-- R552: an accepted write of ARM, and a write of DISARM, take effect from the next tick: on the tick of the write the
selected point is seen as it was, and on any other tick as the write leaves it. -/
def Obligations.ArmActsFromTheNextTick : Prop := ∀ (s : State) i p, s.Ready → i = awlSel s → p = Machine.awl s i →
  (isSealed s = false ∨ rbit s R.glbSeal 1 = true) → bootStep s = 7 → ¬ ((fld p.mode 1 0 = 2 ∨ wbit p.mode 2 = true) ∧ p.at_ ≤ mtcN s) →
  (∃ t, exec .arm s = .next t ∧ awlSeen t (Machine.awl t i) = awlSeen s p
    ∧ ∀ u : State, u.awl = t.awl → now u ≠ now s → awlSeen u (Machine.awl u i) = armSettings s p)
  ∧ (∃ t, exec .disarm s = .next t ∧ awlSeen t (Machine.awl t i) = awlSeen s p
    ∧ ∀ u : State, u.awl = t.awl → now u ≠ now s → (awlSeen u (Machine.awl u i)).on = false)

/-- R46–R48, R56: the loss of REFCLK is declared and sets RACK_FALLBACK, the PLL moves to the local oscillator, and returns to
REFCLK when that is reported valid, not before 2²⁴ ticks have passed since the loss (log entry 42). R54–R57: an accepted MARK edge at the expected tick changes no machine time
and ends the run of missed MARKs; one 1 to 4 ticks early makes the MTC jump to the multiple of 2²⁴, one as late makes it
hold for as many ticks; in RACK_FALLBACK the first edge after the return to REFCLK ends it and any other is ignored; an
overdue one is counted, and the fourth in a row falls back. -/
def Obligations.ClockAndMarks : Prop :=
  (∀ s : State, s.Ready →
    (s.clk.lostAt = none → ∃ t, exec .refLost s = .next t ∧ rbit t R.clkStatus 3 = true ∧ rbit t R.clkStatus 1 = false
      ∧ rbit t R.clkEvents 0 = true ∧ t.clk.lostAt = some (now s) ∧ rbit t R.mtcStatus 3 = true)
    ∧ (s.clk.lostAt.isSome = true → rbit s R.clkConfig 0 = true →
      ∃ t, exec .switchToLocalOsc s = .next t ∧ rbit t R.clkStatus 2 = true ∧ rbit t R.clkStatus 3 = false)
    ∧ (∀ l, s.clk.lostAt = some l → l + 2 ^ 24 ≤ now s → ∃ t, exec .refRestored s = .next t
      ∧ rbit t R.clkStatus 1 = true ∧ rbit t R.clkStatus 2 = false ∧ rbit t R.clkStatus 3 = false ∧ rbit t R.clkEvents 1 = true
      ∧ t.clk.lostAt = none ∧ t.clk.refBack = true)
    ∧ (∀ l, s.clk.lostAt = some l → now s < l + 2 ^ 24 → exec .refRestored s = .next s))
  ∧
  (∀ s : State, s.Ready → appliesMark s = true →
    (rbit s R.mtcStatus 3 = false → s.clk.bigJump = 0 → mtcLow s = 0 →
      ∃ t, exec .markEdge s = .next t ∧ t.t.mtc = s.t.mtc ∧ t.clk.missRun = 0 ∧ t.clk.markSeen = true)
    ∧ (rbit s R.mtcStatus 3 = false → s.clk.bigJump = 0 → 0xFFFFFC ≤ mtcLow s →
      ∃ t, exec .markEdge s = .next t ∧ t.t.mtc = s.t.mtc + BitVec.ofNat 64 (0x1000000 - mtcLow s) ∧ t.clk.missRun = 0
        ∧ rbit t R.mtcEvents 3 = true)
    ∧ (rbit s R.mtcStatus 3 = false → s.clk.bigJump = 0 → 1 ≤ mtcLow s → mtcLow s ≤ 4 →
      ∃ t, exec .markEdge s = .next t ∧ t.t.mtc = s.t.mtc ∧ t.t.hold = some (mtcLow s) ∧ t.clk.missRun = 0)
    ∧ (rbit s R.mtcStatus 3 = true → s.clk.refBack = true →
      ∃ t, exec .markEdge s = .next t ∧ rbit t R.mtcStatus 3 = false ∧ t.clk.missRun = 0 ∧ t.clk.markSeen = true)
    ∧ (rbit s R.mtcStatus 3 = true → s.clk.refBack = false → exec .markEdge s = .next s)
    ∧ (4 < mtcLow s → mtcLow s < 0x800000 → s.clk.missFor ≠ mtcN s / 0x1000000 + 1 →
      ∃ t, exec .markMiss s = .next t ∧ t.clk.missCount = s.clk.missCount + 1 ∧ t.clk.missRun = s.clk.missRun + 1
        ∧ rbit t R.mtcEvents 5 = true ∧ (s.clk.missRun = 3 → rbit t R.mtcStatus 3 = true)))

/-- R51, R63: on a tick the MTC advances by 1, or keeps its value in a hold, or takes the jump decided for it; on the tick a
pending correction acts it advances by 2 or by nothing, and the correction moves by 1 toward 0; a hold with no ticks
left ends, and machine time does not change as it does. That a step with no command waiting is such a tick is the
model's choice (log entry 2). -/
def Obligations.Steering : Prop := ∀ s : State, s.Ready →
  (steerDue s = true → ∃ t, exec .steerIncrement s = .next t ∧ t.t.ticks = s.t.ticks + 1
    ∧ (0 < s.t.corr → t.t.mtc = s.t.mtc + 2 ∧ t.t.corr = s.t.corr - 1)
    ∧ (s.t.corr < 0 → t.t.mtc = s.t.mtc ∧ t.t.corr = s.t.corr + 1))
  ∧ (s.t.hold = some 0 → ∃ t, exec .holdEnd s = .next t ∧ t.t.hold = none ∧ t.t.mtc = s.t.mtc)
  ∧ (s.pending = [] → ∃ t, step s = .next t ∧ t.t.ticks = s.t.ticks + 1 ∧ t.pending = []
    ∧ (s.t.hold = none → s.t.jump = 0 → steerDue s = false → t.t.mtc = s.t.mtc + 1)
    ∧ (∀ k, s.t.hold = some (k + 1) → t.t.mtc = s.t.mtc ∧ t.t.hold = some k)
    ∧ (s.t.hold = none → s.t.jump ≠ 0 → t.t.mtc = s.t.mtc + BitVec.ofNat 64 s.t.jump ∧ t.t.jump = 0))

/-- R71, R75, R76, R631: conflicts and roots that are heard no more, and the ways of joining without a sample. R59, R60: on
a sync tick every ACTIVE fabric port with room in its VC3 queue queues one SYNC and its SEQ advances; a SYNC received on
a fabric port leaves its TX_TIME and its arrival to be echoed. -/
def Obligations.RootsJoiningAndSync : Prop :=
  (∀ s : State, s.Ready →
    (conflictOver s = true → ∃ t, exec .modeConflictClear s = .next t ∧ rbit t R.mtcStatus 7 = false ∧ t.roots.conflictAt = none)
    ∧ (syncPorts.any (offerOld s) = true →
      ∃ t, exec .rootLost s = .next t ∧ ∀ n ∈ syncPorts, offerOld s n = true → (port t n).offer = none)
    ∧ (selfJoinDue s = true → ∃ t, exec .rootSelfJoin s = .next t ∧ rbit t R.mtcStatus 0 = true)
    ∧ (islandDue s = true → ∃ t, exec .island s = .next t ∧ rbit t R.mtcStatus 0 = true ∧ rbit t R.mtcStatus 1 = true))
  ∧
  (∀ s : State, s.Ready →
    (now s % 16384 = 0 → ∃ t, exec .syncSend s = .next t ∧ ∀ n ∈ syncPorts, (port s n).st = .active → 0 < queueFree s n .vc3 →
      (port t n).seq = ((port s n).seq + 1) % 256 ∧ (port t n).qVc3.length = (port s n).qVc3.length + 1)
    ∧ (∀ n b c s1, n ∈ syncPorts → rxOk s n b = true → wType (parseCell b) = 8 → arrive n b s = (s1, .sync, c) →
      ∃ t, exec (.sync n b) s = .next t ∧ (port t n).echo = some (BitVec.ofNat 64 (fieldBE c.payload 0 8), s1.t.mtc)))

/-- R82–R84, R396, R627: a read of the low half of a 64-bit value latches its high half, for its access path alone; a write
to MTC_SNAP captures the whole MTC; reading the last word of a ledger entry counts the entry as read. -/
def Obligations.LatchedReads : Prop := ∀ s : State, s.Ready →
  (∀ p, ∃ t, exec (.mtcNowLoRead p) s = .next t ∧ t.t = s.t ∧ t.regs = s.regs
    ∧ (regRead p R.mtcNowLo s).2.1 = BitVec.ofNat 32 (mtcN s)
    ∧ (regRead p R.mtcNowHi t).2.1 = BitVec.ofNat 32 (mtcN s / 2 ^ 32)
    ∧ ∀ q, q ≠ p → (regRead q R.mtcNowHi t).2.1 = (regRead q R.mtcNowHi s).2.1)
  ∧ (∀ p k, k < 256 → ∃ t, exec (.strBaseLoRead p k) s = .next t ∧ t.regs = s.regs
    ∧ (regRead p (R.strBaseHi k) t).2.1 = BitVec.ofNat 32 ((str s k).base / 2 ^ 32)
    ∧ ∀ q, q ≠ p → (regRead q (R.strBaseHi k) t).2.1 = (regRead q (R.strBaseHi k) s).2.1)
  ∧ (∀ p, ∃ t, exec (.telWindowLoRead p) s = .next t ∧ t.regs = s.regs
    ∧ (regRead p R.telWindowHi t).2.1 = BitVec.ofNat 32 (s.map.last / 2 ^ 32)
    ∧ ∀ q, q ≠ p → (regRead q R.telWindowHi t).2.1 = (regRead q R.telWindowHi s).2.1)
  ∧ (∃ t, exec .mtcSnap s = .next t ∧ t.t = s.t ∧ rdN t R.mtcSnapLo + 2 ^ 32 * rdN t R.mtcSnapHi = mtcN s)
  ∧ (∀ p n e, n < 16 → e < 256 → R.ledgerWord n (8 * e + 7) ∉ s.eccBad →
    ∃ t, exec (.ledgerRead p n e) s = .next t ∧ t.regs = s.regs ∧ (par t n).unread = (par s n).unread.filter (· != e))

/-- R8, R12–R14: a write to no register, or to a read-only one, changes nothing; a write to an immediate register stores the
accepted fields of the value there and nowhere else; writing 1 to an event bit that was not set in this tick clears it.
R437, R438: a route or lace table word of an IDLE version takes the value written, with fresh check bits, a reserved VCC
apart, which leaves that field as it was; a write to a version in use leaves every register but the two that count it as it
was. -/
def Obligations.RegisterAndTableWrites : Prop :=
  (∀ (s : State) p a v, s.Ready → (imageAddr a = false ∨ bootWriteOk s = true) →
    ((regKind a = none ∨ regKind a = some .ro ∨ regKind a = some .absent) → exec (.registerWrite p a v) s = .next s)
    ∧ (∀ l, regKind a = some (.rw l) → (a < 0x40000 ∨ (0x60000 ≤ a ∧ a < 0x140000)) →
      ∃ t, exec (.registerWrite p a v) s = .next t ∧ rd t a = (applyFields l (rd s a) v).1 ∧ ∀ b, b ≠ a → rd t b = rd s b)
    ∧ (∀ m, regKind a = some (.w1c m) → touched s a = 0 →
      ∃ t, exec (.registerWrite p a v) s = .next t ∧ rd t a = rd s a &&& ~~~(v &&& BitVec.ofNat 32 m)
        ∧ ∀ b, b ≠ a → rd t b = rd s b))
  ∧
  (∀ (s : State) a v, s.Ready → isTableWord a = true → (imageAddr a = false ∨ bootWriteOk s = true) →
    (verNow s (versionOf a) = .idle → ∃ t, exec (.tableWrite a v) s = .next t ∧ rd t a = tableWord a (rd s a) v ∧ a ∉ t.eccBad
      ∧ (vccBad a v = true → rfld t a 17 16 = rfld s a 17 16) ∧ (vccBad a v = false → rd t a = v &&& tableMask a)
      ∧ ∀ b, b ≠ a → rd t b = rd s b)
    ∧ (verNow s (versionOf a) ≠ .idle → ∃ t, exec (.tableWrite a v) s = .next t ∧ rbit t R.tblFlipEvents 2 = true
      ∧ rdN t R.tblBusyCount = min (rdN s R.tblBusyCount + 1) 0xFFFFFFFF
      ∧ ∀ b, b ≠ R.tblFlipEvents → b ≠ R.tblBusyCount → rd t b = rd s b))

/-- R439, R441, R444: arming takes a flip tick at least 1,024 ticks ahead and not before the end of a drain, and no other;
disarming before the flip tick forgets it; the end of a drain leaves no version DRAINING. R442: on the flip tick the
injection epoch changes, the old version drains until F + TBL_DRAIN, and nothing is armed. -/
def Obligations.Flips : Prop :=
  (∀ (s : State) (v : Word), s.Ready →
    (∀ f, f = rdN s R.tblFlipAtLo + v.toNat * 2 ^ 32 → mtcN s + 1024 ≤ f → (s.ep.draining = false ∨ s.ep.drainEnd.toNat ≤ f) →
      ∃ t, exec (.flipArm v) s = .next t ∧ t.ep.armed = some (BitVec.ofNat 64 f) ∧ rd t R.tblFlipAtHi = v ∧ t.ep.inj = s.ep.inj)
    ∧ (∀ f, f = rdN s R.tblFlipAtLo + v.toNat * 2 ^ 32 → f < mtcN s + 1024 →
      ∃ t, exec (.flipArm v) s = .next t ∧ t.ep = s.ep ∧ rbit t R.tblFlipEvents 1 = true ∧ rd t R.tblFlipAtHi = v)
    ∧ (flipDue s = false → ∃ t, exec .flipDisarm s = .next t ∧ t.ep.armed = none ∧ t.regs = s.regs)
    ∧ (drainDue s = true → ∃ t, exec .drainEnd s = .next t ∧ t.ep.draining = false ∧ t.ep.inj = s.ep.inj
      ∧ rbit t R.tblFlipEvents 5 = true))
  ∧
  (∀ (s : State) (f : W64), s.Ready → s.ep.armed = some f → flipDue s = true →
    ∃ t, exec .flip s = .next t ∧ t.ep.inj = 1 - s.ep.inj ∧ t.ep.draining = true ∧ t.ep.drainF = f
      ∧ t.ep.drainEnd = f + BitVec.ofNat 64 (rfld s R.tblDrain 19 0) ∧ t.ep.armed = none
      ∧ t.ep.flips = (s.ep.flips + 1) % 256 ∧ t.ep.closed = s.ep.closed)

/-- R454, R456, R461: the seal sets SEALED, where boot step 4 does not refuse it, and from then on a write that would change a
Boot register changes nothing but the count and address of refusals. R263, R448: where no step of the partition lies
between launch and end, the staged values of its step-boundary registers apply, and no longer wait. -/
def Obligations.SealAndStagedValues : Prop :=
  (∀ s : State, s.Ready →
    (bootWriteOk s = true → ∃ t, exec .configurationSeal s = .next t ∧ rbit t R.glbSeal 0 = true
      ∧ ∀ b, b ≠ R.glbSeal → rd t b = rd s b)
    ∧ (bootWriteOk s = false → exec .configurationSeal s = .next s)
    ∧ (∀ p a v l, rbit s R.glbSeal 0 = true → regKind a = some (.rwb l) → (imageAddr a = false ∨ bootWriteOk s = true) →
      (applyFields l (rd s a) v).1 ≠ rd s a → wholeOk a (applyFields l (rd s a) v).1 = true → a ≠ R.glbSealRefusedAddr → a ≠ R.glbSealRefusedCount →
      ∃ t, exec (.registerWrite p a v) s = .next t ∧ rd t a = rd s a ∧ rdN t R.glbSealRefusedAddr = a % 2 ^ 32
        ∧ t.bootPend = s.bootPend))
  ∧
  (∀ (s : State) n a v, s.Ready → n < 16 → noSteps s n = true → s.staged = [(a, v)] →
    boundaryReg n a = true → ringReg n a = false → mapReg n a = false → a % 0x1000 ≠ 0x084 →
    ∃ t, exec (.stagedApply n) s = .next t ∧ rd t a = v ∧ t.staged = [] ∧ ∀ b, b ≠ a → rd t b = rd s b)

/-- R413, R414: the scrubber corrects a word with one wrong bit and counts it; a word with more becomes, and a word that was
uncorrectable stays, uncorrectable, is noted by its address and raises detector 3. R411, R422, R529, R531: a tail is
written where no more entries than the ring holds are left unread, and keeps its value otherwise. -/
def Obligations.ScrubbingAndTails : Prop :=
  (∀ (s : State) a err, s.Ready → isTblMem a = true →
    (a ∉ s.eccBad → err = 1 → ∃ t, exec (.scrub a err) s = .next t ∧ a ∉ t.eccBad
      ∧ rdN t R.glbTblEccCorrCount = min (rdN s R.glbTblEccCorrCount + 1) 0xFFFFFFFF ∧ rd t a = rd s a)
    ∧ (a ∉ s.eccBad → 2 ≤ err → ∃ t, exec (.scrub a err) s = .next t ∧ rdN t R.glbTblEccAddr = a
      ∧ rbit t R.glbAlertStatus 3 = true)
    ∧ (a ∈ s.eccBad → ∃ t, exec (.scrub a err) s = .next t ∧ rdN t R.glbTblEccAddr = a ∧ rbit t R.glbAlertStatus 3 = true))
  ∧
  (∀ (s : State) (v : Word), s.Ready →
    (((rd s R.glbEventHead - v).toNat ≤ 256 → ∃ t, exec (.eventTailWrite v) s = .next t ∧ rd t R.glbEventTail = v)
      ∧ (256 < (rd s R.glbEventHead - v).toNat → exec (.eventTailWrite v) s = .next s))
    ∧ (((rd s R.glbCtrlRxHead - v).toNat ≤ 8 → ∃ t, exec (.ctrlRxTailWrite v) s = .next t ∧ rd t R.glbCtrlRxTail = v)
      ∧ (8 < (rd s R.glbCtrlRxHead - v).toNat → exec (.ctrlRxTailWrite v) s = .next s))
    ∧ (((rd s R.telSvyRxHead - v).toNat ≤ 32 → ∃ t, exec (.svyRxTailWrite v) s = .next t ∧ rd t R.telSvyRxTail = v)
      ∧ (32 < (rd s R.telSvyRxHead - v).toNat → exec (.svyRxTailWrite v) s = .next s))
    ∧ (((rd s R.rplHead - v).toNat ≤ ringUnits s → ∃ t, exec (.rplTailWrite v) s = .next t ∧ rd t R.rplTail = v
        ∧ ∀ a, a ≠ R.rplTail → rd t a = rd s a)
      ∧ (ringUnits s < (rd s R.rplHead - v).toNat → exec (.rplTailWrite v) s = .next s)))

/-- R428–R432: RELEASE lets a partition that is not BUSY go; the adoption window opens for the engine named when every
stream is IDLE, and in it the ID is taken and the window closes; its time over, it closes by itself. -/
def Obligations.ReleaseAndAdoption : Prop := ∀ s : State, s.Ready →
  (∀ n, n < 16 → rbit s (R.parReset n) 9 = false → ∃ t, exec (.release n) s = .next t ∧ rbit t (R.parReset n) 8 = false)
  ∧ (∀ n, n < 16 → rbit s (R.parReset n) 9 = true → exec (.release n) s = .next s)
  ∧ (∀ v : Word, wbit v 31 = true → fld v 28 16 = ownId s → allIdle s = true →
    ∃ t, exec (.adoptOpen v) s = .next t ∧ rbit t R.glbAdopt 0 = true ∧ t.mgr.adoptAt = some (now s))
  ∧ (∀ v : Word, (bootStep s = 0 ∨ 4 < bootStep s) → rbit s R.glbAdopt 0 = true → fld v 12 0 ≠ 0x1FFF →
    (∀ n, n < 16 → ranks s n = 0) →
    ∃ t, exec (.engineIdWrite v) s = .next t ∧ ownId t = fld v 12 0 ∧ rbit t R.glbAdopt 0 = false ∧ rbit t R.glbAdopt 4 = true)
  ∧ (adoptDue s = true → ∃ t, exec .adoptionWindowClose s = .next t ∧ rbit t R.glbAdopt 0 = false ∧ t.mgr.adoptAt = none)

/-- R551, R553, R569, R557: arming in boot step 7 gives the selected point the settings of its registers from the next tick;
disarming, and the end of a lease from the next tick on (R563), take them away; a tick's opportunities are counted once. -/
def Obligations.InjectionPoints : Prop := ∀ s : State, s.Ready →
  (∀ p, p = Machine.awl s (awlSel s) → isSealed s = false → bootStep s = 7 →
    ¬ ((fld p.mode 1 0 = 2 ∨ wbit p.mode 2 = true) ∧ p.at_ ≤ mtcN s) →
    ∃ t, exec .arm s = .next t ∧ (Machine.awl t (awlSel s)).cur = armSettings s p ∧ (Machine.awl t (awlSel s)).wrote = some (now s))
  ∧ (∃ t, exec .disarm s = .next t ∧ (Machine.awl t (awlSel s)).cur.on = false)
  ∧ (∀ i, i ≤ 19 → leaseDue s i = true → ∃ t, exec (.leaseExpired i) s = .next t ∧ (Machine.awl t i).cur.on = false
    ∧ awlSeen t (Machine.awl t i) = awlSeen s (Machine.awl s i) ∧ rbit t R.awlEvents 3 = true
    ∧ ∀ u : State, u.awl = t.awl → now u ≠ now s → (awlSeen u (Machine.awl u i)).on = false)
  ∧ (s.Quiet → s.mgr.oppAt ≠ some (now s) → ∃ t, exec .awlTickOpportunity s = .next t ∧ t.mgr.oppAt = some (now s)
    ∧ t.regs = s.regs ∧ t.ports = s.ports)

/-- R127–R129, R135, R138: FENCE, UNFENCE, CLEAR_FAULT, RETRAIN and ENABLE 0 take a port where the spec says; a command its
state does not allow changes no port and sets the event bit that says so. -/
def Obligations.PortCommands : Prop := ∀ (s : State) n, s.Ready → n ≤ 30 →
  (∃ t, exec (.fenceCommand n) s = .next t ∧ (port t n).st = .fenced ∧ (port t n).reason = 1)
  ∧ ((port s n).st = .fenced → ∃ t, exec (.unfenceCommand n) s = .next t ∧ (port t n).st = .down)
  ∧ ((port s n).st ≠ .fenced → ∃ t, exec (.unfenceCommand n) s = .next t ∧ t.ports = s.ports ∧ rbit t (R.prtEvents n) 14 = true)
  ∧ ((port s n).st = .fault → ∃ t, exec (.clearFault n) s = .next t ∧ (port t n).st = .down ∧ (port t n).failRun = 0)
  ∧ ((port s n).st ≠ .fault → ∃ t, exec (.clearFault n) s = .next t ∧ t.ports = s.ports ∧ rbit t (R.prtEvents n) 14 = true)
  ∧ ((port s n).st = .active ∨ (serial n = true ∧ ((port s n).st = .align ∨ (port s n).st = .doze)) →
    ∃ t, exec (.retrainCommand n) s = .next t ∧ (port t n).st = .train ∧ ∀ m, m ≠ n → port t m = port s m)
  ∧ ((port s n).st ≠ .fenced → (port s n).st ≠ .fault →
    ∃ t, exec (.portDisable n) s = .next t ∧ (port t n).st = .down ∧ (port t n).reason = 1)
  ∧ ((port s n).st = .fenced ∨ (port s n).st = .fault →
    ∃ t, exec (.portDisable n) s = .next t ∧ t.ports = s.ports ∧ rbit t (R.prtConfig n) 0 = false)

/-- R127, R147, R153, R157, R632: what takes a port's link away. A lost link is DOWN and raises detector 4; the eighth
failure of training or ALIGN in a row is FAULT; the peer's RETRAIN record takes the port to TRAIN. R149, R151, R152: the
overload of an OPT port takes ACTIVE to ALIGN with LITE; when it lasts, or when no lock follows its end, RETRAIN is due in
the next control codeword, with which the port enters TRAIN; it leaves TRAIN only once the overload has cleared. -/
def Obligations.LosingTheLink : Prop :=
  (∀ (s : State) n, s.Ready →
    (serial n = true → (port s n).st ≠ .down → (port s n).st ≠ .fenced → (port s n).st ≠ .fault →
      ∃ t, exec (.linkLoss n) s = .next t ∧ (port t n).st = .down ∧ (port t n).reason = 9 ∧ rbit t R.glbAlertStatus 4 = true)
    ∧ (serial n = true → resumeOver s n = true →
      ∃ t, exec (.resumeTimeout n) s = .next t ∧ (port t n).st = .down ∧ rbit t R.glbAlertStatus 4 = true)
    ∧ (serial n = true → (port s n).st = .train → (port s n).ovlHold = false → (port s n).entered + 2 ^ 21 ≤ now s → (port s n).failRun < 7 →
      ∃ t, exec (.trainFail n) s = .next t ∧ (port t n).st = .down ∧ (port t n).reason = 12
        ∧ (port t n).failRun = (port s n).failRun + 1)
    ∧ (serial n = true → (port s n).st = .align → (port s n).lite = false → (port s n).entered + 16384 ≤ now s → 7 ≤ (port s n).failRun →
      ∃ t, exec (.alignFail n) s = .next t ∧ (port t n).st = .fault ∧ (port t n).reason = 7
        ∧ rbit t R.glbAlertStatus 4 = true)
    ∧ (∀ b, serial n = true → recordIs 0x30 b = true → ((port s n).st = .active ∨ (port s n).st = .align ∨ (port s n).st = .doze) →
      ∃ t, exec (.retrainRecord n b) s = .next t ∧ (port t n).st = .train ∧ ∀ m, m ≠ n → port t m = port s m)
    ∧ (n < 4 → ((port s n).st = .train ∨ (port s n).st = .active) →
      ∃ t, exec (.accelReadyWithdrawn n) s = .next t ∧ (port t n).st = .down ∧ (port t n).reason = 9)
    ∧ (n < 4 → (port s n).st ≠ .train → (port s n).st ≠ .active →
      ∃ t, exec (.accelReadyWithdrawn n) s = .next t ∧ (port t n).pkgReady = false ∧ (port t n).st = (port s n).st
        ∧ t.regs = s.regs ∧ ∀ m, m ≠ n → port t m = port s m))
  ∧
  (∀ (s : State) n, s.Ready →
    ((n = 29 ∨ n = 30) → (port s n).ovl = false → (port s n).st = .active →
      ∃ t, exec (.overload n) s = .next t ∧ (port t n).st = .align ∧ (port t n).lite = true ∧ (port t n).ovl = true
        ∧ (port t n).ovlAt = now s ∧ rbit t (R.prtEvents n) 11 = true ∧ ∀ m, m ≠ n → port t m = port s m)
    ∧ ((port s n).ovl = true → ∃ t, exec (.overloadClear n) s = .next t ∧ (port t n).ovl = false ∧ (port t n).ovlHold = false
        ∧ ((port s n).ovlOn = true → (port t n).ovlClear = now s) ∧ t.regs = s.regs ∧ ∀ m, m ≠ n → port t m = port s m)
    ∧ ((port s n).st = .align → (port s n).ovlRun = true → (port s n).ovlOn = false → (port s n).lock = false →
      (port s n).ovlClear + 2048 ≤ now s →
      ∃ t, exec (.overloadLockTimeout n) s = .next t ∧ (port t n).st = .align ∧ (port t n).owed = [(0x30, 0)]
        ∧ (port t n).retrain = true ∧ t.regs = s.regs ∧ ∀ m, m ≠ n → port t m = port s m)
    ∧ ((port s n).st = .align → (port s n).ovlRun = true → (port s n).ovlOn = true → (port s n).retrain = false →
      (port s n).ovlAt + 16384 < now s →
      ∃ t, exec (.overloadLong n) s = .next t ∧ (port t n).st = .align ∧ (port t n).owed = [(0x30, 0)]
        ∧ (port t n).retrain = true ∧ rbit t (R.prtEvents n) 12 = true ∧ ∀ m, m ≠ n → port t m = port s m)
    ∧ (∀ f l, serial n = true → (port s n).st = .align → (port s n).retrain = true → (port s n).owed = (0x30, f) :: l →
      159 ≤ (port s n).txCells → pickQueue (port s n) = none →
      ∃ t, exec (.cellTransmit n) s = .next t ∧ (port t n).st = .train ∧ (port t n).ovlHold = (port s n).ovlOn
        ∧ recordOut s n 0x30 f ∈ t.out))

/-- R126, R127, R130, R131, R138, R157: a port that may leave DOWN goes to SEEK with a new NONCE, or as a PKG port to TRAIN;
the fourth beacon in a row whose sender has heard this end takes it to TRAIN, led as R131 says; a FENCED peer's beacon
loses a link in training; 1,600,000 ticks in SEEK without a beacon are alone. R127, R134–R137, R157: the end of
training, the second of two identical ALIGN records, and KEEP records. -/
def Obligations.BringingAPortUp : Prop :=
  (∀ (s : State) n, s.Ready →
    (serial n = true → (port s n).st = .down → (port s n).entered + 1024 ≤ now s → mayLeave s n = true →
      ∃ t, exec (.portSeek n) s = .next t ∧ (port t n).st = .seek ∧ (port t n).entered = now s
        ∧ (port t n).nonce = Config.freeNonce s.free ∧ ∀ m, m ≠ n → port t m = port s m)
    ∧ (n < 4 → (port s n).st = .down → (port s n).entered + 1024 ≤ now s → mayLeave s n = true →
      ∃ t, exec (.accelReady n) s = .next t ∧ (port t n).st = .train ∧ (port t n).pkgReady = true
        ∧ ∀ m, m ≠ n → port t m = port s m)
    ∧ (∀ w : W64, serial n = true → (port s n).st = .seek → 3 ≤ (port s n).heard → beaconOk w = true → w.toNat.testBit 8 = false →
      w.toNat.testBit 9 = true → ¬ (nbits w.toNat 47 35 = ownId s ∧ nbits w.toNat 29 14 = (port s n).nonce.toNat) →
      ∃ t, exec (.beacon n w) s = .next t ∧ (port t n).st = .train ∧ (port t n).leader = leads s n w)
    ∧ (∀ w : W64, serial n = true → (port s n).st = .seek → 3 ≤ (port s n).heard → beaconOk w = true → w.toNat.testBit 8 = false →
      w.toNat.testBit 9 = true → nbits w.toNat 47 35 = ownId s → nbits w.toNat 29 14 = (port s n).nonce.toNat →
      ∃ t, exec (.beacon n w) s = .next t ∧ (port t n).st = .seek ∧ (port t n).nonce = Config.freeNonce s.free)
    ∧ (∀ w : W64, serial n = true → (port s n).st = .train → beaconOk w = true → w.toNat.testBit 8 = true →
      ∃ t, exec (.beacon n w) s = .next t ∧ (port t n).st = .down ∧ (port t n).reason = 5)
    ∧ (serial n = true → (port s n).st = .seek → (port s n).beaconSeen = false → (port s n).entered + 1600000 ≤ now s →
      ∃ t, exec (.portAlone n) s = .next t ∧ (port t n).alone = true ∧ (port t n).st = .seek ∧ ∀ m, m ≠ n → port t m = port s m))
  ∧
  (∀ (s : State) n, s.Ready →
    (∀ l, serial n = true → (port s n).st = .train → (port s n).ovlHold = false →
      ∃ t, exec (.trainComplete n l) s = .next t ∧ (port t n).st = .align ∧ (port t n).lite = false)
    ∧ (∀ l, n < 4 → (port s n).st = .train → (port s n).ovlHold = false →
      ∃ t, exec (.trainComplete n l) s = .next t ∧ (port t n).st = (if 8 < l then .fault else .active)
        ∧ (8 < l → (port t n).reason = 8))
    ∧ (∀ a b, serial n = true → (port s n).st = .align → (port s n).lite = false → recordIs 0x01 b = true →
      (port s n).alignRec = some a → sameRecord a b = true → 1 ≤ (port s n).alignRuns → alignCheck s n b = none → (lFlags b).testBit 0 = true →
      ∃ t, exec (.align n b) s = .next t ∧ (port t n).st = .active ∧ (port t n).failRun = 0
        ∧ rd t (R.prtPeer n) = BitVec.ofNat 32 (peerWord b))
    ∧ (∀ a b r, serial n = true → (port s n).st = .align → (port s n).lite = false → recordIs 0x01 b = true →
      (port s n).alignRec = some a → sameRecord a b = true → 1 ≤ (port s n).alignRuns → alignCheck s n b = some r →
      ∃ t, exec (.align n b) s = .next t ∧ (port t n).st = .fenced ∧ (port t n).reason = r ∧ rbit t R.glbAlertStatus 4 = true)
    ∧ (∀ b, serial n = true → recordIs 0x02 b = true → (port s n).st = .active →
      (lInc b ≠ rfld s (R.prtPeer n) 16 13 ∨ lKind b ≠ rfld s (R.prtPeer n) 23 22 ∨ lPort b ≠ rfld s (R.prtPeer n) 21 17) →
      ∃ t, exec (.keep n b) s = .next t ∧ (port t n).st = .down ∧ (port t n).reason = 10)
    ∧ (∀ b, serial n = true → recordIs 0x02 b = true → (port s n).st = .active → lInc b = rfld s (R.prtPeer n) 16 13 →
      lKind b = rfld s (R.prtPeer n) 23 22 → lPort b = rfld s (R.prtPeer n) 21 17 → lId b = rfld s (R.prtPeer n) 12 0 →
      exec (.keep n b) s = .next (recTaken n b s)))

/-- R140–R143: DOZE and SLEEP are asked for by a record in the next control codeword, answered by ACK or NAK, and entered on
the ACK; no other port and no memory changes. R144–R146: a resume from DOZE or SLEEP, by command or by the peer's WAKE,
sends one WAKE burst, counts once and takes the port to ALIGN with LITE, or to TRAIN, where the kept leader starts the training
frames. -/
def Obligations.LowPowerAndResuming : Prop :=
  (∀ (s : State) n (sl : Bool) b, s.Ready → serial n = true → (port s n).st = .active →
    ((port s n).req = .none → (port s n).lowNext = none → (sl = true → holdsCells s n = false) →
      ∃ t, exec (if sl then .sleepCommand n else .dozeCommand n) s = .next t ∧ (port t n).req = (if sl then .sleep else .doze)
        ∧ (port t n).owed = (port s n).owed ++ [(if sl then 0x13 else 0x10, 4)] ∧ t.regs = s.regs ∧ ∀ m, m ≠ n → port t m = port s m)
    ∧ ((port s n).req = .none → rbit s (R.prtConfig n) 1 = true → (port s n).lowNext = none →
      (port s n).traffic + rfld s (R.prtConfig n) 31 16 * 64 ≤ now s →
      ∃ t, exec (.idleDoze n) s = .next t ∧ (port t n).req = .doze ∧ (port t n).owed = (port s n).owed ++ [(0x10, 0)] ∧ t.regs = s.regs)
    ∧ (∀ nak, nak = (holdsCells s n || (!(lFlags b).testBit 2 && timeParent s n)) → (port s n).req = .none →
      recordIs (if sl then 0x13 else 0x10) b = true →
      ∃ t, exec (if sl then .sleepReq n b else .dozeReq n b) s = .next t
        ∧ (port t n).owed = (port s n).owed ++ [((if sl then 0x14 else 0x11) + (if nak then 1 else 0), 0)]
        ∧ (nak = false → (port t n).lowNext = some sl) ∧ t.regs = s.regs)
    ∧ ((port s n).req = (if sl then .sleep else .doze) → recordIs (if sl then 0x14 else 0x11) b = true →
      (sl = true ∨ queuedCells (port s n) = 0) →
      ∃ t, exec (if sl then .sleepAck n b else .dozeAck n b) s = .next t ∧ (port t n).st = (if sl then .sleep else .doze)
        ∧ (port t n).req = .none ∧ t.regs = s.regs ∧ ∀ m, m ≠ n → port t m = port s m)
    ∧ ((port s n).req = (if sl then .sleep else .doze) → recordIs (if sl then 0x15 else 0x12) b = true →
      ∃ t, exec (if sl then .sleepNak n b else .dozeNak n b) s = .next t ∧ (port t n).st = .active ∧ (port t n).req = .none
        ∧ rbit t (R.prtEvents n) 8 = true ∧ ∀ m, m ≠ n → port t m = port s m))
  ∧
  (∀ (s : State) n (remote : Bool), s.Ready → serial n = true →
    ((port s n).st = .doze ∨ (port s n).st = .sleep) →
    ∃ t, exec (if remote then .wake n else .resume n) s = .next t
      ∧ (port t n).st = (if (port s n).st = .doze then .align else .train) ∧ (port t n).resuming = true
      ∧ ((port s n).st = .doze → (port t n).lite = true)
      ∧ rbit t (R.prtEvents n) (if remote then 10 else 9) = true
      ∧ rdN t (R.prtResumeCount n) = min (rdN s (R.prtResumeCount n) + 1) 0xFFFFFFFF
      ∧ t.out = s.out ++ .wake n :: (if (port s n).st = .sleep ∧ (port s n).leader = true then [.training n] else []) ∧ t.stg = s.stg ∧ t.flash = s.flash ∧ ∀ m, m ≠ n → port t m = port s m)

/-- R118–R125: a correctable codeword with a good header delimits the cells of its body, or holds the link record it carries
with a good check, and counts what it corrected; one
the decoder cannot correct raises detector 5 and is counted in the run that ends in a link loss. -/
def Obligations.Codewords : Prop := ∀ (s : State) n ok corr h body, s.Ready → s.Quiet → serial n = true →
  ((port s n).st = .active ∨ (port s n).st = .align) → (port s n).ovlRun = false →
  (ok = true → headerGood (port s n) h = true →
    ∃ t, exec (.codeword n ok corr h body) s = .next t ∧ (port t n).pos = some (nbits h 17 13) ∧ (port t n).uncorrRun = 0
      ∧ rdN t (R.prtFecCorrCount n) = min (rdN s (R.prtFecCorrCount n) + corr) 0xFFFFFFFF
      ∧ (nbits h 19 18 = 0 → ∀ l, l = (cutCells 9 ((slice body 0 640).drop (nbits h 12 6))).1 →
        (port s n).part = none → (port t n).rx = (port s n).rx ++ l)
      ∧ (nbits h 19 18 ≠ 0 → (port t n).rx = (port s n).rx)
      ∧ (nbits h 19 18 ≠ 0 → recordGood (body.take 64) = true → (port t n).rxRec = some (body.take 64)) ∧ ∀ m, m ≠ n → port t m = port s m)
  ∧ (ok = false → (port s n).uncorrRun < 7 →
    ∃ t, exec (.codeword n ok corr h body) s = .next t ∧ (port t n).uncorrRun = (port s n).uncorrRun + 1
      ∧ rbit t R.glbAlertStatus 5 = true ∧ (port t n).rx = (port s n).rx ∧ ∀ m, m ≠ n → port t m = port s m)

/-- R89, R95, R97–R102 (Table 3.5): what the receive checks make of a cell that goes no further. Each failing cell is
counted at its port and raises its detector, and no queue of any port gains a cell. -/
def Obligations.ReceiveChecks : Prop := ∀ (s : State) n b c, s.Ready → s.Quiet → rxOk s n b = true → c = parseCell b →
  (hopOk b = false → ∃ t, exec (.transitCell n b) s = .next t
    ∧ rdN t (R.prtHopchkCount n) = min (rdN s (R.prtHopchkCount n) + 1) 0xFFFFFFFF ∧ rbit t (R.prtCellEvents n) 0 = true
    ∧ rbit t R.glbAlertStatus 0 = true ∧ ∀ m, queuedCells (port t m) = queuedCells (port s m))
  ∧ (hopOk b = true → wType c = 0 → ∃ t, exec (.idleFill n b) s = .next t ∧ t.regs = s.regs
    ∧ ∀ m, queuedCells (port t m) = queuedCells (port s m))
  ∧ (hopOk b = true → 12 ≤ wType c → ∃ t, exec (.transitCell n b) s = .next t
    ∧ rdN t (R.prtTypeRsvdCount n) = min (rdN s (R.prtTypeRsvdCount n) + 1) 0xFFFFFFFF ∧ rbit t R.glbAlertStatus 19 = true
    ∧ ∀ m, queuedCells (port t m) = queuedCells (port s m))
  ∧ (hopOk b = true → 0 < wType c → wType c < 12 → wType c ≠ 8 → weltOk c = false → ∃ t, exec (.transitCell n b) s = .next t
    ∧ rdN t (R.prtWeltBadCount n) = min (rdN s (R.prtWeltBadCount n) + 1) 0xFFFFFFFF ∧ rbit t R.glbAlertStatus 19 = true
    ∧ ∀ m, queuedCells (port t m) = queuedCells (port s m))
  ∧ (hopOk b = true → 0 < wType c → wType c < 12 → wType c ≠ 8 → weltOk c = true → wMcast c = false → wDest c ≠ 0x1FFF → wDest c ≠ ownId s →
    n ≠ 19 → n ≠ 20 → isExplicit c = false → verNow s (wEpoch c) = .idle → (∀ f, s.ep.armed = some f → mtcN s + 64 < f.toNat) →
    ∃ t, exec (.transitCell n b) s = .next t ∧ rdN t R.tblStaleCount = min (rdN s R.tblStaleCount + 1) 0xFFFFFFFF
    ∧ rbit t R.glbAlertStatus 7 = true ∧ ∀ m, queuedCells (port t m) = queuedCells (port s m))

/-- R163, R170, R171, R183, R190: a transit cell that passes the receive checks leaves by the primary port of its route
where that port is usable and its queue has room, with HOPS one higher; by its circuit's port where it matches one; it
is discarded and counted where no route is found, or where its deflections are used up. -/
def Obligations.TransitCells : Prop := ∀ (s s1 : State) n b c, s.Ready → rxOk s n b = true → arrive n b s = (s1, .transit, c) →
  s1.Quiet → isExplicit c = false → wVc c = 0 ∨ wVc c = 2 →
  (∀ e, (wType c ≠ 1 ∧ wType c ≠ 2 ∨ findCircuit s1 n (wStream c) 128 = none) → R.routeTbl (wEpoch c) (wDest c) ∉ s1.eccBad →
    routeOf (rdPrev s1 (R.routeTbl (wEpoch c) (wDest c))) = some e → e.ring = false → usable s1 true e.primary = true →
    (0 < queueFree s1 e.primary (tableQueue c) → (port s1 e.primary).st ≠ .doze →
      ∃ t, exec (.transitCell n b) s = .next t
        ∧ queue (port t e.primary) (tableQueue c) = queue (port s1 e.primary) (tableQueue c) ++ [setWelt 3 1 (wHops c + 1) c]
        ∧ t.regs = s1.regs ∧ ∀ m, m ≠ e.primary → port t m = port s1 m)
    ∧ (queueFree s1 e.primary (tableQueue c) = 0 → deflectMax s1 < wDefl c + 1 →
      ∃ t, exec (.transitCell n b) s = .next t ∧ t.ports = s1.ports ∧ rbit t R.glbAlertStatus 6 = true
        ∧ rdN t (R.prtDeflectDiscardCount e.primary) = min (rdN s1 (R.prtDeflectDiscardCount e.primary) + 1) 0xFFFFFFFF))
  ∧ ((wType c ≠ 1 ∧ wType c ≠ 2 ∨ findCircuit s1 n (wStream c) 128 = none) → R.routeTbl (wEpoch c) (wDest c) ∉ s1.eccBad →
    routeOf (rdPrev s1 (R.routeTbl (wEpoch c) (wDest c))) = none →
    ∃ t, exec (.transitCell n b) s = .next t ∧ t.ports = s1.ports
      ∧ rdN t R.tblNoRouteCount = min (rdN s1 R.tblNoRouteCount + 1) 0xFFFFFFFF ∧ rbit t R.glbAlertStatus 19 = true)
  ∧ (∀ i o, (wType c = 1 ∨ wType c = 2) → wMcast c = false → findCircuit s1 n (wStream c) 128 = some i → R.circuitTbl i ∉ s1.eccBad →
    o = fld (rdPrev s1 (R.circuitTbl i)) 13 9 → usable s1 true o = true → 0 < queueFree s1 o .circuit → (port s1 o).st ≠ .doze →
    ∃ t, exec (.transitCell n b) s = .next t ∧ (port t o).qCirc = (port s1 o).qCirc ++ [setWelt 3 1 (wHops c + 1) c]
      ∧ t.regs = s1.regs ∧ ∀ m, m ≠ o → port t m = port s1 m)

/-- R94, R95, R165, R166: at a cell boundary an ACTIVE port sends the cell at the head of the queue whose turn it is, with
its hop check computed then, and IDLE_FILL where nothing waits. R168, R209, R211, R214, R387: cells that wait at their
source, each tick of it counted at their port; held multicast copies; the list of NOTICE keys; receipts that are due. -/
def Obligations.SendingAndWaitingCells : Prop :=
  (∀ (s : State) n, s.Ready → serial n = true → (port s n).st = .active → (port s n).txCells < 159 →
    (pickQueue (port s n) = none → ∃ t, exec (.cellTransmit n) s = .next t
      ∧ t.out = s.out ++ .cell n (cellWire (idleCell s)) :: (stream n (port s n) (cellWire (idleCell s))).2
      ∧ (port t n).txCells = (port s n).txCells + 1 ∧ t.regs = s.regs ∧ ∀ m, m ≠ n → port t m = port s m)
    ∧ (∀ k c rest, pickQueue (port s n) = some k → k ≠ .vc3 → queue (port s n) k = c :: rest → wSrc c ≠ ownId s →
      ∃ t, exec (.cellTransmit n) s = .next t ∧ t.out = s.out ++ .cell n (cellWire c) :: (stream n (port s n) (cellWire c)).2
        ∧ queue (port t n) k = rest
        ∧ (port t n).txCells = (port s n).txCells + 1 ∧ t.regs = s.regs ∧ ∀ m, m ≠ n → port t m = port s m))
  ∧
  (∀ s : State, s.Ready →
    (∀ k w, (k ≠ 256 ∨ s.waiting.filter (fun v => v.stream == 256) = [w]) → firstWaiting s k = some w → w.mc = false → w.fresh = false →
      usable s false w.port = true → injectNeed w.ring w.cls ≤ queueFree s w.port w.cls → (port s w.port).st ≠ .doze →
      ∃ t, exec (.injectionAdmit k) s = .next t ∧ t.waiting = s.waiting.erase w
        ∧ queue (port t w.port) w.cls = queue (port s w.port) w.cls ++ [asQueued w.cls w.cell] ∧ t.regs = s.regs)
    ∧ (∀ w, s.waiting = [w] → w.mc = true → w.fresh = false → usable s false w.port = true → 0 < queueFree s w.port .vc0s →
      (port s w.port).st ≠ .doze → ∃ t, exec (.injectionAdmit w.stream) s = .next t ∧ t.waiting = []
        ∧ (port t w.port).qVc0s = (port s w.port).qVc0s ++ [w.cell] ∧ t.regs = s.regs)
    ∧ (∀ w, s.pending = [] → s.waiting = [w] → w.fresh = false → s.waits = [] → s.txns = [] → w.port ≤ 30 → ∃ t, step s = .next t ∧ t.waiting = [w]
      ∧ rdN t (R.prtInjectWaitCount w.port) = min (rdN s (R.prtInjectWaitCount w.port) + 1) 0xFFFFFFFF)
    ∧ (∀ h, s.hold = [h] → usable s true h.port = true → h.since < now s → 0 < queueFree s h.port .vc0s → (port s h.port).st ≠ .doze →
      ∃ t, exec .heldCopyOffer s = .next t ∧ t.hold = [] ∧ (port t h.port).qVc0s = (port s h.port).qVc0s ++ [h.cell] ∧ t.regs = s.regs)
    ∧ (∀ h, s.hold = [h] → h.since + laceHold s ≤ now s → (∀ w ∈ s.waiting, w.mc = false) →
      ∃ t, exec .holdExpired s = .next t ∧ t.hold = [] ∧ rdN t R.tblMcDropCount = min (rdN s R.tblMcDropCount + 1) 0xFFFFFFFF)
    ∧ (∃ t, exec .noticeKeyExpire s = .next t ∧ t.notices = s.notices.filter (fun k => decide (now s < k.added + 16384))
      ∧ t.regs = s.regs ∧ t.ports = s.ports)
    ∧ (∃ t, exec .sendReceipt s = .next t ∧ t.receipts = s.receipts.filter (fun r => decide (now s < r.1)))
    ∧ (∀ tick c, s.receipts = [(tick, c)] → tick ≤ now s → wDest (setWelt 37 37 s.ep.inj c) = ownId s →
      ∃ t, exec .sendReceipt s = .next t ∧ t.localQ = s.localQ ++ [setWelt 37 37 s.ep.inj c]))

/-- R200, R202, R198: a row or column multicast cell that fails its arrival test is discarded and counted; one that passes
is delivered where a receiving step expects its source, and is otherwise counted. R212–R217: a NOTICE is entered in the
loss record of the sending stream it names, and is otherwise counted as stale. -/
def Obligations.MulticastAndNotices : Prop :=
  (∀ (s s1 : State) n b c row, s.Ready → rxOk s n b = true → wMcast (parseCell b) = true →
    arrive n b s = (s1, .mcast, c) → (wDefl c = 1 ∨ wDefl c = 2) →
    row = (if wDefl c = 1 then decide (4 ≤ n ∧ n ≤ 18 ∧ peerId s1 n = wSrc c) else decide (21 ≤ n ∧ n ≤ 28 ∧ wHops c = 1)) →
    (row = false → ∃ t, exec (.multicastCell n b) s = .next t ∧ t.ports = s1.ports ∧ t.asms = s1.asms
      ∧ rdN t R.tblMcKindBadCount = min (rdN s1 R.tblMcKindBadCount + 1) 0xFFFFFFFF ∧ rbit t R.glbAlertStatus 19 = true)
    ∧ (row = true → (str s1 (wStream c)).runs.any (fun r => r.expects (wSrc c)) = false →
      ∃ t, exec (.multicastCell n b) s = .next t ∧ t.ports = s1.ports ∧ t.asms = s1.asms
        ∧ rdN t R.tblMcNoStepCount = min (rdN s1 R.tblMcNoStepCount + 1) 0xFFFFFFFF)
    ∧ (row = true → (str s1 (wStream c)).runs.any (fun r => r.expects (wSrc c)) = true → wType c = 1 →
      asmOf s1 c = none → blockFor s1 (wStream c) = true →
      ∃ t, exec (.multicastCell n b) s = .next t ∧ t.regs = s1.regs ∧ t.asms = s1.asms ++
        [{ dest := wDest c, src := wSrc c, stream := wStream c, seq := wSeq c, cells := [(wIndex c, c.payload)], vc1 := wVc c == 1
           mc := wMcast c }]))
  ∧
  (∀ (s s1 : State) n b c kind lace p, s.Ready → deliveredCell n b s = some (s1, c) → c = parseCell b →
    wType c = 11 → wMcast c = false →
    kind = nbits (c.payload.getD 0 0).toNat 2 0 → lace = fieldBE c.payload 2 2 % 1024 → p = nbits (c.payload.getD 4 0).toNat 4 0 →
    (noticeStream s1 (wStream c) (wSeq c) kind lace = none → ∃ t, exec (.notice n b) s = .next t
      ∧ rdN t R.tblNoticeStaleCount = min (rdN s1 R.tblNoticeStaleCount + 1) 0xFFFFFFFF ∧ rbit t R.tblMcEvents 4 = true
      ∧ t.streams = s1.streams)
    ∧ (∀ k, 1 ≤ (c.payload.getD 1 0).toNat → (c.payload.getD 1 0).toNat ≤ 4 → noticeStream s1 (wStream c) (wSeq c) kind lace = some k →
      ∃ t, exec (.notice n b) s = .next t ∧ rbit t (R.strBranchLossMap k) p = true
        ∧ rdN t (R.strBranchLossCount k) = min (rdN s1 (R.strBranchLossCount k) + 1) 0xFFFFFFFF
        ∧ t.ports = s1.ports))

/-- R106, R291, R292: the first cell of a chunk opens an assembly and takes a staging block; without one the cell is
discarded and counted, and a SEAL is answered; a later cell joins its assembly. -/
def Obligations.ChunkAssembly : Prop := ∀ (s s1 : State) n b c, s.Ready → deliveredCell n b s = some (s1, c) → c = parseCell b → wMcast c = false →
  (wType c = 1 → asmOf s1 c = none → blockFor s1 (wStream c) = true →
    ∃ t, exec (.dataCell n b) s = .next t ∧ str t (wStream c) = (str s1 (wStream c)).takeB
      ∧ t.asms = s1.asms ++
      [{ dest := wDest c, src := wSrc c, stream := wStream c, seq := wSeq c, cells := [(wIndex c, c.payload)], vc1 := wVc c == 1, mc := wMcast c }] ∧ t.regs = s1.regs ∧ t.ports = s1.ports)
  ∧ (wType c = 1 → asmOf s1 c = none → blockFor s1 (wStream c) = false →
    ∃ t, exec (.dataCell n b) s = .next t ∧ t.asms = s1.asms ∧ t.streams = s1.streams ∧ t.receipts = s1.receipts
      ∧ rdN t (R.strQuotaDiscardCount (wStream c)) = min (rdN s1 (R.strQuotaDiscardCount (wStream c)) + 1) 0xFFFFFFFF)
  ∧ (wType c = 2 → asmOf s1 c = none → blockFor s1 (wStream c) = true →
    ∃ t, exec (.sealCell n b) s = .next t ∧ str t (wStream c) = (str s1 (wStream c)).takeB
      ∧ t.asms = s1.asms ++
      [{ dest := wDest c, src := wSrc c, stream := wStream c, seq := wSeq c, sealP := some c.payload, vc1 := wVc c == 1, mc := wMcast c }] ∧ t.regs = s1.regs ∧ t.ports = s1.ports)
  ∧ (wType c = 2 → asmOf s1 c = none → blockFor s1 (wStream c) = false →
    ∃ t, exec (.sealCell n b) s = .next t ∧ t.asms = s1.asms ∧ t.receipts.length = s1.receipts.length + 1
      ∧ rdN t (R.strQuotaDiscardCount (wStream c)) = min (rdN s1 (R.strQuotaDiscardCount (wStream c)) + 1) 0xFFFFFFFF)
  ∧ (wType c = 1 → ∀ a, s1.asms = [a] → asmOf s1 c = some a → a.sealP = none →
    ∃ t, exec (.dataCell n b) s = .next t ∧ t.asms = [{ a with
      cells := tset (wIndex c) c.payload a.cells, vc1 := a.vc1 || wVc c == 1, mc := a.mc || wMcast c }] ∧ t.regs = s1.regs)

/-- R107, R384, R387 (Table 12.1): four ticks after its last cell a chunk is checked and classified. A chunk that fails its
check, one that has landed before, one no step takes and one a running step takes in time are each counted or noted, and
answered. -/
def Obligations.ChunkLandings : Prop := ∀ (s : State) src k seq a b, s.Ready → k < 256 →
  s.asms.find? (fun a => a.src == src && a.stream == k && a.seq == seq && a.checked s) = some a → a.sealP = some b → ∀ data, data = ((List.range 64).map (fun i => tget [] i a.cells)).flatten →
  (crc32c data ≠ sCheck b → ∃ t, exec (.chunkLanding src k seq) s = .next t ∧ t.asms = s.asms.filter (fun x => !x.same a)
    ∧ rdN t (R.strChkFailCount k) = min (rdN s (R.strChkFailCount k) + 1) 0xFFFFFFFF ∧ rbit t R.glbAlertStatus 1 = true
    ∧ t.receipts.length = s.receipts.length + 1 ∧ t.landed = s.landed)
  ∧ (∀ d, crc32c data = sCheck b → s.landed.find? (fun d => d.stream == k && d.src == src && d.step == sStep b && recHeld s d
      && d.entries.any (fun e => e.1 == seq && e.2 == crc32c data)) = some d →
    ∃ t, exec (.chunkLanding src k seq) s = .next t ∧ t.asms = s.asms.filter (fun x => !x.same a) ∧ t.landed = s.landed
    ∧ rdN t (R.strDupCount k) = min (rdN s (R.strDupCount k) + 1) 0xFFFFFFFF ∧ t.receipts.length = s.receipts.length + 1)
  ∧ (crc32c data = sCheck b → s.landed.find? (fun d => d.stream == k && d.src == src && d.step == sStep b && recHeld s d
      && d.entries.any (fun e => e.1 == seq && e.2 == crc32c data)) = none →
    closedFor (dropAsm a s) k a b = none → runFor (dropAsm a s) k a b = none →
    ∃ t, exec (.chunkLanding src k seq) s = .next t ∧ t.asms = s.asms.filter (fun x => !x.same a) ∧ t.landed = s.landed
      ∧ rbit t (R.strCollEvents k) 1 = true ∧ t.receipts.length = s.receipts.length + 1)
  ∧ (∀ r j d, s.Quiet → crc32c data = sCheck b → s.landed.find? (fun d => d.stream == k && d.src == src && d.step == sStep b && recHeld s d
      && d.entries.any (fun e => e.1 == seq && e.2 == crc32c data)) = none →
    closedFor (dropAsm a s) k a b = none → runFor (dropAsm a s) k a b = some (r, j) → sealOk (dropAsm a s) r a.src b = true →
    R.rankMap (str s k).part (sRank b) ∉ s.eccBad → rfld s (R.rankMap (str s k).part (sRank b)) 12 0 ≠ 0x1FFF →
    needRecord k a.src (str s k).req.step r (dropAsm a s) = some d →
    d.entries.any (fun e => e.1 == a.seq && e.2 != crc32c data) = false → mtcN s ≤ r.deadline →
    ∃ t, exec (.chunkLanding src k seq) s = .next t ∧ t.asms = s.asms.filter (fun x => !x.same a)
      ∧ (recordOf t k a.src r.rid).any (fun e => e.entries.contains (a.seq, crc32c data)) = true
      ∧ t.receipts.length = s.receipts.length + 1)

/-- R377, R383, R405: the deadline of a receiving step under WAIT fixes the limit of R405; the step that reaches that limit
with a position incomplete faults, which leaves its stream without steps; landed records are released once they have
been held their time. -/
def Obligations.DeadlinesAndTimeouts : Prop := ∀ (s : State) k idx r, s.Ready → s.Quiet →
  (runAt s k idx = some r → runOf s k r.rid = some r → r.receives = true → r.policy = 0 → noLandingDue s k = true →
    (r.expired = false → acting s r = true → r.deadline ≤ mtcN s →
      ∃ t, exec (.deadlineExpiry k idx) s = .next t ∧ t.regs = s.regs ∧ t.ports = s.ports
        ∧ t.streams = (modRun k r.rid (fun q => { q with expired := true, limit := r.deadline + 4 * retxWait s }) s).streams)
    ∧ (incomplete r = true → r.expired = true → r.limit ≤ mtcN s → (str s k).st = .running → (str s k).finished = false →
      ∃ t, exec (.timeout k idx) s = .next t ∧ (str t k).runs = [] ∧ ((str t k).st = .faulted ∨ (str t k).st = .idle)
        ∧ (∀ g ∈ t.tags, g.stream = k → g.copy.isSome = true) ∧ (∀ w ∈ t.waiting, w.stream ≠ k)))
  ∧ (∃ t, exec .landedRecordRelease s = .next t ∧ t.regs = s.regs ∧ t.ports = s.ports ∧ ∀ d, d ∈ t.landed ↔ d ∈ s.landed ∧
      ∀ c, (str s d.stream).closed.find? (fun c => c.run.rid == d.rid) = some c →
        now s < max c.due d.due ∨ noLandingDue s d.stream = false)

/-- R242–R244: the target of one-sided requests. A request cell whose source is not the neighbour of its port is refused and
counted; a PUT cell opens an assembly slot, a GET waits for its read, and a refused tail is answered on its port. -/
def Obligations.OneSidedRequests : Prop := ∀ (s s1 : State) n b c, s.Ready → deliveredCell n b s = some (s1, c) → c = parseCell b → wMcast c = false →
  (targetFrom s1 n c = false →
    (wType c = 4 → osTail c = false → ∃ t, exec (.putData n b) s = .next t ∧ t.slots = s1.slots
      ∧ rdN t R.memReqRefusedCount = min (rdN s1 R.memReqRefusedCount + 1) 0xFFFFFFFF)
    ∧ (wType c = 4 → osTail c = true → ∃ t, exec (.putTail n b) s = .next t ∧ t.slots = s1.slots
      ∧ rdN t R.memReqRefusedCount = min (rdN s1 R.memReqRefusedCount + 1) 0xFFFFFFFF)
    ∧ (wType c = 5 → ∃ t, exec (.getReq n b) s = .next t ∧ t.gets = s1.gets
      ∧ rdN t R.memReqRefusedCount = min (rdN s1 R.memReqRefusedCount + 1) 0xFFFFFFFF)
    ∧ (wType c = 7 → ∃ t, exec (.atomic n b) s = .next t ∧ t.slots = s1.slots ∧ t.stg = s.stg
      ∧ rdN t R.memReqRefusedCount = min (rdN s1 R.memReqRefusedCount + 1) 0xFFFFFFFF))
  ∧ (targetFrom s1 n c = true → wType c = 4 → osTail c = false → slotAt s1 n (wStream c) (osOpn c) = none → s1.slots.length < 128 →
    (putLost s1 n (wStream c) (osOpn c) = false ∨ wIndex c = 0) →
    ∃ t, exec (.putData n b) s = .next t ∧ t.regs = s1.regs ∧ t.slots = s1.slots ++
      [{ port := n, stream := wStream c, opn := osOpn c, cells := [(wIndex c, c.payload)], src := wSrc c, due := now s1 + 2 * retxWait s1 }])
  ∧ (∀ s2, targetFrom s1 n c = true → wType c = 4 → osTail c = true → slotAt s1 n (wStream c) (osOpn c) = none →
    targetTest n (wStream c) 4 (wSrc c) c.payload s1 = (s2, none) → s2.slots.length < 128 →
    putLost s2 n (wStream c) (osOpn c) = false →
    ∃ t, exec (.putTail n b) s = .next t ∧ t.regs = s2.regs ∧ t.slots = s2.slots ++
      [{ port := n, stream := wStream c, opn := osOpn c, tail := some c.payload, src := wSrc c, due := now s2 + 2 * retxWait s2 }])
  ∧ (∀ s2, targetFrom s1 n c = true → wType c = 5 → targetTest n (wStream c) 5 (wSrc c) c.payload s1 = (s2, none) →
    ∃ t, exec (.getReq n b) s = .next t ∧ t.regs = s2.regs ∧ t.gets = s2.gets ++
      [{ port := n, stream := wStream c, opn := osOpn c, src := wSrc c, addr := tAddr c.payload, len := tLen c.payload, pseq := tPseq c.payload, inj := tInj c.payload, part := tPart c.payload }])
  ∧ (∀ s2 e, targetFrom s1 n c = true → wType c = 5 → targetTest n (wStream c) 5 (wSrc c) c.payload s1 = (s2, some e) → e ≠ 5 →
    usable s2 false n = true → (port s2 n).st ≠ .doze → 0 < queueFree s2 n .vc0s →
    ∃ t, exec (.getReq n b) s = .next t ∧ t.gets = s2.gets ∧ (port t n).qVc0s.length = (port s2 n).qVc0s.length + 1)

/-- R244, R251: an ATOMIC that is next in order on a staging word writes the word its operation gives, and no other byte;
the order number moves on and the old word is kept. -/
def Obligations.Atomics : Prop := ∀ (s s1 s2 : State) n b c off o, s.Ready → deliveredCell n b s = some (s1, c) → c = parseCell b →
  wMcast c = false → wType c = 7 → targetFrom s1 n c = true → slotAt s1 n (wStream c) (osOpn c) = none →
  targetTest n (wStream c) 7 (wSrc c) c.payload s1 = (s2, none) → s2.Quiet → s2.slots = [] → s2.stgBad = [] →
  tPseq c.payload = (orderOf s2 n (wStream c)).expect → (orderOf s2 n (wStream c)).expect < 256 →
  placeOf s2 (offOf (tAddr c.payload)) 4 = .store off → o = natLE (stgRead s off 4) →
  ∃ t, exec (.atomic n b) s = .next t
    ∧ stgRead t off 4 = bytesLE 4 (atomicResult (tOp c.payload) o (tOperand c.payload) (tCompare c.payload))
    ∧ (∀ a, a < off ∨ off + 4 ≤ a → stgGet t a = stgGet s a) ∧ t.slots = []
    ∧ orderOf t n (wStream c) = { expect := ((orderOf s2 n (wStream c)).expect + 1) % 256, old := o }

/-- R243–R247: a PUT whose data is whole is checked on the fourth tick, and lands where it is next in order: its bytes are
written and no others; one that fails its check is dropped and raises detector 1; a later one is held. Its landing done,
the order number moves on. A held access whose time is over is given up to; slots without a tail go, and are counted.
R243: slots that have no tail 2 × RETX_WAIT after their first cell are dropped, and counted. R231: when the reads of a
GET are done its data and its tail are queued on the port it came by. -/
def Obligations.PutLanding : Prop :=
  (∀ (s : State) n k opn (x : Slot) b, s.Ready → s.Quiet → 4 ≤ n → n ≤ 20 → k < 256 →
    s.slots = [x] → x.port = n → x.stream = k → x.opn = opn → x.tail = some b →
    (∀ t0 data, x.st = .checking → x.fullAt = some t0 → t0 + 4 ≤ now s → tOp b = 0 →
      data = ((List.range (tLen b / 64)).map (fun i => tget [] i x.cells)).flatten →
      (crc32c data ≠ tCheck b → ∃ t, exec (.putCheckComplete n k opn) s = .next t ∧ t.slots = [] ∧ t.stg = s.stg
        ∧ rbit t R.glbAlertStatus 1 = true)
      ∧ (∀ off, crc32c data = tCheck b → tPseq b = (orderOf s n k).expect → (orderOf s n k).expect < 256 →
        placeOf s (offOf (tAddr b)) (tLen b) = .store off → data.length = tLen b →
        ∃ t, exec (.putCheckComplete n k opn) s = .next t ∧ t.slots = [{ x with st := .landing }]
          ∧ (∀ i, i < tLen b → stgGet t (off + i) = data.getD i 0)
          ∧ (∀ a, a < off ∨ off + tLen b ≤ a → stgGet t a = stgGet s a) ∧ t.regs = s.regs)
      ∧ (crc32c data = tCheck b → (tPseq b + 256 - (orderOf s n k).expect) % 256 ≠ 0 → (tPseq b + 256 - (orderOf s n k).expect) % 256 ≤ 63 →
        ∃ t, exec (.putCheckComplete n k opn) s = .next t ∧ t.slots = [{ x with st := .held, skip := now s + 4 * retxWait s }]
          ∧ t.stg = s.stg ∧ t.regs = s.regs))
    ∧ (x.st = .landing → s.txns.any (fun g => g.owner == .put n k opn) = false →
      ∃ t, exec (.putLanded n k opn) s = .next t ∧ t.slots = [] ∧ t.stg = s.stg
        ∧ (orderOf t n k).expect = ((orderOf s n k).expect + 1) % 256)
    ∧ (∀ off, x.st = .held → x.skip ≤ now s → tOp b = 0 → placeOf s (offOf (tAddr b)) (tLen b) = .store off →
      ∃ t, exec (.orderSkip n k) s = .next t ∧ t.slots = [{ x with st := .landing }] ∧ (orderOf t n k).expect = tPseq b
        ∧ rdN t R.memOrderSkipCount = min (rdN s R.memOrderSkipCount + 1) 0xFFFFFFFF))
  ∧
  (∀ s : State, s.Ready → s.Quiet →
    (∃ t, exec .assemblySlotTimeout s = .next t ∧ t.slots = s.slots.filter (fun x => !(x.tail.isNone && decide (x.due ≤ now s)))
      ∧ rdN t R.memReqRefusedCount = min (rdN s R.memReqRefusedCount
          + s.slots.countP (fun x => x.tail.isNone && decide (x.due ≤ now s))) 0xFFFFFFFF ∧ t.stg = s.stg)
    ∧ (∀ n k opn data g off, s.gets = [g] → g.port = n → g.stream = k → g.opn = opn → placeOf s (offOf g.addr) g.len = .store off →
      s.stgBad = [] → usable s false n = true → (port s n).st ≠ .doze → g.len / 64 < queueFree s n .vc0s →
      ∃ t, exec (.getReadDone n k opn data) s = .next t ∧ t.gets = []
        ∧ (port t n).qVc0s.length = (port s n).qVc0s.length + g.len / 64 + 1 ∧ t.stg = s.stg))

/-- R239–R241, R260: answers at the initiator. One that names no access is stale and counted; DONE ends a PUT or ATOMIC,
BUSY makes it wait. From the first data cell of a GET on its destination, and nothing else, is open, and DONE with the
check of the data received makes it hold that data. -/
def Obligations.Responses : Prop := ∀ (s s1 : State) n b c, s.Ready → deliveredCell n b s = some (s1, c) → c = parseCell b → wMcast c = false →
  wType c = 6 →
  (tagOf s1 (wStream c) (osOpn c) = none →
    ∃ t, exec (if osTail c then .getRsp n b else .getRspData n b) s = .next t ∧ t.tags = s1.tags ∧ t.streams = s1.streams
      ∧ rdN t R.memStaleRspCount = min (rdN s1 R.memStaleRspCount + 1) 0xFFFFFFFF ∧ rbit t R.memEvents 3 = true)
  ∧ (∀ g : Tag, tagOf s1 (wStream c) (osOpn c) = some g → n = g.port → wSrc c = g.dest →
    fieldBE c.payload 12 1 % 16 = rfld s1 (R.prtPeer n) 16 13 →
    (osTail c = true → fieldBE c.payload 0 1 = 0 → g.kind ≠ .get →
      ∃ t, exec (.getRsp n b) s = .next t ∧ tagOf t (wStream c) (osOpn c) = none)
    ∧ (osTail c = true → fieldBE c.payload 0 1 = 5 →
      ∃ t, exec (.getRsp n b) s = .next t ∧ tagOf t (wStream c) (osOpn c) = some { g with busyAt := some (now s1) })
    ∧ (∀ off, osTail c = false → g.kind = .get → 64 * wIndex c + 64 ≤ g.len → placeOf s1 (offOf g.loc) g.len = .store off →
      placeOf s1 (offOf (g.loc + 64 * wIndex c)) 64 = .store (off + 64 * wIndex c) → c.payload.length = 64 →
      ∃ t, exec (.getRspData n b) s = .next t
        ∧ tagOf t (wStream c) (osOpn c) = some { g with rx := tset (wIndex c) c.payload g.rx }
        ∧ ∀ a, a < off ∨ off + g.len ≤ a → stgGet t a = stgGet s a)
    ∧ (∀ off r got, osTail c = true → fieldBE c.payload 0 1 = 0 → g.kind = .get → g.copy = none →
      got = (List.range (g.len / 64)).map (fun i => tget [] i g.rx) → got.all (fun x => x.length == 64) = true →
      crc32c got.flatten = fieldBE c.payload 4 4 → placeOf s1 (offOf g.loc) g.len = .store off →
      runOf s1 g.stream g.rid = some r → r.op = 2 → r.kind = 4 → r.cap = none → r.completed + 1 < r.rc.length →
      ∃ t, exec (.getRsp n b) s = .next t ∧ tagOf t (wStream c) (osOpn c) = none
        ∧ (runOf t g.stream g.rid).map (fun q => q.completed) = some (r.completed + 1)
        ∧ (∀ i, i < got.flatten.length → stgGet t (off + i) = got.flatten.getD i 0)
        ∧ ∀ a, a < off ∨ off + got.flatten.length ≤ a → stgGet t a = stgGet s a))

/-- R237, R239: an access of a BOARD-kind RECV takes a tag where the limits leave room and is noted as waiting where they do
not; its timer re-issues it with one more retry, counted, a BUSY answer re-issues it without one, and at its limit it
ends. -/
def Obligations.AccessTags : Prop := ∀ (s : State) k, s.Ready → s.Quiet → k < 256 →
  (∀ idx r p loc a, runAt s k idx = some r → runOf s k r.rid = some r → acting s r = true → isolated s k = false → r.op = 2 → r.kind = 4 →
    r.done < r.rc.length → loc = outAddr s k r (r.rc.outOff + r.bias + r.done) → a = withSlot loc r.slot →
    badShape false a 4096 = false → slotOf loc = ownSlot s → r.slot ≠ ownSlot s → p = 4 + (r.slot + 15 - ownSlot s) % 16 →
    localTest (some k) r.win (str s k).part loc 4096 .write s = (s, none) → windowOk r.win a 4096 .read false = true →
    usable s false p = true →
    (tagRoom s k r.slot .get = true → ∃ t, exec (.accessIssue k idx []) s = .next t ∧ t.tags.length = s.tags.length + 1)
    ∧ (tagRoom s k r.slot .get = false → ∃ t, exec (.accessIssue k idx []) s = .next t ∧ t.tags = s.tags ∧ t.streams = s.streams ∧ t.regs = s.regs
      ∧ .tag k r.rid r.done r.slot .get ∈ t.waits))
  ∧ (∀ opn (g : Tag), tagOf s k opn = some g →
    (tagTimer s g = true → tagOver s g = false → g.retries < 3 →
      ∃ t, exec (.accessRetxTimeout k opn) s = .next t ∧ (tagOf t k opn).map (fun u => u.retries) = some (g.retries + 1)
        ∧ rdN t R.memRetryCount = min (rdN s R.memRetryCount + 1) 0xFFFFFFFF)
    ∧ (∀ at_, g.busyAt = some at_ → at_ + 2048 ≤ now s → tagOver s g = false →
      ∃ t, exec (.busyReissue k opn) s = .next t ∧ rdN t R.memRetryCount = rdN s R.memRetryCount
        ∧ tagOf t k opn = some { g with due := none, busyAt := none, rx := [] })
    ∧ (tagOver s g = true → ∃ t, exec (.memTimeout k opn) s = .next t ∧ tagOf t k opn = none))

/-- R254–R257: staging words in error, the ends of package writes, and the accelerator's own accesses to the store. -/
def Obligations.StoreAndPackage : Prop := ∀ s : State, s.Ready → s.Quiet →
  (∀ w, w < storeSize / 8 → ∃ t, exec (.stagingBankGrant w 1) s = .next t ∧ t.stgBad = s.stgBad ∧ t.stg = s.stg
    ∧ rdN t R.memEccCorrCount = min (rdN s R.memEccCorrCount + 1) 0xFFFFFFFF ∧ rbit t R.memEvents 5 = true)
  ∧ (∀ w err, w < storeSize / 8 → 2 ≤ err → ∃ t, exec (.stagingBankGrant w err) s = .next t ∧ w ∈ t.stgBad
    ∧ t.stg = s.stg ∧ t.regs = s.regs)
  ∧ (∀ id (g : Txn), s.txns.find? (fun u => u.id == id && u.sent) = some g →
    (∃ t, exec (.pkgTransactionDone id none) s = .next t ∧ t.txns = s.txns.filter (fun u => u.id != id))
    ∧ (∀ i, g.resends < 3 → ∃ t, exec (.pkgTransactionDone id (some i)) s = .next t
      ∧ rdN t R.memPkgRetryCount = min (rdN s R.memPkgRetryCount + 1) 0xFFFFFFFF ∧ rbit t R.glbAlertStatus 5 = true
      ∧ (activePkg s = s.pkgSet →
        t.txns = s.txns.map (fun u => if u.id = id then { g with resends := g.resends + 1, issued := now s } else u)
        ∧ t.out = s.out ++ [.pkgWrite g.id g.addr g.bytes (beatPorts (activePkg s) g.addr g.bytes.length)])
      ∧ (activePkg s ≠ s.pkgSet → t.out = s.out ∧ t.txns = s.txns.map (fun u => if u.id = id then
          { g with resends := g.resends + 1, issued := now s, sent := false } else u))))
  ∧ (∀ id (g : Txn), s.txns.find? (fun u => u.id == id) = some g → g.sent = true →
    (∀ n, g.owner = .signalWord n → n < 16 → g.issued + pkgTimeout s ≤ now s →
      ∃ t, exec (.pkgTimeout id) s = .next t ∧ t.txns = s.txns.filter (fun u => u.id != id) ∧ rbit t R.memEvents 7 = true
        ∧ rbit t (R.parEvents n) 3 = true))
  ∧ (∀ p a off data, p < 16 → placeOf s (offOf a) data.length = .store off → slotOf a = ownSlot s → data ≠ [] →
    windowOk (winsOf s p) a data.length .write false = true →
    ∃ t, exec (.pkgStagingAccess p true a 0 data) s = .next t ∧ t.out = s.out ++ [.pkgRsp true []] ∧ t.regs = s.regs
      ∧ (∀ i, i < data.length → stgGet t (off + i) = data.getD i 0)
      ∧ ∀ x, x < off ∨ off + data.length ≤ x → stgGet t x = stgGet s x)
  ∧ (∀ p a off len, p < 16 → placeOf s (offOf a) len = .store off → slotOf a = ownSlot s → 0 < len → s.stgBad = [] →
    windowOk (winsOf s p) a len .read false = true →
    ∃ t, exec (.pkgStagingAccess p false a len []) s = .next t ∧ t.out = s.out ++ [.pkgRsp true (stgRead s off len)]
      ∧ t.regs = s.regs ∧ t.stg = s.stg)
  ∧ (∀ p w a len off data, p < 16 → placeOf s (offOf a) (if w then data.length else len) = .store off → slotOf a = ownSlot s →
    0 < (if w then data.length else len) →
    windowOk (winsOf s p) a (if w then data.length else len) (if w then .write else .read) false = false →
    ∃ t, exec (.pkgStagingAccess p w a len data) s = .next t ∧ t.out = s.out ++ [.pkgRsp false []] ∧ t.stg = s.stg
      ∧ rdN t R.memWindowFaultCount = min (rdN s R.memWindowFaultCount + 1) 0xFFFFFFFF ∧ rbit t R.glbAlertStatus 8 = true)

/-- R266, R267, R541: a doorbell moves PARn_REQ_TAIL to an index within the ring, sets the event bit for another, and does
nothing for a partition without streams or isolated; over the package interface it is answered, and every register but
the doorbells and PARn_CPL_HEAD is refused. -/
def Obligations.Doorbells : Prop := ∀ (s : State) n (v : Word), s.Ready → n < 16 →
  (tfind (R.parDoorbell n) s.pkgWrote = none → doorbellHeard s n = true → doorbellOk s n v = true →
    ∃ t, exec (.doorbell n v) s = .next t ∧ rd t (R.parReqTail n) = v
    ∧ ∀ b, b ≠ R.parReqTail n → rd t b = rd s b)
  ∧ (tfind (R.parDoorbell n) s.pkgWrote = none → doorbellHeard s n = true → doorbellOk s n v = false →
    ∃ t, exec (.doorbell n v) s = .next t ∧ rbit t (R.parEvents n) 0 = true
    ∧ rd t (R.parReqTail n) = rd s (R.parReqTail n))
  ∧ (tfind (R.parDoorbell n) s.pkgWrote = none → doorbellHeard s n = false → exec (.doorbell n v) s = .next s)
  ∧ (∀ p w, p < 4 → (port s p).st = .active → tfind (R.parDoorbell n) s.pkgWrote = none →
    ∃ t u, exec (.pkgRegisterWrite p (R.parDoorbell n) v) s = .next t ∧ exec (.doorbell n w) t = .next u
      ∧ rd u (R.parReqTail n) = rd (doorbell n v (doorbell n w s)) (R.parReqTail n))
  ∧ (∀ p, p < 4 → (port s p).st = .active → doorbellHeard s n = true → doorbellOk s n v = true →
    ∃ t, exec (.pkgRegisterWrite p (R.parDoorbell n) v) s = .next t ∧ rd t (R.parReqTail n) = v ∧ t.out = s.out ++ [.pkgRsp true []])
  ∧ (∀ p, p < 4 → (port s p).st = .active → ∃ t, exec (.pkgRegisterWrite p (R.parCplHead n) v) s = .next t
    ∧ rd t (R.parCplHead n) = v ∧ t.out = s.out ++ [.pkgRsp true []] ∧ ∀ b, b ≠ R.parCplHead n → rd t b = rd s b)
  ∧ (∀ p a, p < 4 → (port s p).st = .active → (∀ m, m < 16 → a ≠ R.parDoorbell m ∧ a ≠ R.parCplHead m) →
    ∃ t, exec (.pkgRegisterWrite p a v) s = .next t ∧ t.regs = s.regs ∧ t.out = s.out ++ [.pkgRsp false []])

/-- R268–R272: a request is taken at HEAD and its descriptor read; a descriptor that passes its tests gets its stream, which
is STARTING, or waits for one; one that cannot be read is completed. -/
def Obligations.TakingARequest : Prop := ∀ (s : State) n, s.Ready → n < 16 →
  (takes s n = true → ∃ t, exec (.requestTake n) s = .next t ∧ (par t n).reading = true ∧ t.streams = s.streams)
  ∧ (∀ data b s0 s', (par s n).reading = true → localRead none (winsOf s n) n (ringBase s (R.parReqBaseLo n) (R.parReqBaseHi n)
      + 64 * (rdN s (R.parReqHead n) % reqSize s n)) 64 data s = (s0, .ok b) →
    s' = wrN (R.parReqHead n) ((rdN s (R.parReqHead n) + 1) % 2 ^ 32)
      (modPar n (fun p => { p with reading := false, outstanding := p.outstanding + 1 }) s0) →
    descTest s' n b (parseReq b) = none →
    (∀ k, freeStream s' n (parseReq b) = some k → k < 256 →
      ∃ t, exec (.descriptorRead n data) s = .next t ∧ (str t k).st = .starting ∧ (str t k).req = parseReq b ∧ (str t k).part = n
        ∧ (par t n).startStr = some k ∧ (par t n).outstanding = (par s0 n).outstanding + 1
        ∧ rdN t (R.parReqHead n) = (rdN s (R.parReqHead n) + 1) % 2 ^ 32)
    ∧ (freeStream s' n (parseReq b) = none →
      ∃ t, exec (.descriptorRead n data) s = .next t ∧ (par t n).starting = some (parseReq b) ∧ t.streams = s0.streams
        ∧ rdN t (R.parReqHead n) = (rdN s (R.parReqHead n) + 1) % 2 ^ 32))
  ∧ (∀ data e s0, (par s n).reading = true → localRead none (winsOf s n) n (ringBase s (R.parReqBaseLo n) (R.parReqBaseHi n)
      + 64 * (rdN s (R.parReqHead n) % reqSize s n)) 64 data s = (s0, .error e) →
    ∃ t, exec (.descriptorRead n data) s = .next t ∧ rbit t (R.parEvents n) 1 = true
      ∧ (par t n).outstanding = (par s0 n).outstanding ∧ rdN t (R.parCplTail n) = (rdN s0 (R.parCplTail n) + 1) % 2 ^ 32
      ∧ rdN t (R.parReqHead n) = (rdN s (R.parReqHead n) + 1) % 2 ^ 32)
  ∧ (∀ q k, (par s n).starting = some q → freeStream s n q = some k → k < 256 →
    ∃ t, exec (.streamAssign n) s = .next t ∧ (str t k).st = .starting ∧ (str t k).req = q ∧ (par t n).starting = none
      ∧ (par t n).startStr = some k ∧ ∀ j, j ≠ k → str t j = str s j)

/-- R273–R276: the header of a Last is tested against Table 8.5, and a request with a bad one is completed; a good one waits
for its reserve of staging blocks, on whose grant the stream runs with its base time and step 0 armed. -/
def Obligations.StartingALast : Prop := ∀ (s : State) k x, s.Ready → k < 256 → x = str s k → x.st = .starting → x.part < 16 → x.finished = false →
  (∀ b, x.hdrOk = false → x.req.last % 32 = 0 → lastLo s x.part ≤ x.req.last → x.req.last + 64 ≤ lastHi s x.part →
    storeRead (some k) x.part x.req.last 64 s = (s, some b) → headerOk b = true →
    x.req.last + 32 + 32 * fieldLE b 6 2 ≤ lastHi s x.part → fieldLE b 5 1 / 2 % 2 = 0 →
    (fieldLE b 8 2 = 0 ∨ fieldLE b 8 2 = ranks s x.part) → fieldLE b 12 4 ≤ 256 * rfld s (R.parStageQuota x.part) 6 0 →
    ∃ t, exec (.lastHeaderRead k) s = .next t ∧ t.regs = s.regs ∧ str t k = { x with
      hdrOk := true, steps := fieldLE b 6 2, hflags := fieldLE b 5 1, need := fieldLE b 12 4
      rec1 := some (parseRec (b.drop 32)), recAt := some (now s) })
  ∧ (x.hdrOk = false → x.req.last % 32 ≠ 0 →
    ∃ t, exec (.lastHeaderRead k) s = .next t ∧ (par t x.part).startStr = none
      ∧ rdN t (R.parCplTail x.part) = (rdN s (R.parCplTail x.part) + 1) % 2 ^ 32)
  ∧ (∀ rc, x.hdrOk = true → x.rec1 = some rc → x.recAt.getD 0 ≤ now s → x.need ≤ stageFree s x.part →
    ∃ t, exec (.stageReserveGrant k) s = .next t ∧ (str t k).st = .running ∧ (str t k).reserve = x.need ∧ t.regs = s.regs
      ∧ (str t k).base = (if x.req.baseTime = 0 then (mtcN s + 1) % 2 ^ 64 else x.req.baseTime)
      ∧ (str t k).arm = some (0, rc, ((str t k).base + rc.launch) % 2 ^ 64, now s) ∧ (par t x.part).startStr = none)
  ∧ (x.hdrOk = true → x.recAt.getD 0 ≤ now s → stageFree s x.part < x.need →
    ∃ t, exec (.stageReserveGrant k) s = .next t ∧ t.streams = s.streams ∧ rbit t (R.parEvents x.part) 4 = true)

/-- R286–R290: the record of the next step is read while the present one runs; it is armed when it may be, with its launch
time; LOOP goes back with its count kept, or on. -/
def Obligations.StepSequence : Prop := ∀ (s : State) k x, s.Ready → x = str s k → x.st = .running → x.part < 16 →
  (∀ b, x.rec1 = none → x.recAt.isSome = true → x.next < x.steps →
    storeRead (some k) x.part (x.req.last + 32 + 32 * x.next) 32 s = (s, some b) →
    ∃ t, exec (.stepRecordRead k) s = .next t ∧ str t k = { x with rec1 := some (parseRec b), recAt := none } ∧ t.regs = s.regs)
  ∧ (∀ rc, x.rec1 = some rc → mayArm s k = true → x.next < x.steps →
    ∃ t, exec (.stepArm k) s = .next t ∧ (str t k).arm = some (x.next, rc, (x.base + rc.launch) % 2 ^ 64, now s)
      ∧ (str t k).next = x.next + 1 ∧ (str t k).rec1 = none ∧ t.regs = s.regs ∧ ∀ j, j ≠ k → str t j = str s j)
  ∧ (∀ idx rc at_ tick, x.arm = some (idx, rc, at_, tick) → rc.opcode = 15 → stepTest s k rc = none → rc.peer < idx → 2 ≤ rc.aux →
    x.loops.find? (fun l => l.1 == idx) = none → x.loops.length < 4 →
    ∃ t, exec (.loop k) s = .next t ∧ (str t k).next = rc.peer ∧ (str t k).base = (x.base + rc.launch) % 2 ^ 64
      ∧ (str t k).bias = x.bias + rc.inOff ∧ (idx, rc.aux - 2) ∈ (str t k).loops ∧ (str t k).arm = none ∧ t.regs = s.regs)
  ∧ (∀ idx rc at_ tick, x.arm = some (idx, rc, at_, tick) → rc.opcode = 15 → stepTest s k rc = none → rc.peer < idx → 2 ≤ rc.aux →
    x.loops.find? (fun l => l.1 == idx) = some (idx, 0) →
    ∃ t, exec (.loop k) s = .next t ∧ (str t k).next = idx + 1 ∧ (str t k).base = x.base ∧ (str t k).bias = x.bias
      ∧ (str t k).loops = x.loops.filter (fun l => l.1 != idx) ∧ (str t k).arm = none ∧ t.regs = s.regs)

/-- R78, R284, R288: on its launch tick an armed step that passes its tests lies between launch and end with the values its
preparation took. R283, R296: END, every earlier step having finished, completes the request. -/
def Obligations.LaunchAndEnd : Prop := ∀ (s : State) k x idx rc at_ tick, s.Ready → k < 256 → x = str s k → x.st = .running → x.part < 16 →
  x.arm = some (idx, rc, at_, tick) →
  (∀ s1 s2 r, tick < now s → at_ ≤ mtcN s → rc.opcode ≠ 0 → rc.opcode ≠ 15 → x.lateArmed = false → s.t.jumpFrom = none →
    s1 = modStr k (fun x => { x with
      arm := none, lateArm := x.lateArm || false, overlap := rc.overlap && rc.opcode != 11 && rc.opcode != 12 }) (applyStaged x.part s) →
    stepTest s1 k rc = none →
    prepare k { rid := x.rid, idx := idx, rc := rc, fired := now s1, base := x.base, bias := x.bias
                late := decide (rc.deadline ≠ 0 ∧ (x.base + rc.deadline) % 2 ^ 64 < mtcN s1) } s1 = (s2, .ok r) →
    ∃ t c, exec (.launch k) s = .next t ∧ (str t k).runs = (str s2 k).runs ++ [{ r with cap := c }]
      ∧ (str t k).rid = (str s2 k).rid + 1 ∧ (str t k).arm = (str s2 k).arm)
  ∧ (rc.opcode = 0 → stepTest s k rc = none → x.runs = [] → earlierDone s k = true → x.finished = false →
    ∃ t, exec (.stepEnd k) s = .next t ∧ ((str t k).st = .ending ∨ (str t k).st = .idle) ∧ (str t k).arm = none ∧ (str t k).reserve = 0
      ∧ rdN t (R.parCplTail x.part) = (rdN s (R.parCplTail x.part) + 1) % 2 ^ 32)
  ∧ (rc.opcode = 0 → stepTest s k rc = none → x.runs ≠ [] →
    ∃ t, exec (.stepEnd k) s = .next t ∧ (str t k).st = .ending ∧ (str t k).arm = none ∧ (str t k).runs = x.runs ∧ t.regs = s.regs)

/-- R186–R188, R250, R283: the steps that move no chunk. Each ends when it may, and no other step ends with it; a circuit is
opened by writing its entry, and closed by clearing it. R283, R298: SIGNAL of kind RANK writes the progress word, and a
completed request its signal word, at their addresses and nowhere else; SIGNAL of kind BOARD adds to a word. -/
def Obligations.StepsWithoutData : Prop :=
  (∀ (s : State) k idx r, s.Ready → k < 256 → runAt s k idx = some r → runOf s k r.rid = some r →
    (r.op = 10 → ∃ t, exec (.waitTime k idx) s = .next t ∧ (str t k).runs = (str s k).runs.filter (fun q => q.rid != r.rid))
    ∧ (r.op = 11 → acting s r = true → firstRun s k r = true →
      ∃ t, exec (.barrier k idx) s = .next t ∧ (str t k).runs = (str s k).runs.filter (fun q => q.rid != r.rid))
    ∧ (r.op = 11 → firstRun s k r = false → exec (.barrier k idx) s = .next s)
    ∧ (r.op = 12 → acting s r = true → firstRun s k r = true → earlierDone s k = true →
      ∃ t, exec (.fence k idx) s = .next t ∧ (str t k).runs = (str s k).runs.filter (fun q => q.rid != r.rid))
    ∧ (r.op = 12 → earlierDone s k = false → exec (.fence k idx) s = .next s)
    ∧ (∀ n e i o, r.op = 8 → r.cap = none → acting s r = true → n = (str s k).part → n < 16 → i = nbits r.rc.aux 4 0 → o = nbits r.rc.aux 9 5 →
      rdN s (R.parCircuitsOpen n) < rfld s (R.parCircuitQuota n) 7 0 → circuitNow s i (r.peerStr k) = none → 4 ≤ i → badOut o = false →
      freeCircuit s = some e →
      ∃ t, exec (.openCircuit k idx) s = .next t ∧ (str t k).runs = (str s k).runs.filter (fun q => q.rid != r.rid)
        ∧ rd t (R.circuitTbl e) = BitVec.ofNat 32 (2 ^ 31 + n * 2 ^ 27 + i * 2 ^ 22 + r.peerStr k % 256 * 2 ^ 14 + o * 2 ^ 9 + k % 256 * 2))
    ∧ (∀ e, r.op = 9 → r.cap = none → acting s r = true → circuitNow s (nbits r.rc.aux 4 0) (r.peerStr k) = some e →
      rfld s (R.circuitTbl e) 30 27 = (str s k).part →
      ∃ t, exec (.closeCircuit k idx) s = .next t ∧ (str t k).runs = (str s k).runs.filter (fun q => q.rid != r.rid)
        ∧ rd t (R.circuitTbl e) = 0))
  ∧
  (∀ s : State, s.Ready → s.Quiet →
    (∀ k idx r off, k < 256 → runAt s k idx = some r → runOf s k r.rid = some r → r.op = 14 → r.kind ≠ 4 → r.cap = none → acting s r = true → r.done = 0 →
      slotOf (str s k).req.sigAddr = ownSlot s → placeOf s (offOf (str s k).req.sigAddr) 8 = .store off →
      offOf (str s k).req.sigAddr + 8 ≤ 2 ^ 44 → windowOk r.win (str s k).req.sigAddr 8 .write false = true →
      ∃ t, exec (.signal k idx []) s = .next t
        ∧ stgRead t off 8 = bytesLE 8 ((str s k).req.step % 2 ^ 32 + r.rc.aux % 65536 * 2 ^ 32 + 2 ^ 57)
        ∧ ∀ a, a < off ∨ off + 8 ≤ a → stgGet t a = stgGet s a)
    ∧ (∀ k idx r loc off, k < 256 → runAt s k idx = some r → runOf s k r.rid = some r → r.op = 14 → r.kind = 4 → r.cap = none → acting s r = true →
      r.done = 0 → isolated s k = false → loc = bufOf s k r.rc.inSel + r.rc.inOff → slotOf loc = ownSlot s → r.slot = ownSlot s →
      badShape true (withSlot loc r.slot) 4 = false → placeOf s (offOf (withSlot loc r.slot)) 4 = .store off → s.stgBad = [] →
      windowOk r.win (withSlot loc r.slot) 4 .atomic false = true →
      ∃ t, exec (.signal k idx []) s = .next t
        ∧ stgRead t off 4 = bytesLE 4 ((natLE (stgRead s off 4) + r.rc.aux) % 2 ^ 32)
        ∧ ∀ a, a < off ∨ off + 4 ≤ a → stgGet t a = stgGet s a)
    ∧ (∀ n a v off, n < 16 → s.signals.find? (fun e => e.1 == n) = some (n, a, v) → slotOf a = ownSlot s → placeOf s (offOf a) 8 = .store off →
      offOf a + 8 ≤ 2 ^ 44 → windowOk (winsOf s n) a 8 .write false = true →
      ∃ t, exec (.signalWordWrite n) s = .next t ∧ t.signals = s.signals.erase (n, a, v) ∧ t.regs = s.regs
        ∧ stgRead t off 8 = bytesLE 8 v ∧ ∀ x, x < off ∨ off + 8 ≤ x → stgGet t x = stgGet s x))

/-- R283, R306, R309, R346: RECV writes the chunk of its lowest position taken, RECV_COMBINE the next output chunk formed,
and COPY its next input chunk, each to its place in the output buffer and nowhere else; a COPY that waited at the gate
does the same. -/
def Obligations.WritingBuffers : Prop := ∀ (s : State) k idx r, s.Ready → s.Quiet → k < 256 → runAt s k idx = some r → runOf s k r.rid = some r →
  acting s r = true → r.cap = none →
  (∀ p c a off, r.op = 2 → r.kind ≠ 4 → r.poss = [p] → p.taken = [c] → p.outs = none → p.short = false →
    a = outAddr s k r (r.rc.outOff + (r.bias + p.j)) → slotOf a = ownSlot s → offOf a + c.data.length ≤ 2 ^ 44 →
    placeOf s (offOf a) c.data.length = .store off → windowOk r.win a c.data.length .write false = true →
    ∃ t, exec (.recv k idx) s = .next t ∧ (∀ i, i < c.data.length → stgGet t (off + i) = c.data.getD i 0)
      ∧ ∀ x, x < off ∨ off + c.data.length ≤ x → stgGet t x = stgGet s x)
  ∧ (∀ p b n a off, r.op = 3 → eOut s r ≤ eIn s r → r.poss = [p] → p.outs = some [(b, n)] → p.handed = 0 → heldBack s r p = false →
    a = outAddr s k r (r.rc.outOff + firstOut s r p.j) → slotOf a = ownSlot s → offOf a + b.length ≤ 2 ^ 44 →
    placeOf s (offOf a) b.length = .store off → windowOk r.win a b.length .write false = true →
    ∃ t, exec (.recvCombine k idx) s = .next t ∧ (∀ i, i < b.length → stgGet t (off + i) = b.getD i 0)
      ∧ ∀ x, x < off ∨ off + b.length ≤ x → stgGet t x = stgGet s x)
  ∧ (∀ data b a off s0, r.op = 5 → r.done < r.rc.length → gated s k r.rid (inAddr s k r r.done) = false →
    readHeld s (some k) (inAddr s k r r.done) 4096 = false →
    localRead (some k) r.win (str s k).part (inAddr s k r r.done) 4096 data s = (s0, .ok b) → s0.Quiet →
    a = outAddr s0 k r (r.rc.outOff + (r.bias + r.done)) → slotOf a = ownSlot s0 → offOf a + b.length ≤ 2 ^ 44 →
    placeOf s0 (offOf a) b.length = .store off → windowOk r.win a b.length .write false = true →
    ∃ t, exec (.copy k idx data) s = .next t ∧ exec (.shardGateRelease k idx data) s = .next t
      ∧ (∀ i, i < b.length → stgGet t (off + i) = b.getD i 0) ∧ ∀ x, x < off ∨ off + b.length ≤ x → stgGet t x = stgGet s0 x)

/-- R349, R318, R333, R364, R633: NARROW and WIDEN read their next input chunk, which waits for its conversion; a combiner's
operation marks a contribution added and frees its block, writes a converted chunk, or replaces the operands of a
SHARD_UPDATE chunk. -/
def Obligations.Combiners : Prop := ∀ (s : State) k idx r, s.Ready → s.Quiet → k < 256 → runAt s k idx = some r → runOf s k r.rid = some r →
  r.cap = none →
  (∀ data b s0, (r.op = 6 ∨ r.op = 7) → acting s r = true → r.done < r.rc.length → gated s k r.rid (inAddr s k r r.done) = false →
    readHeld s (some k) (inAddr s k r r.done) 4096 = false →
    localRead (some k) r.win (str s k).part (inAddr s k r r.done) 4096 data s = (s0, .ok b) →
    ∃ t, exec (if r.op = 6 then .narrow k idx data else .widen k idx data) s = .next t ∧ t.regs = s0.regs
      ∧ t.streams = (modRun k r.rid (fun q => { q with done := q.done + 1, poss := q.poss ++ [
          { j := q.done, loc := some (b, countOf s0 k r.rc.inSel (r.inChunk r.done))
            locMark := markOf s0 k r.rc.inSel (r.inChunk r.done), first := mtcN s }] }) s0).streams)
  ∧ (∀ j rank data p, (r.op = 3 ∨ r.op = 4) → rank ≠ r.self → r.pos j = some p → p.comb.isSome = true → p.blk = true → p.outs = none →
    p.loc = none → orderReady r p rank = true → p.taken.any (fun c => c.rank == rank && !c.added) = true →
    ∃ t, exec (.combinerOperation k idx j rank data) s = .next t ∧ t.regs = s.regs
      ∧ t.streams = (giveBlock k (modPos k r.rid j (fun p => { p with
          taken := p.taken.map (fun c => if c.rank = rank then { c with added := true } else c) }) s)).streams)
  ∧ (∀ j rank data c a off b, (r.op = 6 ∨ r.op = 7) → (r.pos j).isSome = true →
    (range (firstOut s r j) (endOut s r j - 1)).filter (fun c =>
      !r.acked.contains c && (posesOf s r c).all (fun i => decide (i ≤ j) && (r.pos i).isSome)) = [c] →
    b = (convertChunk s r (str s k).req.seed c).bytes → a = outAddr s k r (r.rc.outOff + c) → slotOf a = ownSlot s →
    offOf a + b.length ≤ 2 ^ 44 → placeOf s (offOf a) b.length = .store off → windowOk r.win a b.length .write false = true →
    ∃ t, exec (.combinerOperation k idx j rank data) s = .next t ∧ (∀ i, i < b.length → stgGet t (off + i) = b.getD i 0)
      ∧ ∀ x, x < off ∨ off + b.length ≤ x → stgGet t x = stgGet s x)
  ∧ (∀ j rank data ub q o, r.op = 13 → r.ub = some ub → ubSkip ub = false → r.shards = [q] → q.j = j → q.computed = false →
    o = shardResult ub (str s k).req.seed r.idx ((r.bias + j) * 1024) q.grad q.master q.mom →
    ∃ t, exec (.combinerOperation k idx j rank data) s = .next t ∧ t.stg = s.stg ∧ t.streams = (modRun k r.rid (fun r => { r with
      shards := r.shards.map (fun p => if p.j = j then { q with computed := true, master := o.master, mom := o.mom } else p) }) s).streams)

/-- R283, R305, R378, R379: SEND and COMBINE_SEND send their next chunk once their leg is ready: it is outstanding on the
leg. A leg starts when no earlier one stands before it. -/
def Obligations.SendingLegs : Prop := ∀ (s : State) k, s.Ready → k < 256 →
  (∀ idx r s1 s2 data b, runAt s k idx = some r → runOf s k r.rid = some r → acting s r = true → r.cap = none → r.op = 1 → r.kind = 0 →
    r.done < r.rc.length → gated s k r.rid (inAddr s k r r.done) = false → legsReady k r (makeLegs k r s) = (s1, true) →
    readHeld s (some k) (inAddr s k r r.done) 4096 = false →
    localRead (some k) r.win (str s k).part (inAddr s k r r.done) 4096 data s1 = (s2, .ok b) → s2.Quiet →
    ∃ t, exec (.send k idx data) s = .next t ∧ (legsOf t k r.rid).map (fun g => g.sent) = (legsOf s2 k r.rid).map (fun g => g.sent + 1)
      ∧ (legsOf t k r.rid).map (fun g => g.out.map (fun o => o.seq)) = (legsOf s2 k r.rid).map (fun g => g.out.map (fun o => o.seq) ++ [r.done % 1024]))
  ∧ (∀ idx r s1 p b n, runAt s k idx = some r → runOf s k r.rid = some r → acting s r = true → r.cap = none → r.op = 4 → r.done < r.rc.length →
    r.pos r.done = some p → p.outs = some [(b, n)] → p.short = false → legsReady k r (makeLegs k r s) = (s1, true) → s1.Quiet →
    ∃ t, exec (.combineSend k idx) s = .next t ∧ (legsOf t k r.rid).map (fun g => g.sent) = (legsOf s1 k r.rid).map (fun g => g.sent + 1)
      ∧ (legsOf t k r.rid).map (fun g => g.out.map (fun o => o.seq)) = (legsOf s1 k r.rid).map (fun g => g.out.map (fun o => o.seq) ++ [r.done % 1024]))
  ∧ (∀ g, (str s k).legs = [g] → g.started = false → (str s k).gaps = [] →
    ∃ t, exec (.legStart k g.dest) s = .next t ∧ (str t k).legs = [{ g with started := true }] ∧ t.regs = s.regs ∧ ∀ j, j ≠ k → str t j = str s j)
  ∧ (∀ idx r data, runAt s k idx = some r → (r.op = 1 ∧ r.kind = 4 → exec (.send k idx data) s = exec (.accessIssue k idx data) s)
    ∧ (r.op = 2 ∧ r.kind = 4 → exec (.recv k idx) s = exec (.accessIssue k idx []) s))

/-- R398–R402: a RECEIPT that matches no outstanding chunk is counted as stale, and TAKEN ends the chunk it matches; a chunk
whose timer runs out is sent again and counted, and one at its limit faults its stream. -/
def Obligations.Retransmission : Prop := ∀ s : State, s.Ready →
  (∀ s1 n b data c, deliveredCell n b s = some (s1, c) → c = parseCell b → wMcast c = false → wType c = 3 →
    (receiptFor s1 c = none → ∃ t, exec (.receipt n b data) s = .next t ∧ t.streams = s1.streams
      ∧ rdN t R.strStaleReceiptCount = min (rdN s1 R.strStaleReceiptCount + 1) 0xFFFFFFFF)
    ∧ (∀ g o, receiptFor s1 c = some (g, o) → fieldBE c.payload 10 1 = 0 → (c.payload.getD 11 0).toNat.testBit 0 = false →
      fieldBE c.payload 0 4 = o.check → g.inc = none →
      ∃ t, exec (.receipt n b data) s = .next t ∧ t.regs = s1.regs
        ∧ ∀ h ∈ (str t (wStream c)).legs, h.rid = g.rid → h.dest = g.dest → ∀ p ∈ h.out, p.seq ≠ o.seq))
  ∧ (∀ k dest seq g o data, k < 256 → chunkAt s k dest seq = some (g, o) →
    (s.Quiet → timeUp s o.due = true → timeUp s o.limit = false → o.uncounted = false → o.retries < 3 → o.data ≠ [] →
      ∃ t, exec (.retxTimer k dest seq data) s = .next t ∧ rdN t (R.strRetxCount k) = min (rdN s (R.strRetxCount k) + 1) 0xFFFFFFFF)
    ∧ (timeUp s o.limit = true → (str s k).st = .running → (str s k).finished = false →
      ∃ t, exec (.retxExhausted k dest seq) s = .next t ∧ (str t k).runs = [] ∧ (str t k).legs = []
        ∧ ((str t k).st = .faulted ∨ (str t k).st = .idle)))

/-- R291, R293, R316, R317: accumulator slots and staging blocks are given to the positions that wait for them when they can
be had, and each tick a position waits for slots is counted; a wait for blocks that lasts too long faults the stream. -/
def Obligations.WaitingForRoom : Prop := ∀ (s : State) k x r p, s.Ready → k < 256 → str s k = x → x.runs = [r] → r.poss = [p] → r.ended = false →
  (s.streams = [(k, x)] → p.slotWait = true → p.comb = none →
    (∀ c, pickCombiner s (slotNeed s r) = some c → ∃ t, exec .slotGrant s = .next t ∧ str t k = { x with
      runs := [{ r with poss := [{ p with comb := some c, slots := slotNeed s r, slotWait := false }] }] })
    ∧ (pickCombiner s (slotNeed s r) = none → ∃ t, exec .slotGrant s = .next t ∧ t.streams = s.streams ∧ t.regs = s.regs)
    ∧ (s.pending = [] → s.waits = [] → s.txns = [] → ∃ t, step s = .next t ∧ t.streams = s.streams
      ∧ rdN t R.cmbSlotWaitCount = min (rdN s R.cmbSlotWaitCount + 1) 0xFFFFFFFF ∧ rbit t R.cmbEvents 4 = true))
  ∧ (r.combines = true → p.blk = false → p.outs = none → blockFor s k = true →
    ∃ t, exec (.stagingBlockGrant k r.idx) s = .next t ∧ t.regs = s.regs ∧ str t k = { x.takeB with
      runs := [{ r with poss := [{ p with blk := true }], blockWait := none }] })
  ∧ (blockOver s r = true → ((r.combines = true ∧ p.blk = false ∧ p.outs = none ∧ blockFor s k = false) ∨ (r.op = 13 ∧ blocksFree s k < 3)) →
    x.st = .running → x.finished = false →
    ∃ t, exec (.stagingQuotaTimeout k r.idx) s = .next t ∧ (str t k).runs = [] ∧ ((str t k).st = .faulted ∨ (str t k).st = .idle))

/-- R357–R365, R371: the update block of a SHARD_UPDATE is read and tested, its chunks begin with their operands read and
three blocks taken, and the writes of a computed chunk are issued once. -/
def Obligations.ShardUpdates : Prop := ∀ (s : State) k idx r, s.Ready → k < 256 → runAt s k idx = some r → runOf s k r.rid = some r → r.op = 13 →
  acting s r = true → r.cap = none →
  (∀ data b s0, r.ub = none → readHeld s (some k) (bufOf s k (r.rc.aux % 4) + r.rc.peer * 64) 64 = false →
    localRead (some k) r.win (str s k).part (bufOf s k (r.rc.aux % 4) + r.rc.peer * 64) 64 data s = (s0, .ok b) →
    (∀ s1, ubOk b = true → ubSkip b = true ∨ constsOk (constsOf b) = true →
      rangesTest (some k) r.win (str s k).part (shardRanges s0 k r b) s0 = (s1, none) → runOf s1 k r.rid = some r →
      ∃ t, exec (.updateBlockRead k idx data) s = .next t ∧ (runOf t k r.rid).bind (fun q => q.ub) = some b)
    ∧ (ubOk b = false → (str s0 k).st = .running → (str s0 k).finished = false →
      ∃ t, exec (.updateBlockRead k idx data) s = .next t ∧ (str t k).runs = [] ∧ ((str t k).st = .faulted ∨ (str t k).st = .idle)))
  ∧ (∀ ub c g w m grad master mom s1 s2 s3, r.ub = some ub → ubSkip ub = false → r.nextShard < r.rc.length →
    r.nextShard < leadCount r.rc.length r.acked + 8 → readHeld s (some k) (masterAddr r ub r.nextShard) 4096 = false →
    readHeld s (some k) (inAddr s k r r.nextShard) 4096 = false → readHeld s (some k) (momentAddr r ub r.nextShard) 2112 = false →
    (∀ l, r.lastBegin = some l → l + 4 ≤ now s) → gated s k r.rid (inAddr s k r r.nextShard) = false → 3 ≤ blocksFree s k →
    pickCombiner s 1 = some c → localRead (some k) r.win (str s k).part (inAddr s k r r.nextShard) 4096 grad s = (s1, .ok g) →
    localRead (some k) r.win (str s1 k).part (masterAddr r ub r.nextShard) 4096 master s1 = (s2, .ok w) →
    localRead (some k) r.win (str s2 k).part (momentAddr r ub r.nextShard) 2112 mom s2 = (s3, .ok m) → runOf s3 k r.rid = some r →
    ∃ t, exec (.shardChunkBegin k idx grad master mom) s = .next t ∧ t.regs = s3.regs
      ∧ (str t k).inUse + (str t k).drawn = (str s3 k).inUse + (str s3 k).drawn + 3
      ∧ (runOf t k r.rid).map (fun q => q.shards) = some (r.shards ++ [{ j := r.nextShard, grad := g, master := w, mom := m, comb := c }]))
  ∧ (∀ ub q, r.ub = some ub → r.shards = [q] → q.written = false → q.computed = true →
    ∃ t, exec (.shardUpdate k idx) s = .next t ∧ ∀ r', runOf t k r.rid = some r' → ∀ p ∈ r'.shards, p.j = q.j → p.written = true)
  ∧ (∀ ub q fo o1 o2, r.ub = some ub → ubSkip ub = false → r.shards = [q] → q.written = false → q.computed = true →
    fo = fmtAt s r.rc.outFmt → eIn s r = 1024 → 0 < perChunk fo → fo.width * perChunk fo ≤ 32768 →
    (fo.scale = true → scaleBase fo + perChunk fo / 32 ≤ 4096) →
    placeOf s (offOf (momentAddr r ub q.j)) q.mom.length = .store o1 → placeOf s (offOf (masterAddr r ub q.j)) q.master.length = .store o2 →
    (∀ c, firstOut s r q.j ≤ c → c < endOut s r q.j → ∀ b n, b + n ≤ 4096 →
      ∃ o, placeOf s (offOf (outAddr s k r (r.rc.outOff + c) + b)) n = .store o) →
    s.txns.any (fun g => match g.owner with | .shard a b j _ => a == k && b == r.rid && j == q.j | _ => false) = false →
    ∃ t, exec (.shardUpdate k idx) s = .next t ∧ t.txns = s.txns
      ∧ rdN t (R.strShdDone k) = leadCount r.rc.length (q.j :: r.acked) % 2 ^ 32)

/-- R415–R421: a CTRL request delivered here. A wrong check is counted and nothing answers it; ECHO is answered with the
words it carries, and leaves the replay cache alone; a request with a cached response gets that response again; one that
is not trusted is answered DENIED, and one that is executed is answered with its result: both enter the replay cache. -/
def Obligations.CtrlRequests : Prop := ∀ (s s1 : State) n b c, s.Ready → deliveredCell n b s = some (s1, c) → c = parseCell b →
  wMcast c = false → wType c = 9 →
  (payloadOk c = false → ctrlOp c = 1 → ∃ t, exec (.regRead n b) s = .next t ∧ t.mgr = s1.mgr ∧ t.ports = s1.ports
    ∧ rdN t R.glbCtrlBadCount = min (rdN s1 R.glbCtrlBadCount + 1) 0xFFFFFFFF ∧ rbit t R.glbCtrlEvents 2 = true)
  ∧ (payloadOk c = true → ctrlOp c = 5 → ∃ t u, exec (.echo n b) s = .next t ∧ t.mgr.cache = s1.mgr.cache
    ∧ u = rspSend (rspCell s1 c 6 0 (slice c.payload 28 32) (slice c.payload 16 8)) s1
    ∧ t.ports = u.ports ∧ t.waiting = u.waiting ∧ t.localQ = u.localQ)
  ∧ (∀ e, payloadOk c = true → (ctrlOp c = 1 ∨ ctrlOp c = 2) →
    s1.mgr.cache.find? (fun e => e.src == wSrc c && e.tag == ctrlTag c) = some e →
    ∃ t u, exec (if ctrlOp c = 1 then .regRead n b else .regWrite n b) s = .next t ∧ t.mgr.cache = s1.mgr.cache
      ∧ u = rspSend (rspAgain s1 c e) s1 ∧ t.ports = u.ports ∧ t.waiting = u.waiting ∧ t.localQ = u.localQ)
  ∧ (∀ ret, payloadOk c = true → (ctrlOp c = 1 ∨ ctrlOp c = 2) → ret = slice c.payload 16 8 →
    s1.mgr.cache.find? (fun e => e.src == wSrc c && e.tag == ctrlTag c) = none → s1.mgr.cache.length < 16 →
    (trusted s1 n c = false →
      ∃ t, exec (if ctrlOp c = 1 then .regRead n b else .regWrite n b) s = .next t ∧ rbit t R.glbCtrlEvents 3 = true
        ∧ t.mgr.cache = s1.mgr.cache ++ [{ src := wSrc c, tag := ctrlTag c, at_ := now s
                                           cell := rspCell s1 c (ctrlOp c + 2) 1 [] ret }])
    ∧ (trusted s1 n c = true → 1 ≤ ctrlCount c → ctrlCount c ≤ 8 → ctrlAddr c % 4 = 0 →
      (∀ r, ctrlOp c = 1 → r = readWords .ctrl (ctrlAddr c) (ctrlCount c) s1 →
        ∃ t, exec (.regRead n b) s = .next t
          ∧ t.mgr.cache = s1.mgr.cache ++ [{ src := wSrc c, tag := ctrlTag c, at_ := now s
                                             cell := rspCell r.1 c 3 r.2.2.code (r.2.1.flatMap (fun w => bytesBE 4 w.toNat)) ret }])
      ∧ (∀ w, ctrlOp c = 2 → w = ctrlWrites (ctrlAddr c) ((List.range (ctrlCount c)).map (ctrlWord c)) s1 →
        w.1.mgr.cache = s1.mgr.cache → (∀ p, w.2.2 = [p] → p ≤ 30 → ∃ t, exec (.regWrite n b) s = .next t ∧ (port t p).st = .down)
        ∧ (w.2.2 = [] → ∃ t, exec (.regWrite n b) s = .next t ∧ t.staged = w.1.staged ∧ t.bootPend = w.1.bootPend
          ∧ t.mgr.cache = s1.mgr.cache ++ [{ src := wSrc c, tag := ctrlTag c, at_ := now s
                                             cell := rspCell w.1 c 4 w.2.1.code [] ret }]))))

/-- R421, R422, R529: responses are stored in the next free entry with their source, or lost with event bit 1; a cell of
GLB_CTRL_SEND or TEL_SVY_SEND goes out unless the one before it still waits, which sets the SEND_FAIL bit; cached
responses go when their time is over. -/
def Obligations.CtrlResponsesAndSends : Prop := ∀ s : State, s.Ready →
  (∀ s1 n b c i, deliveredCell n b s = some (s1, c) → c = parseCell b → wMcast c = false → wType c = 9 → payloadOk c = true →
    (i = .readRsp n b ∧ ctrlOp c = 3 ∨ i = .writeRsp n b ∧ ctrlOp c = 4 ∨ i = .echoRsp n b ∧ ctrlOp c = 6) →
    ((rd s1 R.glbCtrlRxHead - rd s1 R.glbCtrlRxTail).toNat ≠ 8 →
      ∃ t, exec i s = .next t ∧ rd t R.glbCtrlRxHead = rd s1 R.glbCtrlRxHead + 1
        ∧ rdN t (R.glbCtrlRx (rdN s1 R.glbCtrlRxHead % 8) 16) = wSrc c
        ∧ ∀ w, w < 16 → rdN t (R.glbCtrlRx (rdN s1 R.glbCtrlRxHead % 8) w) = fieldBE c.payload (4 * w) 4)
    ∧ ((rd s1 R.glbCtrlRxHead - rd s1 R.glbCtrlRxTail).toNat = 8 →
      ∃ t, exec i s = .next t ∧ rbit t R.glbCtrlEvents 1 = true ∧ ∀ a, a ≠ R.glbCtrlEvents → rd t a = rd s1 a))
  ∧ (sendPending s s.mgr.ctrlSent = true → ∃ t, exec .ctrlSend s = .next t ∧ rbit t R.glbCtrlEvents 0 = true ∧ t.ports = s.ports
    ∧ t.waiting = s.waiting ∧ t.mgr = s.mgr)
  ∧ (∀ c, sendPending s s.mgr.ctrlSent = false → c = setWelt 37 37 s.ep.inj
      (mkCell (rfld s R.glbCtrlTxDest 12 0) (ownId s) 2 9 0 0 0 (txPayload s (R.glbCtrlTx 0))) →
    (∃ t, exec .ctrlSend s = .next t ∧ t.mgr.ctrlSent = some c)
    ∧ (∀ p, isExplicit c = true → p = (c.payload.getD 1 0).toNat → 0 < nbits (c.payload.getD 0 0).toNat 2 0 →
      ((4 ≤ p ∧ p ≤ 18) ∨ (21 ≤ p ∧ p ≤ 30)) → usable s false p = true → 0 < queueFree s p .vc2 → (port s p).st ≠ .doze →
      ∃ t, exec .ctrlSend s = .next t ∧ (port t p).qVc2 = (port s p).qVc2 ++ [c] ∧ t.regs = s.regs))
  ∧ (sendPending s s.mgr.svySent = true → ∃ t, exec .surveySend s = .next t ∧ rbit t R.telSvyEvents 0 = true ∧ t.ports = s.ports
    ∧ t.waiting = s.waiting ∧ t.mgr = s.mgr)
  ∧ (∀ c, sendPending s s.mgr.svySent = false → c = setWelt 37 37 s.ep.inj
      (mkCell (rfld s R.telSvyTxDest 12 0) (ownId s) 2 10 0 0 0 (txPayload s (R.telSvyTx 0))) →
    ∃ t, exec .surveySend s = .next t ∧ t.mgr.svySent = some c)
  ∧ (∃ t, exec .replayCacheExpire s = .next t ∧ t.regs = s.regs ∧ t.ports = s.ports
    ∧ t.mgr.cache = s.mgr.cache.filter (fun e => decide (now s < e.at_ + 4 * retxWait s)))

/-- R423–R426: WARM and RELOAD written over a path start their reset 1,024 ticks later. A warm reset or a reload that starts
advances the incarnation, writes GLB_RESET_CAUSE with the one before it, takes every port DOWN, drops every stream,
request access and assembly, sets the MTC to 0, and leaves the staging store and the flash alone. -/
def Obligations.WarmResetsAndReloads : Prop := ∀ s : State, s.Ready →
  (∀ p, (∃ t, exec (.warm p) s = .next t ∧ t.regs = s.regs
      ∧ t.rst.soft = s.rst.soft ++ [(now s + 1024, (match p with | .mgt => 2 | .ctrl => 3), false)])
    ∧ (∃ t, exec (.reload p) s = .next t ∧ t.regs = s.regs
      ∧ t.rst.soft = s.rst.soft ++ [(now s + 1024, (match p with | .mgt => 4 | .ctrl => 5), true)]))
  ∧ (∀ e, softDue s false = some e → e.2.1 < 16 → s.rst.prog = false → s.boot.entered5 = true → s.bootPend = [] →
    ∃ t, exec .warmReset s = .next t ∧ incarnation t = (incarnation s + 1) % 16
      ∧ rdN t R.glbResetCause = incarnation s * 16 + e.2.1 ∧ t.streams = [] ∧ t.tags = [] ∧ t.slots = [] ∧ t.asms = []
      ∧ t.waiting = [] ∧ t.t.mtc = 0 ∧ rbit t R.mtcStatus 0 = false ∧ t.ep.inj = 0 ∧ t.stg = s.stg ∧ t.flash = s.flash
      ∧ ∀ n, n ≤ 30 → (port t n).st = .down)
  ∧ (∀ e, softDue s true = some e → e.2.1 < 16 → s.rst.prog = false →
    ∃ t, exec .reloadStart s = .next t ∧ incarnation t = (incarnation s + 1) % 16
      ∧ rdN t R.glbResetCause = incarnation s * 16 + e.2.1 ∧ t.streams = [] ∧ t.tags = [] ∧ t.slots = [] ∧ t.asms = []
      ∧ t.waiting = [] ∧ t.t.mtc = 0 ∧ rbit t R.mtcStatus 0 = false ∧ t.ep.closed = true ∧ rbit t R.glbSeal 0 = false
      ∧ t.stg = s.stg ∧ t.flash = s.flash ∧ ∀ n, n ≤ 30 → (port t n).st = .down)
  ∧ (softDue s false = none → exec .warmReset s = .next s) ∧ (softDue s true = none → exec .reloadStart s = .next s)
  ∧ (∀ d, 160 ≤ d → s.rst.prog = false →
    ∃ t, exec (.warmPinAssert d) s = .next t ∧ t.rst.warmPin = true ∧ rfld t R.glbResetCause 3 0 = 1
      ∧ rfld t R.glbResetCause 7 4 = incarnation s ∧ t.t.mtc = 0 ∧ rbit t R.mtcStatus 0 = false ∧ t.rst.warmAt = some (now s)
      ∧ t.rst.prog = true ∧ bootStep t = 0)
  ∧ (∀ d, d < 16 → exec (.warmPinAssert d) s = .next s)
  ∧ (∃ t, exec .warmPinRelease s = .next t ∧ t.rst.warmPin = false
    ∧ (∀ w, s.rst.warmAt = some w → now s < w + 16384 → t.regs = s.regs ∧ t.rst.prog = s.rst.prog)
    ∧ ((∀ w, s.rst.warmAt = some w → w + 16384 ≤ now s) → s.rst.prog = true → s.rst.asReload = false → bootStep s = 0 → s.bootPend = [] →
      rbit s R.glbTemp 12 = false → t.rst.prog = false ∧ 5 ≤ bootStep t))
  ∧ (s.bootPend = [] → ∃ t, exec .rootPllLoss s = .next t ∧ rfld t R.glbResetCause 3 0 = 6 ∧ rbit t R.clkStatus 0 = false ∧ t.streams = [])

/-- R457, R596, R599, R604, R605, R617, R618, R621: PORST#, a supply dip and an instruction that holds the engine begin a
cold reset, which keeps the flash and clears the staging store; the engine leaves it once the reset is over, PORST# is
released and the root PLL has locked, with the straps sampled and boot at step 2. A reading of 115 °C trips. -/
def Obligations.ColdResetAndPins : Prop := ∀ s : State, s.writes = [] →
  (∀ d, 160 ≤ d → ∃ t, exec (.porst d) s = .next t ∧ t.rst.cold = true ∧ t.rst.pin = true ∧ t.rst.ended = false ∧ t.t.mtc = 0
    ∧ rbit t R.mtcStatus 0 = false ∧ t.streams = [] ∧ t.ports = [] ∧ t.flash = s.flash ∧ ∀ a, a < 96 * 1048576 → stgGet t a = 0)
  ∧ (∀ d, d < 16 → exec (.porst d) s = .next s)
  ∧ (∀ d v, 160 ≤ d → ∃ t, exec (.supplyDip d v) s = .next t ∧ t.rst.cold = true ∧ t.rst.dip = true ∧ t.rst.pin = s.rst.pin
    ∧ t.flash = s.flash ∧ (v = true → rbit t R.glbTemp 12 = false) ∧ (v = false → rbit t R.glbTemp 12 = rbit s R.glbTemp 12))
  ∧ (s.rst.cold = true → s.rst.ended = false → s.rst.coldAt + (if s.rst.dip then 1600000 else 16000) ≤ now s →
    ∃ t, exec .coldResetEnd s = .next t ∧ t.rst.ended = true)
  ∧ (∀ v, s.rst.cold = true → s.rst.ended = true → jtagHolds s.rst.jtag = false → rbit s R.clkStatus 0 = true → v < 32 →
    s.rst.warmPin = false → rbit s R.glbTemp 12 = false →
    ∃ t, exec (.porstRelease v) s = .next t ∧ t.rst.cold = false ∧ t.rst.pin = false ∧ bootStep t = 2 ∧ t.t.mtc = 0
      ∧ rfld t R.glbStraps 4 0 = v ∧ rbit t R.mtcMode 3 = v.testBit 2 ∧ rbit t R.mtcMode 2 = v.testBit 2)
  ∧ (∀ l, ∃ t, exec (.pllLock l) s = .next t ∧ rbit t R.clkStatus 0 = true ∧ rbit t R.clkStatus 1 = (!l) ∧ rbit t R.clkStatus 2 = l)
  ∧ (∀ op, ∃ t, exec (.instructionUpdate op) s = .next t ∧ t.rst.jtag = op % 256
    ∧ (jtagHolds (op % 256) = true → jtagHolds s.rst.jtag = false → t.rst.cold = true ∧ t.flash = s.flash))
  ∧ (∃ t, exec .tapReset s = .next t ∧ t.rst.jtag = 1)
  ∧ (∀ temp sensor, s.rst.cold = false → temp < 4096 → sensor < 8 → (temp < 716 ∨ rbit s R.glbTemp 12 = true) →
    ∃ t, exec (.thermalSample temp sensor) s = .next t ∧ rfld t R.glbTemp 11 0 = temp ∧ rfld t R.glbTemp 18 16 = sensor
      ∧ (rfld s R.glbTempWarn 11 0 ≤ temp → rbit t R.glbPwrEvents 0 = true) ∧ t.out = s.out
      ∧ ∀ a, a ≠ R.glbTemp → a ≠ R.glbPwrEvents → rd t a = rd s a)
  ∧ (∀ temp sensor, s.rst.cold = false → temp < 4096 → 716 ≤ temp → rbit s R.glbTemp 12 = false →
    ∃ t, exec (.thermalSample temp sensor) s = .next t ∧ rbit t R.glbTemp 12 = true ∧ .thermtrip ∈ t.out
      ∧ rfld t R.glbResetCause 3 0 = 7 ∧ bootStep t = 0 ∧ t.streams = [])

/-- R427–R429: quench stops a stream's steps, accesses and cells at once, and it is IDLE when its transfers have ended; a
partition reset holds the partition, quenches its streams and empties its anneal buffer; a port reset takes a port DOWN
and keeps what is configured of it. -/
def Obligations.QuenchAndResets : Prop := ∀ s : State, s.Ready →
  (∀ k, k < 256 → (str s k).st ≠ .idle → (str s k).st ≠ .quenching → (str s k).finished = false → s.replay = none →
    ∃ t, exec (.quench k) s = .next t ∧ ((str t k).st = .quenching ∨ (str t k).st = .idle) ∧ (str t k).runs = [] ∧ (str t k).legs = []
      ∧ (∀ w ∈ t.waiting, w.stream ≠ k) ∧ (∀ g ∈ t.tags, g.stream = k → g.copy.isSome = true))
  ∧ (∀ k, ((str s k).st = .idle ∨ (str s k).st = .quenching) → exec (.quench k) s = .next s)
  ∧ (∀ k, quenchDue s k = true → ∃ t, exec (.quenchComplete k) s = .next t ∧ (str t k).st = .idle ∧ (str t k).runs = []
    ∧ ∀ j, j ≠ k → str t j = str s j)
  ∧ (∀ k, quenchDue s k = false → exec (.quenchComplete k) s = .next s)
  ∧ (∀ n discard, n < 16 → (∀ k ∈ strsOf s n, (str s k).st = .idle) → (par s n).starting = none → (par s n).anneal = [] →
    (∀ i, i ≤ 127 → rbit s (R.circuitTbl i) 31 = true → rfld s (R.circuitTbl i) 30 27 ≠ n) →
    ∃ t, exec (.partitionReset n discard) s = .next t ∧ rbit t (R.parReset n) 8 = true ∧ rbit t (R.parReset n) 9 = false
      ∧ (par t n).reading = false ∧ rd t (R.parReqHead n) = (if discard then rd s (R.parReqTail n) else rd s (R.parReqHead n))
      ∧ ∀ a, a ≠ R.parReset n → a ≠ R.parReqHead n → rd t a = rd s a)
  ∧ (∀ n, n ≤ 30 → ∃ t, exec (.portReset n) s = .next t ∧ (port t n).st = .down ∧ (port t n).reason = 1
    ∧ queuedCells (port t n) = 0 ∧ rd t (R.prtConfig n) = rd s (R.prtConfig n) ∧ rd t (R.prtPeer n) = rd s (R.prtPeer n))

/-- R464, R469, R475, R484 (Table 15.2): the reads of boot. Without a valid descriptor the defaults stand and boot goes on
without a journal; a valid one is taken; the journal scan ends in step 4; the slot checks choose the candidates, or boot
fails. -/
def Obligations.BootReads : Prop := ∀ s : State, s.Ready → bootPort s = true →
  (∀ x, bootStep s = 2 → descValid (strapLanes s) (flashRead s 0 64) = false → descValid (strapLanes s) (flashRead s 0x1000 64) = false →
    ∃ t, exec (.bootDescriptorRead x) s = .next t ∧ rbit t R.glbBootStatus 7 = true ∧ rbit t R.jnlStatus 0 = false ∧ bootStep t = 4
      ∧ rdN t R.nvmReadCmd = 0x13 ∧ rdN t R.nvmReadFmt = 0x6008 ∧ rbit t R.glbAlertStatus 14 = true ∧ t.flash = s.flash
      ∧ rbit t R.glbBootStatus 13 = true ∧ (bootSrc s = 2 → rbit t R.glbBootStatus 6 = true))
  ∧ (∀ x d, bootStep s = 2 → d = flashRead s 0 64 → descValid (strapLanes s) d = true →
    descValid (strapLanes s) (flashRead s 0x1000 64) = false → byteAt d 5 % 2 = 0 →
    ∃ t, exec (.bootDescriptorRead x) s = .next t ∧ rbit t R.glbBootStatus 8 = false ∧ rfld t R.nvmReadCmd 15 0 = fieldLE d 10 2
      ∧ t.boot.desc = descOf d ∧ rbit t R.jnlStatus 0 = (byteAt d 5 / 2 == 1) ∧ bootStep t = (if byteAt d 5 / 2 = 1 then 3 else 4)
      ∧ t.flash = s.flash)
  ∧ (bootStep s = 3 → journalOn s = true →
    ∃ t, exec .journalScan s = .next t ∧ bootStep t = 4 ∧ t.flash = s.flash ∧ t.boot.cands = none
      ∧ (validSlots s ((List.range (sectorCount s)).map (fun k => k * slotsPer s)) = [] →
        rdN t R.jnlHeadAddr = jnlBase ∧ rdN t R.jnlNextSeq = 0))
  ∧ (bootStep s = 4 → hostState s = false → s.boot.cands = none → bootSrc s ≠ 1 →
    (slotEmpty s 0 = true → slotEmpty s 1 = true → ∃ t, exec .slotCheck s = .next t ∧ rbit t R.glbBootStatus 5 = true
      ∧ rfld t R.glbBootStatus 23 16 = 0x0D ∧ rbit t R.glbAlertStatus 14 = true ∧ t.boot.cands = none)
    ∧ (slotEmpty s 0 = false → slotTest s 0 = none → slotEmpty s 1 = true →
      ∃ t, exec .slotCheck s = .next t ∧ t.boot.cands = some [0] ∧ t.regs = s.regs)
    ∧ (slotEmpty s 0 = false → slotTest s 0 = none → slotEmpty s 1 = false → slotTest s 1 = none →
      ∃ t, exec .slotCheck s = .next t ∧ t.boot.cands = some (if slotBFirst s then [1, 0] else [0, 1]) ∧ t.regs = s.regs))

/-- R469, R474–R476 (Table 15.2): an image whose body does not match its check is abandoned for the next candidate, and the
last one leaves boot failed; one that loads, and CONTINUE, end step 4 with version 0 of the tables current; step 5 ends
at its limit. -/
def Obligations.BootConfiguration : Prop := ∀ s : State, s.Ready →
  (∀ c rest base h, loadDue s = some (c, rest) → base = slotBase c + 0x2000 → h = slotHeader s c →
    (crc32c (flashRead s (base + 256) (fieldLE h 12 4 - 256)) ≠ fieldLE h 16 4 →
      ∃ t, exec .imageLoad s = .next t ∧ rbit t R.glbAlertStatus 14 = true ∧ rfld t R.glbBootStatus 23 16 = (if rest = [] then 0x0D else 5)
        ∧ t.boot.cands = (if rest = [] then none else some rest) ∧ (rest = [] → rbit t R.glbBootStatus 5 = true) ∧ bootStep t = 4)
    ∧ (∀ l body u, s.Quiet → body = flashRead s (base + 256) (fieldLE h 12 4 - 256) → crc32c body = fieldLE h 16 4 →
      u = readFrame (base + 256) (fieldLE h 12 4 - 256) (bootPortFree (readFrame (base + 256) (fieldLE h 12 4 - 256) s)) →
      imageSections body.length 0 (base + 256) body { s := u } = (l, none) → crossFails (rd l.s) = [] →
      l.s.bootPend = [] → c < 2 →
      ∃ t, exec .imageLoad s = .next t ∧ 5 ≤ bootStep t ∧ rdN t R.glbImageSeq = fieldLE (slotHeader l.s c) 8 4
        ∧ rfld t R.glbBootStatus 15 14 = c ∧ (l.wantSeal = true → rbit t R.glbSeal 0 = true) ∧ t.ep.inj = 0 ∧ t.ep.closed = false))
  ∧ (bootStep s = 4 → hostState s = true → rfld s R.cmbFmtStatus 15 8 = 0 → crossFails (rd s) = [] → s.bootPend = [] →
    ∃ t, exec .bootContinue s = .next t ∧ 5 ≤ bootStep t ∧ t.ep.closed = false ∧ rdN t R.glbImageSeq = 0
      ∧ rfld t R.glbBootStatus 15 14 = 2 ∧ hostState t = false)
  ∧ (bootStep s = 4 → hostState s = true → rfld s R.cmbFmtStatus 15 8 = 0 → crossFails (rd s) ≠ [] →
    ∃ t, exec .bootContinue s = .next t ∧ bootStep t = 4 ∧ hostState t = true ∧ rbit t R.glbAlertStatus 14 = true)
  ∧ (bootStep s = 4 → hostState s = true → rfld s R.cmbFmtStatus 15 8 ≠ 0 →
    ∃ t, exec .bootContinue s = .next t ∧ bootStep t = 4 ∧ hostState t = true ∧ rbit t R.glbAlertStatus 14 = true
      ∧ rbit t R.glbBootStatus 11 = true)
  ∧ ((bootStep s ≠ 4 ∨ hostState s = false) → exec .bootContinue s = .next s)
  ∧ (portLimitDue s = true → ∃ t, exec .bootPortLimit s = .next t
    ∧ (if rbit s R.mtcStatus 0 then bootStep t = 7 ∧ rbit t R.glbBootStatus 4 = true else bootStep t = 6 ∧ t.roots.step6 = some (now s)))

/-- R480–R483, R492, R494, R495, R497, R499: the flash port serves boot, the journal, the window and software in that order, and
each unit puts its frames on the flash bus. A journal record is programmed in two units, polled while busy, read back and
counted, and its failure raises detector 18; an erased sector reads all ones and nothing else changes. A software
sequence is taken, or refused with its result; its frame gives the bytes it received, it polls where it is asked to, and
it ends, or times out; one that a reset stopped leaves the port and ends without an event. -/
def Obligations.FlashPortAndJournal : Prop := ∀ s : State, s.Ready → s.Quiet →
  (s.fl.owner = .none → s.fl.busy = false → bootReads s = true →
    ∃ t, exec .flashPortServe s = .next t ∧ t.fl.owner = .boot ∧ t.regs = s.regs ∧ t.flash = s.flash)
  ∧ (s.fl.owner = .none → s.fl.busy = false → bootReads s = false → jnlWaits s = true →
    (∀ r l, s.fl.second = false → s.boot.eraseDue = [] → s.jq = r :: l →
      ∃ t, exec .flashPortServe s = .next t ∧ t.fl.owner = .journal ∧ t.fl.busy = true ∧ t.fl.rcd = recordBytes s r ∧ t.flash = s.flash
        ∧ t.out = s.out ++ jnlUnit s s.boot.desc.prog (rdN s R.jnlHeadAddr) (slice (recordBytes s r) 0 63))
    ∧ (s.fl.second = true → ∃ t, exec .flashPortServe s = .next t ∧ t.fl.owner = .journal ∧ t.fl.busy = true ∧ t.fl.rcd = s.fl.rcd
      ∧ t.flash = s.flash ∧ t.out = s.out ++ jnlUnit s s.boot.desc.prog (rdN s R.jnlHeadAddr + 63) (slice s.fl.rcd 63 1))
    ∧ (∀ e l, s.fl.second = false → s.boot.eraseDue = e :: l →
      ∃ t, exec .flashPortServe s = .next t ∧ t.fl.owner = .journal ∧ t.fl.busy = true ∧ t.fl.erasing = true ∧ t.flash = s.flash
        ∧ t.out = s.out ++ jnlUnit s s.boot.desc.erase (jnlBase + e * sectorSize s) []))
  ∧ (∀ a n, s.fl.owner = .none → bootReads s = false → jnlWaits s = false → s.fl.window = some (a, n) →
    ∃ t, exec .flashPortServe s = .next t ∧ t.fl.owner = .window ∧ t.flash = s.flash ∧ t.out = s.out ++ [.flash (readFrameOf s a (4 * n))])
  ∧ (∀ q, s.fl.owner = .none → bootReads s = false → jnlWaits s = false → s.fl.window = none → s.fl.sw = some q → q.sent = false →
    ∃ t, exec .flashPortServe s = .next t ∧ t.fl.owner = .software ∧ t.fl.sw = some { q with sent := true } ∧ t.flash = s.flash
      ∧ t.fl.busy = (s.fl.busy || wbit q.ctrl 17)
      ∧ t.out = s.out ++ (if wbit q.ctrl 16 then [.flash { plainFrame s (wrenCmd s) none [] 0 with cs1 := wbit q.ctrl 19 }] else [])
          ++ [.flash (swFrameOf s q)])
  ∧ (s.fl.owner ≠ .none → exec .flashPortServe s = .next s)
  ∧ (∀ a n data, s.fl.owner = .window → s.fl.window = some (a, n) →
    ∃ t, exec (.flashFrameDone data) s = .next t ∧ t.fl.owner = .none ∧ t.fl.window = none ∧ t.mgt.wait = false
      ∧ t.mgt.reply = s.mgt.reply.take 1 ++ recordWords (flashRead s a (4 * n)) n ++ s.mgt.reply.drop (1 + n) ∧ t.regs = s.regs)
  ∧ (∀ data, s.fl.owner = .journal → s.fl.busy = true → s.fl.polling = false →
    ∃ t, exec (.flashFrameDone data) s = .next t ∧ t.fl = { s.fl with polling := true, since := now s } ∧ t.regs = s.regs
      ∧ t.flash = s.flash ∧ t.out = s.out ++ [.flash (pollFrame s false s.boot.desc.status)])
  ∧ (∀ b a, s.fl.owner = .journal → s.fl.busy = true → s.fl.polling = true → a = rdN s R.jnlHeadAddr →
    (saysBusy s b = true → ∃ t, exec (.flashFrameDone [b]) s = .next t ∧ t.fl = s.fl ∧ t.flash = s.flash
      ∧ t.out = s.out ++ [.flash (pollFrame s false s.boot.desc.status)])
    ∧ (saysBusy s b = false → s.fl.erasing = true →
      ∃ t, exec (.flashFrameDone [b]) s = .next t ∧ t.fl = { s.fl with busy := false, polling := false } ∧ t.flash = s.flash)
    ∧ (saysBusy s b = false → s.fl.erasing = false → s.fl.rcd.length = 64 → s.fl.second = false →
      ∃ t, exec (.flashFrameDone [b]) s = .next t ∧ t.fl.second = true ∧ t.fl.owner = .none ∧ t.fl.busy = false
        ∧ (∀ i, i < 63 → flashGet t (a + i) = s.fl.rcd.getD i 0) ∧ ∀ x, x < a ∨ a + 63 ≤ x → flashGet t x = flashGet s x)
    ∧ (saysBusy s b = false → s.fl.erasing = false → s.fl.rcd.length = 64 → s.fl.second = true →
      ∃ t, exec (.flashFrameDone [b]) s = .next t ∧ t.fl.busy = false ∧ t.out = s.out ++ [.flash (readFrameOf s a 64)]
        ∧ flashGet t (a + 63) = s.fl.rcd.getD 63 0 ∧ ∀ x, x ≠ a + 63 → flashGet t x = flashGet s x))
  ∧ (∀ q, s.fl.owner = .software → s.fl.sw = some q →
    (∀ data, q.ended = false → wbit q.ctrl 17 = true → ∃ t, exec (.flashFrameDone data) s = .next t
      ∧ t.fl = { s.fl with sw := some { q with ended := true }, since := now s } ∧ t.flash = s.flash
      ∧ t.out = s.out ++ [.flash (pollFrame s (wbit q.ctrl 19) (statusCmd s))])
    ∧ (∀ data, q.ended = false → wbit q.ctrl 17 = false → ∃ t, exec (.flashFrameDone data) s = .next t ∧ t.fl.sw = none
      ∧ t.fl.owner = .none ∧ rfld t R.nvmFstatus 3 1 = 0 ∧ rbit t R.nvmEvents 0 = true
      ∧ (wbit q.cmd 30 = false → fld q.ctrl 8 0 ≤ 256 → ∀ i, i < fld q.ctrl 8 0 →
        rfld t (R.nvmFbuf (i / 4)) (8 * (i % 4) + 7) (8 * (i % 4)) = (data.getD i 0).toNat))
    ∧ (∀ b, q.ended = true → saysBusy s b = true → ∃ t, exec (.flashFrameDone [b]) s = .next t ∧ t.fl = s.fl ∧ t.flash = s.flash
      ∧ rfld t R.nvmFstatus 15 8 = b.toNat ∧ t.out = s.out ++ [.flash (pollFrame s (wbit q.ctrl 19) (statusCmd s))])
    ∧ (∀ b, q.ended = true → saysBusy s b = false → ∃ t, exec (.flashFrameDone [b]) s = .next t ∧ t.fl.sw = none ∧ t.fl.owner = .none
      ∧ (wbit q.ctrl 17 = true → t.fl.busy = false) ∧ rfld t R.nvmFstatus 3 1 = 0
      ∧ rfld t R.nvmFstatus 15 8 = b.toNat ∧ rbit t R.nvmEvents 0 = true)
    ∧ (busyDue s = true → ∃ t, exec .flashBusyTimeout s = .next t ∧ t.fl.sw = none ∧ t.fl.busy = false ∧ rfld t R.nvmFstatus 3 1 = 1
      ∧ t.flash = s.flash))
  ∧ (∀ q data, s.fl.owner = .software → s.fl.sw = none → s.fl.stopped = some q →
    ∃ t, exec (.flashFrameDone data) s = .next t ∧ t.fl.owner = .none ∧ t.fl.stopped = none ∧ t.fl.sw = none
      ∧ rd t R.nvmEvents = rd s R.nvmEvents ∧ t.out = s.out)
  ∧ (∀ r l, busyDue s = true → s.fl.owner = .journal → s.fl.erasing = false → s.jq = r :: l →
    ∃ t, exec .flashBusyTimeout s = .next t ∧ t.jq = l ∧ t.fl.busy = false ∧ rbit t R.glbAlertStatus 18 = true
      ∧ rdN t R.jnlFailCount = min (rdN s R.jnlFailCount + 1) 0xFFFFFFFF ∧ rdN t R.jnlNextSeq = rdN s R.jnlNextSeq)
  ∧ (∀ e l, busyDue s = true → s.fl.owner = .journal → s.fl.erasing = true → s.boot.eraseDue = e :: l →
    ∃ t, exec .flashBusyTimeout s = .next t ∧ t.jq = s.jq ∧ t.fl.busy = false ∧ t.boot.skip = s.boot.skip ++ [e]
      ∧ t.boot.eraseDue = l ++ [(e + 1) % sectorCount s] ∧ rbit t R.glbAlertStatus 18 = true
      ∧ rdN t R.jnlFailCount = min (rdN s R.jnlFailCount + 1) 0xFFFFFFFF)
  ∧ (∀ rb r l a, s.fl.owner = .journal → s.fl.erasing = false → s.fl.second = true → s.fl.busy = false → rb.length = 64 → s.jq = r :: l →
    a = rdN s R.jnlHeadAddr →
    ∃ t, exec (.journalWrite rb) s = .next t ∧ t.jq = l ∧ t.fl.owner = .none ∧ t.fl.second = false
      ∧ (rb = s.fl.rcd → rdN t R.jnlWriteCount = min (rdN s R.jnlWriteCount + 1) 0xFFFFFFFF ∧ t.flash = s.flash
        ∧ rdN t R.jnlNextSeq = (rdN s R.jnlNextSeq + 1) % 2 ^ 32)
      ∧ (rb ≠ s.fl.rcd → rdN t R.jnlFailCount = min (rdN s R.jnlFailCount + 1) 0xFFFFFFFF ∧ rbit t R.glbAlertStatus 18 = true
        ∧ rdN t R.jnlNextSeq = rdN s R.jnlNextSeq ∧ (∀ i, i < 64 → flashGet t (a + i) = rb.getD i 0)
        ∧ ∀ x, x < a ∨ a + 64 ≤ x → flashGet t x = flashGet s x))
  ∧ (∀ e l a, s.boot.eraseDue = e :: l → s.fl.owner = .journal → s.fl.erasing = true → s.fl.busy = false → a = jnlBase + e * sectorSize s →
    ∃ t, exec .journalErase s = .next t ∧ t.boot.eraseDue = l ∧ t.fl.owner = .none ∧ t.regs = s.regs
      ∧ t.boot.skip = s.boot.skip.filter (fun x => x != e)
      ∧ ∀ x, flashGet t x = (if a ≤ x ∧ x < a + sectorSize s then 0xFF else flashGet s x))
  ∧ (∀ q : SwSeq, q = { cmd := rd s R.nvmFcmd, addr := rd s R.nvmFaddr, ctrl := rd s R.nvmFctrl } → s.fl.sw = none →
    (swTest s q = none → ∃ t, exec .softwareSequence s = .next t ∧ t.fl.sw = some q ∧ t.regs = s.regs)
    ∧ (∀ r, swTest s q = some r → ∃ t, exec .softwareSequence s = .next t ∧ t.fl.sw = none ∧ rfld t R.nvmFstatus 3 1 = r
      ∧ rbit t R.nvmEvents 0 = true))
  ∧ (swBusy s = true → ∃ t, exec .softwareSequence s = .next t ∧ t.fl = s.fl ∧ rbit t R.nvmEvents 1 = true)

/-- R503–R511 (Tables 16.5–16.7): a frame of the management port sends the last reply, advances FRAME_SEQ, is executed by
its opcode, and leaves the reply the next frame sends, whose status word carries its opcode, its FRAME_SEQ and its code. -/
def Obligations.ManagementFrames : Prop := ∀ (s : State) (f : Frame) w op a, s.Ready → s.Quiet → mgtListens s = true → s.mgt.wait = false →
  frameAny f = true → w = f.words.length → op = frameOpcode f → a = 4 * nbits (frameCommand f) 23 0 →
  (∀ i c, (i = .nop f ∧ op ≤ 0x0F ∧ w ≤ 64 ∧ c = 0 ∨ i = .badOp f ∧ 0x12 < op ∧ w ≤ 64 ∧ c = 2
      ∨ i = .read f ∧ op = 0x10 ∧ frameSizeOk f = false ∧ c = 8 ∨ i = .readWindow f ∧ op = 0x11 ∧ frameSizeOk f = false ∧ c = 8
      ∨ i = .write f ∧ op = 0x12 ∧ frameSizeOk f = false ∧ c = 8 ∨ i = .nop f ∧ op ≤ 0x0F ∧ 64 < w ∧ c = 8
      ∨ i = .badOp f ∧ 0x12 < op ∧ 64 < w ∧ c = 8) →
    ∃ t h, exec i s = .next t ∧ t.mgt.reply = [h] ∧ nbits h.toNat 7 0 = c ∧ nbits h.toNat 31 24 = op
      ∧ nbits h.toNat 23 20 = (s.mgt.fseq + 1) % 16 ∧ nbits h.toNat 15 8 = 0
      ∧ t.mgt.fseq = (s.mgt.fseq + 1) % 16 ∧ t.out = (if w = 0 then s.out else s.out ++ [.mgt (misoWords s w)])
      ∧ (frameCut f = true → rbit t R.mgtEvents 1 = true) ∧ ∀ b, b ≠ R.mgtEvents → rd t b = rd s b)
  ∧ (op = 0x10 → frameSizeOk f = true → ∃ t, exec (.read f) s = .next t ∧ t.mgt.reply.length = w + 1 ∧ t.mgt.wait = false
    ∧ t.mgt.fseq = (s.mgt.fseq + 1) % 16 ∧ nbits (t.mgt.reply.headD 0).toNat 31 24 = 0x10
    ∧ (∀ l, w = 1 → regKind a = some (.rw l) → a < 0x20000 →
      t.mgt.reply.getD 1 0 = rd s a ∧ nbits (t.mgt.reply.headD 0).toNat 7 0 = 0 ∧ nbits (t.mgt.reply.headD 0).toNat 15 8 = 1))
  ∧ (op = 0x11 → frameSizeOk f = true → (bootStep s = 0 ∨ 4 < bootStep s ∨ hostState s = true) → s.fl.busy = false →
    ∃ t, exec (.readWindow f) s = .next t ∧ t.fl.window = some (a, min w ((0x4000000 - a) / 4)) ∧ t.mgt.wait = true
      ∧ t.mgt.reply.length = w + 1 ∧ t.flash = s.flash)
  ∧ (op = 0x11 → frameSizeOk f = true → ((1 ≤ bootStep s ∧ bootStep s ≤ 4 ∧ hostState s = false) ∨ s.fl.busy = true) →
    ∃ t, exec (.readWindow f) s = .next t ∧ t.fl = s.fl ∧ t.mgt.wait = false ∧ nbits (t.mgt.reply.headD 0).toNat 7 0 = 7
      ∧ rdN t R.nvmWindowBusyCount = min (rdN s R.nvmWindowBusyCount + 1) 0xFFFFFFFF ∧ rbit t R.nvmEvents 2 = true)
  ∧ (op = 0x12 → frameSizeOk f = true → ∃ t, exec (.write f) s = .next t ∧ t.mgt.reply.length = 1 ∧ t.mgt.fseq = (s.mgt.fseq + 1) % 16
    ∧ nbits (t.mgt.reply.headD 0).toNat 31 24 = 0x12
    ∧ (∀ l v h, f.words = [h, v] → frameCut f = false → regKind a = some (.rw l) → a < 0x20000 → (imageAddr a = false ∨ bootWriteOk s = true) →
      rd t a = (applyFields l (rd s a) v).1 ∧ ∀ b, b ≠ a → rd t b = rd s b))

/-- R510, R512, R515–R518: an underrun sends the last word again, and is counted with detector 15; the watchdog trips the
port, which ignores frames until MGT_CS# has been high for 64 ticks; a push that is acknowledged leaves the queue, the
third failure of one drops it, and a multi-master fault ends the attempt. -/
def Obligations.ManagementFaults : Prop := ∀ s : State, s.Ready → s.Quiet →
  (∀ w, mgtListens s = true → (s.mgt.wait = true ∨ now s < s.mgt.lateAt) →
    ∃ t, exec (.underrun w) s = .next t ∧ t.out = s.out ++ [.mgt (List.replicate w s.mgt.lastWord)] ∧ t.mgt.lost = true
      ∧ t.mgt.reply = s.mgt.reply ∧ t.mgt.fseq = s.mgt.fseq ∧ rbit t R.mgtEvents 0 = true ∧ rbit t R.glbAlertStatus 15 = true
      ∧ rdN t R.mgtUnderrunCount = min (rdN s R.mgtUnderrunCount + 1) 0xFFFFFFFF)
  ∧ (∀ f, mgtListens s = true → s.mgt.wait = true → frameAny f = true → frameOpcode f = 0x10 →
    ∃ t, exec (.read f) s = .next t ∧ t.mgt.lost = true ∧ t.mgt.reply = s.mgt.reply
      ∧ rdN t R.mgtUnderrunCount = min (rdN s R.mgtUnderrunCount + 1) 0xFFFFFFFF)
  ∧ (∀ w, mgtListens s = true → ∃ t, exec (.csWatchdog w) s = .next t ∧ t.mgt.tripped = true ∧ t.mgt.lost = true
    ∧ rbit t R.mgtEvents 3 = true ∧ rbit t R.glbAlertStatus 17 = true
    ∧ rdN t R.mgtWatchdogCount = min (rdN s R.mgtWatchdogCount + 1) 0xFFFFFFFF)
  ∧ (∀ f, mgtListens s = false → frameAny f = true → frameOpcode f ≤ 0x0F →
    ∃ t, exec (.nop f) s = .next t ∧ t.mgt.lost = true ∧ t.mgt.reply = s.mgt.reply ∧ t.mgt.fseq = s.mgt.fseq ∧ t.out = s.out
      ∧ t.regs = s.regs)
  ∧ (∀ ack r l, pushDue s = true → s.pushq = r :: l →
    ∃ t, exec (.pushAttempt ack) s = .next t ∧ t.out = s.out ++ [.mgtCs true, .push (pushFrame r), .mgtCs false]
      ∧ (ack.toNat = 0x5A5A0000 + r.pseq → t.pushq = l
        ∧ rdN t R.mgtPushCount = min (rdN s R.mgtPushCount + 1) 0xFFFFFFFF)
      ∧ (ack.toNat ≠ 0x5A5A0000 + r.pseq → r.tries ≠ 2 → t.pushq = { r with tries := r.tries + 1 } :: l ∧ t.regs = s.regs)
      ∧ (ack.toNat ≠ 0x5A5A0000 + r.pseq → r.tries = 2 → t.pushq = l ∧ rbit t R.mgtEvents 5 = true
        ∧ rdN t R.mgtPushDropCount = min (rdN s R.mgtPushDropCount + 1) 0xFFFFFFFF))
  ∧ (∀ frame, pushDue s = true → ∃ t, exec (.multiMasterFault frame) s = .next t ∧ rbit t R.mgtEvents 2 = true
    ∧ rbit t R.glbAlertStatus 16 = true ∧ rdN t R.mgtMmfaultCount = min (rdN s R.mgtMmfaultCount + 1) 0xFFFFFFFF
    ∧ (frame = true → t.mgt.lost = true) ∧ t.out = s.out ++ [.mgtCs true, .mgtCs false])

/-- R521–R529, R538, R539: at the end of a window the congestion map of every port is written to its history slot; a SURVEY
request is answered and a response stored, or counted where its check is wrong; the first item of the copy buffer whose
place is known goes out with a tag, or waits for one. -/
def Obligations.MapsAndCopies : Prop := ∀ s : State, s.Ready →
  (mapDue s = true → ∃ t, exec .mapWindowEnd s = .next t ∧ t.map.window = mtcN s / 4096 * 4096 ∧ t.map.last = s.map.window ∧ t.tel = []
    ∧ (telOn s = false → t.regs = s.regs)
    ∧ (∀ n, telOn s = true → 4 ≤ n → n ≤ 30 → (tget {} n s.tel).hist.length = 8 →
      mapRead t n (mapSlot s.map.window) = mapRecord s n))
  ∧ (∀ s1 n b c, deliveredCell n b s = some (s1, c) → c = parseCell b → wMcast c = false → wType c = 10 →
    (payloadOk c = false → fieldBE c.payload 0 1 = 1 → ∃ t, exec (.mapReq n b) s = .next t ∧ t.ports = s1.ports
      ∧ rdN t R.telSvyBadCount = min (rdN s1 R.telSvyBadCount + 1) 0xFFFFFFFF ∧ rbit t R.telSvyEvents 2 = true)
    ∧ (payloadOk c = true → fieldBE c.payload 0 1 = 1 → trusted s1 n c = false →
      ∃ t u, exec (.mapReq n b) s = .next t ∧ u = svyRespond c 1 0 1 [] s1 ∧ t.ports = u.ports ∧ t.waiting = u.waiting ∧ t.localQ = u.localQ)
    ∧ (∀ p w, payloadOk c = true → fieldBE c.payload 0 1 = 1 → trusted s1 n c = true → mapReqOk c.payload = true → fieldBE c.payload 5 1 = 1 →
      p = fieldBE c.payload 4 1 → w = (if fieldBE c.payload 6 1 = 1 then s1.map.last else fieldBE c.payload 8 8) →
      fieldLE (mapRead s1 p (mapSlot w)) 0 8 = w → fieldLE (mapRead s1 p (mapSlot w)) 8 1 = p →
      ∃ t u, exec (.mapReq n b) s = .next t ∧ u = svyRespond c 0 0 1 (mapBE (mapRead s1 p (mapSlot w))) s1
        ∧ t.ports = u.ports ∧ t.waiting = u.waiting ∧ t.localQ = u.localQ)
    ∧ (payloadOk c = true → fieldBE c.payload 0 1 = 2 →
      ((rd s1 R.telSvyRxHead - rd s1 R.telSvyRxTail).toNat ≠ 32 →
        ∃ t, exec (.mapRsp n b) s = .next t ∧ rd t R.telSvyRxHead = rd s1 R.telSvyRxHead + 1
          ∧ rdN t (R.telSvyRx (rdN s1 R.telSvyRxHead % 32) 16) = wSrc c
          ∧ ∀ w, w < 16 → rdN t (R.telSvyRx (rdN s1 R.telSvyRxHead % 32) w) = fieldBE c.payload (4 * w) 4)
      ∧ ((rd s1 R.telSvyRxHead - rd s1 R.telSvyRxTail).toNat = 32 →
        ∃ t, exec (.mapRsp n b) s = .next t ∧ rbit t R.telSvyEvents 1 = true ∧ ∀ a, a ≠ R.telSvyEvents → rd t a = rd s1 a)))
  ∧ (∀ i, s.Quiet → s.copyBuf.find? (fun i => i.off.isSome) = some i → usable s false 20 = true →
    (tagRoom s i.stream 16 .put = true →
      ∃ t, exec .dataCopy s = .next t ∧ t.copyBuf = s.copyBuf.erase i ∧ t.tags.length = s.tags.length + 1)
    ∧ (tagRoom s i.stream 16 .put = false → ∃ t, exec .dataCopy s = .next t ∧ t.copyBuf = s.copyBuf ∧ t.tags = s.tags
      ∧ t.regs = s.regs ∧ .copy ∈ t.waits))

/-- R542, R543, R546: GO tests the stream and the capture and gives the result of the first test that fails; a replay that
is ready runs and counts its mismatches; the end of a replay leaves its result, and its stream IDLE. -/
def Obligations.Replays : Prop := ∀ s : State, s.Ready →
  (∀ reads, s.replay = none → (isolated s (rfld s R.rplRunStream 7 0) = false ∨ ownerOf s (rfld s R.rplRunStream 7 0) = none) →
    ∃ t, exec (.replayStart reads) s = .next t ∧ t.replay = none ∧ rfld t R.rplResult 7 4 = 4 ∧ rbit t R.rplEvents 2 = true
      ∧ t.streams = s.streams ∧ rdN t R.rplMismatchCount = 0)
  ∧ (∀ reads k n, s.replay = none → k = rfld s R.rplRunStream 7 0 → isolated s k = true → ownerOf s k = some n → (str s k).st = .idle →
    (ringUnits s = 0 ∨ unitHeld s (rdN s R.rplRunCapture) = false ∨ unitKind s (rdN s R.rplRunCapture) ≠ 1) →
    ∃ t, exec (.replayStart reads) s = .next t ∧ t.replay = none ∧ rfld t R.rplResult 7 4 = 5 ∧ rbit t R.rplEvents 2 = true
      ∧ t.streams = s.streams)
  ∧ (∀ reads r, s.replay = some r → r.ready = false →
    ∃ t, exec (.replayStart reads) s = .next t ∧ rbit t R.rplEvents 4 = true ∧ t.replay = s.replay ∧ t.streams = s.streams)
  ∧ (∀ reads r, s.replay = some r → r.ready = true →
    ∃ t q, exec (.replayStart reads) s = .next t ∧ t.replay = some q ∧ q.ready = false ∧ q.stream = r.stream ∧ q.cap = r.cap
      ∧ rdN t R.rplMismatchCount = q.mism % 2 ^ 32 ∧ (q.mism = 0 → q.first = none))
  ∧ (∀ r, replayOver s = true → s.replay = some r → r.cap < 65536 →
    ∃ t, exec .replayDone s = .next t ∧ t.replay = none ∧ (str t r.stream).st = .idle ∧ rbit t R.rplEvents 2 = true
      ∧ rfld t R.rplResult 31 16 = r.cap
      ∧ (r.fault = none → r.first = none → rfld t R.rplResult 7 4 = 0)
      ∧ (∀ f, r.fault = some f → rfld t R.rplResult 7 4 = 3 ∧ rdN t R.rplFault = f % 2 ^ 32)
      ∧ (r.mism ≠ 0 → rbit t R.rplEvents 3 = true) ∧ ∀ k, k ≠ r.stream → str t k = str s k)
  ∧ (exec .replayDone { s with replay := none } = .next { s with replay := none })

end
end

