-- ==== Sys2Proof/Laws/Tbl.lean ====
section
/-! SUPPORT. Sparse tables: read after write, other keys untouched, and keys that go on rising. -/
namespace Sys2Proof.Machine

variable {α : Type}

@[simp] theorem tfind_nil (k : Nat) : tfind k ([] : Tbl α) = none := rfl

@[simp] theorem tget_nil (d : α) (k : Nat) : tget d k [] = d := rfl

theorem tfind_tdel_self (k : Nat) (t : Tbl α) : tfind k (tdel k t) = none := by
  induction t with
  | nil => rfl
  | cons h t ih =>
    obtain ⟨j, v⟩ := h
    by_cases e : j = k <;> simp [tdel, tfind, e, ih]

theorem tfind_tdel_ne {k j : Nat} (h : j ≠ k) (t : Tbl α) : tfind j (tdel k t) = tfind j t := by
  induction t with
  | nil => rfl
  | cons x t ih =>
    obtain ⟨i, v⟩ := x
    by_cases e : i = k
    · subst e; simp [tdel, tfind, ih, Ne.symm h]
    · simp only [tdel, e, if_false, tfind, ih]

theorem tfind_tput_ne {k j : Nat} (h : j ≠ k) (v : α) (t : Tbl α) : tfind j (tput k v t) = tfind j t := by
  induction t with
  | nil => simp [tput, tfind, Ne.symm h]
  | cons x t ih =>
    obtain ⟨i, w⟩ := x
    by_cases e : k < i
    · simp [tput, e, tfind, Ne.symm h]
    · simp only [tput, e, if_false, tfind, ih]

theorem tfind_tput_self {k : Nat} (v : α) (t : Tbl α) (h : tfind k t = none) : tfind k (tput k v t) = some v := by
  induction t with
  | nil => simp [tput, tfind]
  | cons x t ih =>
    obtain ⟨i, w⟩ := x
    have e : i ≠ k := by intro e; simp [tfind, e] at h
    have h' : tfind k t = none := by simpa [tfind, e] using h
    by_cases l : k < i <;> simp [tput, l, tfind, e, ih h']

@[simp] theorem tget_tset_self (d : α) (k : Nat) (v : α) (t : Tbl α) : tget d k (tset k v t) = v := by
  simp [tget, tset, tfind_tput_self v _ (tfind_tdel_self k t)]

theorem tget_tset_ne (d : α) {k j : Nat} (h : j ≠ k) (v : α) (t : Tbl α) : tget d j (tset k v t) = tget d j t := by
  simp [tget, tset, tfind_tput_ne h, tfind_tdel_ne h]

/-- Reading a table after one write to it. -/
theorem tget_tset (d : α) (k j : Nat) (v : α) (t : Tbl α) :
    tget d j (tset k v t) = if j = k then v else tget d j t := by
  by_cases h : j = k
  · subst h; simp
  · simp [h, tget_tset_ne d h]

theorem tfind_tset (k j : Nat) (v : α) (t : Tbl α) : tfind j (tset k v t) = if j = k then some v else tfind j t := by
  by_cases h : j = k
  · subst h; simp [tset, tfind_tput_self v _ (tfind_tdel_self j t)]
  · simp [tset, h, tfind_tput_ne h, tfind_tdel_ne h]

/-- Reading a table of defaults after one write to it; `d` is the written key's default. -/
theorem tget_tsetD [DecidableEq α] (d d' : α) (k j : Nat) (v : α) (t : Tbl α) (hd : j = k → d' = d) :
    tget d' j (tsetD d k v t) = if j = k then v else tget d' j t := by
  unfold tsetD
  by_cases h : j = k
  · subst h
    by_cases e : v = d
    · simp [e, tget, tfind_tdel_self, hd rfl]
    · simp [e]
  · by_cases e : v = d
    · simp [e, h, tget, tfind_tdel_ne h]
    · simp [e, h, tget_tset_ne d' h]

/-- All keys are at least `k`. -/
def tabove (k : Nat) (t : Tbl α) : Prop := ∀ e ∈ t, k < e.1

theorem trising_cons {e : Nat × α} {t : Tbl α} : trising (e :: t) = true ↔ tabove e.1 t ∧ trising t = true := by
  induction t generalizing e with
  | nil => obtain ⟨i, v⟩ := e; simp [trising, tabove]
  | cons x t ih =>
    obtain ⟨i, v⟩ := e
    obtain ⟨j, w⟩ := x
    constructor
    · intro h
      simp only [trising, Bool.and_eq_true, decide_eq_true_eq] at h
      refine ⟨?_, h.2⟩
      intro y hy
      rcases List.mem_cons.1 hy with rfl | hy
      · exact h.1
      · exact lt_trans h.1 ((ih.1 h.2).1 y hy)
    · rintro ⟨h1, h2⟩
      simp only [trising, Bool.and_eq_true, decide_eq_true_eq]
      exact ⟨h1 (j, w) (by simp), h2⟩

theorem mem_tdel {k : Nat} {t : Tbl α} {e : Nat × α} (h : e ∈ tdel k t) : e ∈ t ∧ e.1 ≠ k := by
  induction t with
  | nil => simp [tdel] at h
  | cons x t ih =>
    obtain ⟨j, v⟩ := x
    by_cases c : j = k
    · simp only [tdel, c, if_true] at h
      exact ⟨List.mem_cons_of_mem _ (ih h).1, (ih h).2⟩
    · simp only [tdel, c, if_false] at h
      rcases List.mem_cons.1 h with rfl | h
      · exact ⟨by simp, c⟩
      · exact ⟨List.mem_cons_of_mem _ (ih h).1, (ih h).2⟩

theorem trising_tdel {k : Nat} {t : Tbl α} (h : trising t = true) : trising (tdel k t) = true := by
  induction t with
  | nil => rfl
  | cons x t ih =>
    obtain ⟨j, v⟩ := x
    have h' := trising_cons.1 h
    by_cases c : j = k
    · simp only [tdel, c, if_true]; exact ih h'.2
    · simp only [tdel, c, if_false]
      exact trising_cons.2 ⟨fun e he => h'.1 e (mem_tdel he).1, ih h'.2⟩

theorem mem_tput {k : Nat} {v : α} {t : Tbl α} {e : Nat × α} (h : e ∈ tput k v t) : e = (k, v) ∨ e ∈ t := by
  induction t with
  | nil => simp [tput] at h; exact Or.inl h
  | cons x t ih =>
    obtain ⟨j, w⟩ := x
    by_cases c : k < j
    · simp only [tput, c, if_true] at h
      rcases List.mem_cons.1 h with rfl | h
      · exact Or.inl rfl
      · exact Or.inr h
    · simp only [tput, c, if_false] at h
      rcases List.mem_cons.1 h with rfl | h
      · exact Or.inr (by simp)
      · exact (ih h).imp id (List.mem_cons_of_mem _)

theorem trising_tput {k : Nat} {v : α} {t : Tbl α} (h : trising t = true) (hk : ∀ e ∈ t, e.1 ≠ k) :
    trising (tput k v t) = true := by
  induction t with
  | nil => rfl
  | cons x t ih =>
    obtain ⟨j, w⟩ := x
    have h' := trising_cons.1 h
    by_cases c : k < j
    · simp only [tput, c, if_true]
      refine trising_cons.2 ⟨?_, h⟩
      intro e he
      rcases List.mem_cons.1 he with rfl | he
      · exact c
      · exact lt_trans c (h'.1 e he)
    · simp only [tput, c, if_false]
      refine trising_cons.2 ⟨?_, ih h'.2 (fun e he => hk e (List.mem_cons_of_mem _ he))⟩
      intro e he
      rcases mem_tput he with rfl | he
      · have := hk (j, w) (by simp); simp only at this ⊢; omega
      · exact h'.1 e he

theorem trising_tset {k : Nat} {v : α} {t : Tbl α} (h : trising t = true) : trising (tset k v t) = true :=
  trising_tput (trising_tdel h) (fun _ he => (mem_tdel he).2)

theorem trising_tsetD [DecidableEq α] {d : α} {k : Nat} {v : α} {t : Tbl α} (h : trising t = true) :
    trising (tsetD d k v t) = true := by
  unfold tsetD
  split
  · exact trising_tdel h
  · exact trising_tset h

theorem trising_filter {t : Tbl α} (p : Nat × α → Bool) (h : trising t = true) : trising (t.filter p) = true := by
  induction t with
  | nil => rfl
  | cons x t ih =>
    have h' := trising_cons.1 h
    by_cases c : p x
    · rw [List.filter_cons_of_pos c]
      exact trising_cons.2 ⟨fun e he => h'.1 e (List.mem_filter.1 he).1, ih h'.2⟩
    · rw [List.filter_cons_of_neg c]; exact ih h'.2

end Sys2Proof.Machine
end

