-- ==== Sys2Proof/Laws/Memory.lean ====
section
/-! SUPPORT. The byte memories: every operation keeps the canonical form, a byte reads back as it was written, and the other
bytes are left alone. -/
namespace Sys2Proof.Machine

theorem noFill_iff {d : Byte} {m : List Host.Cell} : noFill d m = true ↔ ∀ e ∈ m, e.2 ≠ d := by
  induction m with
  | nil => simp [noFill]
  | cons x m ih => obtain ⟨a, b⟩ := x; simp [noFill, ih]

theorem Memory.wf_nil (d : Byte) : Memory.wf d [] = true := rfl

theorem Memory.wf_iff {d : Byte} {m : List Host.Cell} :
    Memory.wf d m = true ↔ trising m = true ∧ ∀ e ∈ m, e.2 ≠ d := by
  rw [Memory.wf, Bool.and_eq_true, noFill_iff]

/-- Writing a byte keeps the canonical form. -/
theorem Memory.wf_set {d : Byte} {m : List Host.Cell} (a : Nat) (b : Byte) (h : Memory.wf d m = true) :
    Memory.wf d (Memory.set d m a b) = true := by
  obtain ⟨h1, h2⟩ := Memory.wf_iff.1 h
  refine Memory.wf_iff.2 ⟨trising_tsetD h1, ?_⟩
  intro e he
  unfold Memory.set tsetD at he
  split at he
  · exact h2 e (mem_tdel he).1
  · rename_i hb
    rcases mem_tput he with rfl | he
    · exact hb
    · exact h2 e (mem_tdel he).1

/-- Writing bytes keeps the canonical form. -/
theorem Memory.wf_put {d : Byte} (l : List Byte) {m : List Host.Cell} (a : Nat) (h : Memory.wf d m = true) :
    Memory.wf d (Memory.put d m a l) = true := by
  induction l generalizing m a with
  | nil => exact h
  | cons b l ih => exact ih (a + 1) (Memory.wf_set a b h)

/-- Clearing bytes keeps the canonical form. -/
theorem Memory.wf_clear {d : Byte} {m : List Host.Cell} (a n : Nat) (h : Memory.wf d m = true) :
    Memory.wf d (Memory.clear m a n) = true := by
  obtain ⟨h1, h2⟩ := Memory.wf_iff.1 h
  exact Memory.wf_iff.2 ⟨trising_filter _ h1, fun e he => h2 e (List.mem_filter.1 he).1⟩

theorem Memory.wf_write {d : Byte} {m : List Host.Cell} (w : MemWrite) (h : Memory.wf d m = true) :
    Memory.wf d (Memory.write d m w) = true := by
  unfold Memory.write
  split
  · exact Memory.wf_put _ _ h
  · exact Memory.wf_clear _ _ h

/-- Applying a command's writes keeps the canonical form. -/
theorem Memory.wf_apply {fl : Bool} {d : Byte} (l : List MemWrite) {m : List Host.Cell} (h : Memory.wf d m = true) :
    Memory.wf d (Memory.apply fl d m l) = true := by
  induction l generalizing m with
  | nil => exact h
  | cons w l ih =>
    unfold Memory.apply
    split
    · exact ih (Memory.wf_write w h)
    · exact ih h

@[simp] theorem Memory.apply_nil (fl : Bool) (d : Byte) (m : List Host.Cell) : Memory.apply fl d m [] = m := rfl

/-- Reading a byte after one write. -/
theorem Memory.get_set (d : Byte) (m : List Host.Cell) (a b : Nat) (v : Byte) :
    Memory.get d (Memory.set d m a v) b = if b = a then v else Memory.get d m b :=
  tget_tsetD d d a b v m (fun _ => rfl)

/-- Bytes below the first written one are left alone. -/
theorem Memory.get_put_below (d : Byte) (l : List Byte) (m : List Host.Cell) (a b : Nat) (h : b < a) :
    Memory.get d (Memory.put d m a l) b = Memory.get d m b := by
  induction l generalizing m a with
  | nil => rfl
  | cons v l ih => rw [Memory.put, ih _ _ (by omega), Memory.get_set, if_neg (by omega)]

/-- Reading a byte after bytes were written. -/
theorem Memory.get_put (d : Byte) (l : List Byte) (m : List Host.Cell) (a b : Nat) :
    Memory.get d (Memory.put d m a l) b = if a ≤ b ∧ b < a + l.length then l.getD (b - a) 0 else Memory.get d m b := by
  induction l generalizing m a with
  | nil => simp [Memory.put]
  | cons v l ih =>
    rw [Memory.put, ih, Memory.get_set]
    by_cases c : b = a
    · subst c; simp
    · by_cases c2 : a + 1 ≤ b ∧ b < a + 1 + l.length
      · have e : b - a = (b - (a + 1)) + 1 := by omega
        rw [if_pos c2, if_pos (by simp; omega), e]; simp
      · rw [if_neg c2, if_neg c, if_neg (by simp; omega)]

end Sys2Proof.Machine
end

