-- ==== Sys2Proof/Laws/Exec.lean ====
section
/-! SUPPORT. What every command leaves alone: the queue, the canonical form of the memories, machine time. -/
namespace Sys2Proof.Machine

@[simp] theorem commit_pending (b : Bool) (s0 s1 : State) : (commit b s0 s1).pending = s0.pending := rfl
@[simp] theorem commit_writes (b : Bool) (s0 s1 : State) : (commit b s0 s1).writes = [] := rfl
@[simp] theorem commit_t_false (s0 s1 : State) : (commit false s0 s1).t = s0.t := rfl
@[simp] theorem commit_t_true (s0 s1 : State) : (commit true s0 s1).t = s1.t := rfl
@[simp] theorem commit_regs (b : Bool) (s0 s1 : State) : (commit b s0 s1).regs = s1.regs := rfl
@[simp] theorem commit_ports (b : Bool) (s0 s1 : State) : (commit b s0 s1).ports = s1.ports := rfl
@[simp] theorem commit_streams (b : Bool) (s0 s1 : State) : (commit b s0 s1).streams = s1.streams := rfl
@[simp] theorem commit_pars (b : Bool) (s0 s1 : State) : (commit b s0 s1).pars = s1.pars := rfl
@[simp] theorem commit_rd (b : Bool) (s0 s1 : State) (a : Nat) : rd (commit b s0 s1) a = rd s1 a := rfl
@[simp] theorem commit_rdN (b : Bool) (s0 s1 : State) (a : Nat) : rdN (commit b s0 s1) a = rdN s1 a := rfl
@[simp] theorem commit_rbit (b : Bool) (s0 s1 : State) (a i : Nat) : rbit (commit b s0 s1) a i = rbit s1 a i := rfl
@[simp] theorem commit_rfld (b : Bool) (s0 s1 : State) (a hi lo : Nat) :
    rfld (commit b s0 s1) a hi lo = rfld s1 a hi lo := rfl
@[simp] theorem commit_port (b : Bool) (s0 s1 : State) (n : Nat) : port (commit b s0 s1) n = port s1 n := rfl
@[simp] theorem commit_str (b : Bool) (s0 s1 : State) (n : Nat) : str (commit b s0 s1) n = str s1 n := rfl
@[simp] theorem commit_par (b : Bool) (s0 s1 : State) (n : Nat) : par (commit b s0 s1) n = par s1 n := rfl

/-- The memories a command leaves are in canonical form if those it found were. -/
theorem commit_wf (b : Bool) (s0 s1 : State) (h1 : Memory.wf stgFill s0.stg = true) (h2 : Memory.wf flashFill s0.flash = true) :
    Memory.wf stgFill (commit b s0 s1).stg = true ∧ Memory.wf flashFill (commit b s0 s1).flash = true :=
  ⟨Memory.wf_apply _ h1, Memory.wf_apply _ h2⟩

/-- A command that is not one of time answers a next state that keeps the queue and machine time. -/
theorem run_next (f : State → State) (s : State) : ∃ t, run f s = .next t ∧ t.pending = s.pending ∧ t.t = s.t ∧ t.writes = [] :=
  ⟨_, rfl, rfl, rfl, rfl⟩

/-- What a meaning answers while the engine is in cold reset: the state as it was. -/
theorem run_cold (f : State → State) (s : State) (h : s.rst.cold = true) : run f s = .next { s with writes := [] } := by
  simp [run, live, h, commit]

theorem runT_cold (f : State → State) (s : State) (h : s.rst.cold = true) : runT f s = .next { s with writes := [] } := by
  simp [runT, live, h, commit]

/-- What a meaning answers otherwise. -/
theorem run_live (f : State → State) (s : State) (h : s.rst.cold = false) (w : s.writes = []) :
    run f s = .next (commit false s (f s)) := by
  have e : ({ s with writes := [] } : State) = s := by rw [← w]
  simp [run, live, e, h]

theorem runT_live (f : State → State) (s : State) (h : s.rst.cold = false) (w : s.writes = []) :
    runT f s = .next (commit true s (f s)) := by
  have e : ({ s with writes := [] } : State) = s := by rw [← w]
  simp [runT, live, e, h]

theorem runPin_eq (f : State → State) (s : State) (w : s.writes = []) : runPin f s = .next (commit true s (f s)) := by
  have e : ({ s with writes := [] } : State) = s := by rw [← w]
  simp [runPin, e]

end Sys2Proof.Machine
end

