-- ==== Sys2Proof/Laws/State.lean ====
section
/-! SUPPORT. One lemma per field per update of the state, true by unfolding the update once. -/
namespace Sys2Proof.Machine

@[simp] theorem wr_pending (a : Nat) (v : Word) (s : State) : (wr a v s).pending = s.pending := rfl
@[simp] theorem wr_writes (a : Nat) (v : Word) (s : State) : (wr a v s).writes = s.writes := rfl
@[simp] theorem wr_stg (a : Nat) (v : Word) (s : State) : (wr a v s).stg = s.stg := rfl
@[simp] theorem wr_flash (a : Nat) (v : Word) (s : State) : (wr a v s).flash = s.flash := rfl
@[simp] theorem wr_staged (a : Nat) (v : Word) (s : State) : (wr a v s).staged = s.staged := rfl
@[simp] theorem wr_bootPend (a : Nat) (v : Word) (s : State) : (wr a v s).bootPend = s.bootPend := rfl
@[simp] theorem wr_eccBad (a : Nat) (v : Word) (s : State) : (wr a v s).eccBad = s.eccBad := rfl
@[simp] theorem wr_stgBad (a : Nat) (v : Word) (s : State) : (wr a v s).stgBad = s.stgBad := rfl
@[simp] theorem wr_t (a : Nat) (v : Word) (s : State) : (wr a v s).t = s.t := rfl
@[simp] theorem wr_clk (a : Nat) (v : Word) (s : State) : (wr a v s).clk = s.clk := rfl
@[simp] theorem wr_roots (a : Nat) (v : Word) (s : State) : (wr a v s).roots = s.roots := rfl
@[simp] theorem wr_ports (a : Nat) (v : Word) (s : State) : (wr a v s).ports = s.ports := rfl
@[simp] theorem wr_waiting (a : Nat) (v : Word) (s : State) : (wr a v s).waiting = s.waiting := rfl
@[simp] theorem wr_waits (a : Nat) (v : Word) (s : State) : (wr a v s).waits = s.waits := rfl
@[simp] theorem wr_hold (a : Nat) (v : Word) (s : State) : (wr a v s).hold = s.hold := rfl
@[simp] theorem wr_notices (a : Nat) (v : Word) (s : State) : (wr a v s).notices = s.notices := rfl
@[simp] theorem wr_localQ (a : Nat) (v : Word) (s : State) : (wr a v s).localQ = s.localQ := rfl
@[simp] theorem wr_dets (a : Nat) (v : Word) (s : State) : (wr a v s).dets = s.dets := rfl
@[simp] theorem wr_jq (a : Nat) (v : Word) (s : State) : (wr a v s).jq = s.jq := rfl
@[simp] theorem wr_pushq (a : Nat) (v : Word) (s : State) : (wr a v s).pushq = s.pushq := rfl
@[simp] theorem wr_pseq (a : Nat) (v : Word) (s : State) : (wr a v s).pseq = s.pseq := rfl
@[simp] theorem wr_awl (a : Nat) (v : Word) (s : State) : (wr a v s).awl = s.awl := rfl
@[simp] theorem wr_ep (a : Nat) (v : Word) (s : State) : (wr a v s).ep = s.ep := rfl
@[simp] theorem wr_streams (a : Nat) (v : Word) (s : State) : (wr a v s).streams = s.streams := rfl
@[simp] theorem wr_pars (a : Nat) (v : Word) (s : State) : (wr a v s).pars = s.pars := rfl
@[simp] theorem wr_asms (a : Nat) (v : Word) (s : State) : (wr a v s).asms = s.asms := rfl
@[simp] theorem wr_landed (a : Nat) (v : Word) (s : State) : (wr a v s).landed = s.landed := rfl
@[simp] theorem wr_receipts (a : Nat) (v : Word) (s : State) : (wr a v s).receipts = s.receipts := rfl
@[simp] theorem wr_tags (a : Nat) (v : Word) (s : State) : (wr a v s).tags = s.tags := rfl
@[simp] theorem wr_slots (a : Nat) (v : Word) (s : State) : (wr a v s).slots = s.slots := rfl
@[simp] theorem wr_orders (a : Nat) (v : Word) (s : State) : (wr a v s).orders = s.orders := rfl
@[simp] theorem wr_gets (a : Nat) (v : Word) (s : State) : (wr a v s).gets = s.gets := rfl
@[simp] theorem wr_txns (a : Nat) (v : Word) (s : State) : (wr a v s).txns = s.txns := rfl
@[simp] theorem wr_pkgSet (a : Nat) (v : Word) (s : State) : (wr a v s).pkgSet = s.pkgSet := rfl
@[simp] theorem wr_lostPuts (a : Nat) (v : Word) (s : State) : (wr a v s).lostPuts = s.lostPuts := rfl
@[simp] theorem wr_stagedNow (a : Nat) (v : Word) (s : State) : (wr a v s).stagedNow = s.stagedNow := rfl
@[simp] theorem wr_pkgWrote (a : Nat) (v : Word) (s : State) : (wr a v s).pkgWrote = s.pkgWrote := rfl
@[simp] theorem wr_txnId (a : Nat) (v : Word) (s : State) : (wr a v s).txnId = s.txnId := rfl
@[simp] theorem wr_signals (a : Nat) (v : Word) (s : State) : (wr a v s).signals = s.signals := rfl
@[simp] theorem wr_latches (a : Nat) (v : Word) (s : State) : (wr a v s).latches = s.latches := rfl
@[simp] theorem wr_tel (a : Nat) (v : Word) (s : State) : (wr a v s).tel = s.tel := rfl
@[simp] theorem wr_caps (a : Nat) (v : Word) (s : State) : (wr a v s).caps = s.caps := rfl
@[simp] theorem wr_copyBuf (a : Nat) (v : Word) (s : State) : (wr a v s).copyBuf = s.copyBuf := rfl
@[simp] theorem wr_replay (a : Nat) (v : Word) (s : State) : (wr a v s).replay = s.replay := rfl
@[simp] theorem wr_boot (a : Nat) (v : Word) (s : State) : (wr a v s).boot = s.boot := rfl
@[simp] theorem wr_rst (a : Nat) (v : Word) (s : State) : (wr a v s).rst = s.rst := rfl
@[simp] theorem wr_fl (a : Nat) (v : Word) (s : State) : (wr a v s).fl = s.fl := rfl
@[simp] theorem wr_mgt (a : Nat) (v : Word) (s : State) : (wr a v s).mgt = s.mgt := rfl
@[simp] theorem wr_mgr (a : Nat) (v : Word) (s : State) : (wr a v s).mgr = s.mgr := rfl
@[simp] theorem wr_map (a : Nat) (v : Word) (s : State) : (wr a v s).map = s.map := rfl
@[simp] theorem wr_touch (a : Nat) (v : Word) (s : State) : (wr a v s).touch = s.touch := rfl
@[simp] theorem wr_tblOld (a : Nat) (v : Word) (s : State) : (wr a v s).tblOld = s.tblOld := rfl
@[simp] theorem wr_free (a : Nat) (v : Word) (s : State) : (wr a v s).free = s.free := rfl
@[simp] theorem wr_out (a : Nat) (v : Word) (s : State) : (wr a v s).out = s.out := rfl

@[simp] theorem wrN_pending (a n : Nat) (s : State) : (wrN a n s).pending = s.pending := rfl
@[simp] theorem wrN_writes (a n : Nat) (s : State) : (wrN a n s).writes = s.writes := rfl
@[simp] theorem wrN_stg (a n : Nat) (s : State) : (wrN a n s).stg = s.stg := rfl
@[simp] theorem wrN_flash (a n : Nat) (s : State) : (wrN a n s).flash = s.flash := rfl
@[simp] theorem wrN_staged (a n : Nat) (s : State) : (wrN a n s).staged = s.staged := rfl
@[simp] theorem wrN_bootPend (a n : Nat) (s : State) : (wrN a n s).bootPend = s.bootPend := rfl
@[simp] theorem wrN_eccBad (a n : Nat) (s : State) : (wrN a n s).eccBad = s.eccBad := rfl
@[simp] theorem wrN_stgBad (a n : Nat) (s : State) : (wrN a n s).stgBad = s.stgBad := rfl
@[simp] theorem wrN_t (a n : Nat) (s : State) : (wrN a n s).t = s.t := rfl
@[simp] theorem wrN_clk (a n : Nat) (s : State) : (wrN a n s).clk = s.clk := rfl
@[simp] theorem wrN_roots (a n : Nat) (s : State) : (wrN a n s).roots = s.roots := rfl
@[simp] theorem wrN_ports (a n : Nat) (s : State) : (wrN a n s).ports = s.ports := rfl
@[simp] theorem wrN_waiting (a n : Nat) (s : State) : (wrN a n s).waiting = s.waiting := rfl
@[simp] theorem wrN_waits (a n : Nat) (s : State) : (wrN a n s).waits = s.waits := rfl
@[simp] theorem wrN_hold (a n : Nat) (s : State) : (wrN a n s).hold = s.hold := rfl
@[simp] theorem wrN_notices (a n : Nat) (s : State) : (wrN a n s).notices = s.notices := rfl
@[simp] theorem wrN_localQ (a n : Nat) (s : State) : (wrN a n s).localQ = s.localQ := rfl
@[simp] theorem wrN_dets (a n : Nat) (s : State) : (wrN a n s).dets = s.dets := rfl
@[simp] theorem wrN_jq (a n : Nat) (s : State) : (wrN a n s).jq = s.jq := rfl
@[simp] theorem wrN_pushq (a n : Nat) (s : State) : (wrN a n s).pushq = s.pushq := rfl
@[simp] theorem wrN_pseq (a n : Nat) (s : State) : (wrN a n s).pseq = s.pseq := rfl
@[simp] theorem wrN_awl (a n : Nat) (s : State) : (wrN a n s).awl = s.awl := rfl
@[simp] theorem wrN_ep (a n : Nat) (s : State) : (wrN a n s).ep = s.ep := rfl
@[simp] theorem wrN_streams (a n : Nat) (s : State) : (wrN a n s).streams = s.streams := rfl
@[simp] theorem wrN_pars (a n : Nat) (s : State) : (wrN a n s).pars = s.pars := rfl
@[simp] theorem wrN_asms (a n : Nat) (s : State) : (wrN a n s).asms = s.asms := rfl
@[simp] theorem wrN_landed (a n : Nat) (s : State) : (wrN a n s).landed = s.landed := rfl
@[simp] theorem wrN_receipts (a n : Nat) (s : State) : (wrN a n s).receipts = s.receipts := rfl
@[simp] theorem wrN_tags (a n : Nat) (s : State) : (wrN a n s).tags = s.tags := rfl
@[simp] theorem wrN_slots (a n : Nat) (s : State) : (wrN a n s).slots = s.slots := rfl
@[simp] theorem wrN_orders (a n : Nat) (s : State) : (wrN a n s).orders = s.orders := rfl
@[simp] theorem wrN_gets (a n : Nat) (s : State) : (wrN a n s).gets = s.gets := rfl
@[simp] theorem wrN_txns (a n : Nat) (s : State) : (wrN a n s).txns = s.txns := rfl
@[simp] theorem wrN_pkgSet (a n : Nat) (s : State) : (wrN a n s).pkgSet = s.pkgSet := rfl
@[simp] theorem wrN_lostPuts (a n : Nat) (s : State) : (wrN a n s).lostPuts = s.lostPuts := rfl
@[simp] theorem wrN_stagedNow (a n : Nat) (s : State) : (wrN a n s).stagedNow = s.stagedNow := rfl
@[simp] theorem wrN_pkgWrote (a n : Nat) (s : State) : (wrN a n s).pkgWrote = s.pkgWrote := rfl
@[simp] theorem wrN_txnId (a n : Nat) (s : State) : (wrN a n s).txnId = s.txnId := rfl
@[simp] theorem wrN_signals (a n : Nat) (s : State) : (wrN a n s).signals = s.signals := rfl
@[simp] theorem wrN_latches (a n : Nat) (s : State) : (wrN a n s).latches = s.latches := rfl
@[simp] theorem wrN_tel (a n : Nat) (s : State) : (wrN a n s).tel = s.tel := rfl
@[simp] theorem wrN_caps (a n : Nat) (s : State) : (wrN a n s).caps = s.caps := rfl
@[simp] theorem wrN_copyBuf (a n : Nat) (s : State) : (wrN a n s).copyBuf = s.copyBuf := rfl
@[simp] theorem wrN_replay (a n : Nat) (s : State) : (wrN a n s).replay = s.replay := rfl
@[simp] theorem wrN_boot (a n : Nat) (s : State) : (wrN a n s).boot = s.boot := rfl
@[simp] theorem wrN_rst (a n : Nat) (s : State) : (wrN a n s).rst = s.rst := rfl
@[simp] theorem wrN_fl (a n : Nat) (s : State) : (wrN a n s).fl = s.fl := rfl
@[simp] theorem wrN_mgt (a n : Nat) (s : State) : (wrN a n s).mgt = s.mgt := rfl
@[simp] theorem wrN_mgr (a n : Nat) (s : State) : (wrN a n s).mgr = s.mgr := rfl
@[simp] theorem wrN_map (a n : Nat) (s : State) : (wrN a n s).map = s.map := rfl
@[simp] theorem wrN_touch (a n : Nat) (s : State) : (wrN a n s).touch = s.touch := rfl
@[simp] theorem wrN_tblOld (a n : Nat) (s : State) : (wrN a n s).tblOld = s.tblOld := rfl
@[simp] theorem wrN_free (a n : Nat) (s : State) : (wrN a n s).free = s.free := rfl
@[simp] theorem wrN_out (a n : Nat) (s : State) : (wrN a n s).out = s.out := rfl

@[simp] theorem wfld_pending (a hi lo v : Nat) (s : State) : (wfld a hi lo v s).pending = s.pending := rfl
@[simp] theorem wfld_writes (a hi lo v : Nat) (s : State) : (wfld a hi lo v s).writes = s.writes := rfl
@[simp] theorem wfld_stg (a hi lo v : Nat) (s : State) : (wfld a hi lo v s).stg = s.stg := rfl
@[simp] theorem wfld_flash (a hi lo v : Nat) (s : State) : (wfld a hi lo v s).flash = s.flash := rfl
@[simp] theorem wfld_staged (a hi lo v : Nat) (s : State) : (wfld a hi lo v s).staged = s.staged := rfl
@[simp] theorem wfld_bootPend (a hi lo v : Nat) (s : State) : (wfld a hi lo v s).bootPend = s.bootPend := rfl
@[simp] theorem wfld_eccBad (a hi lo v : Nat) (s : State) : (wfld a hi lo v s).eccBad = s.eccBad := rfl
@[simp] theorem wfld_stgBad (a hi lo v : Nat) (s : State) : (wfld a hi lo v s).stgBad = s.stgBad := rfl
@[simp] theorem wfld_t (a hi lo v : Nat) (s : State) : (wfld a hi lo v s).t = s.t := rfl
@[simp] theorem wfld_clk (a hi lo v : Nat) (s : State) : (wfld a hi lo v s).clk = s.clk := rfl
@[simp] theorem wfld_roots (a hi lo v : Nat) (s : State) : (wfld a hi lo v s).roots = s.roots := rfl
@[simp] theorem wfld_ports (a hi lo v : Nat) (s : State) : (wfld a hi lo v s).ports = s.ports := rfl
@[simp] theorem wfld_waiting (a hi lo v : Nat) (s : State) : (wfld a hi lo v s).waiting = s.waiting := rfl
@[simp] theorem wfld_waits (a hi lo v : Nat) (s : State) : (wfld a hi lo v s).waits = s.waits := rfl
@[simp] theorem wfld_hold (a hi lo v : Nat) (s : State) : (wfld a hi lo v s).hold = s.hold := rfl
@[simp] theorem wfld_notices (a hi lo v : Nat) (s : State) : (wfld a hi lo v s).notices = s.notices := rfl
@[simp] theorem wfld_localQ (a hi lo v : Nat) (s : State) : (wfld a hi lo v s).localQ = s.localQ := rfl
@[simp] theorem wfld_dets (a hi lo v : Nat) (s : State) : (wfld a hi lo v s).dets = s.dets := rfl
@[simp] theorem wfld_jq (a hi lo v : Nat) (s : State) : (wfld a hi lo v s).jq = s.jq := rfl
@[simp] theorem wfld_pushq (a hi lo v : Nat) (s : State) : (wfld a hi lo v s).pushq = s.pushq := rfl
@[simp] theorem wfld_pseq (a hi lo v : Nat) (s : State) : (wfld a hi lo v s).pseq = s.pseq := rfl
@[simp] theorem wfld_awl (a hi lo v : Nat) (s : State) : (wfld a hi lo v s).awl = s.awl := rfl
@[simp] theorem wfld_ep (a hi lo v : Nat) (s : State) : (wfld a hi lo v s).ep = s.ep := rfl
@[simp] theorem wfld_streams (a hi lo v : Nat) (s : State) : (wfld a hi lo v s).streams = s.streams := rfl
@[simp] theorem wfld_pars (a hi lo v : Nat) (s : State) : (wfld a hi lo v s).pars = s.pars := rfl
@[simp] theorem wfld_asms (a hi lo v : Nat) (s : State) : (wfld a hi lo v s).asms = s.asms := rfl
@[simp] theorem wfld_landed (a hi lo v : Nat) (s : State) : (wfld a hi lo v s).landed = s.landed := rfl
@[simp] theorem wfld_receipts (a hi lo v : Nat) (s : State) : (wfld a hi lo v s).receipts = s.receipts := rfl
@[simp] theorem wfld_tags (a hi lo v : Nat) (s : State) : (wfld a hi lo v s).tags = s.tags := rfl
@[simp] theorem wfld_slots (a hi lo v : Nat) (s : State) : (wfld a hi lo v s).slots = s.slots := rfl
@[simp] theorem wfld_orders (a hi lo v : Nat) (s : State) : (wfld a hi lo v s).orders = s.orders := rfl
@[simp] theorem wfld_gets (a hi lo v : Nat) (s : State) : (wfld a hi lo v s).gets = s.gets := rfl
@[simp] theorem wfld_txns (a hi lo v : Nat) (s : State) : (wfld a hi lo v s).txns = s.txns := rfl
@[simp] theorem wfld_pkgSet (a hi lo v : Nat) (s : State) : (wfld a hi lo v s).pkgSet = s.pkgSet := rfl
@[simp] theorem wfld_lostPuts (a hi lo v : Nat) (s : State) : (wfld a hi lo v s).lostPuts = s.lostPuts := rfl
@[simp] theorem wfld_stagedNow (a hi lo v : Nat) (s : State) : (wfld a hi lo v s).stagedNow = s.stagedNow := rfl
@[simp] theorem wfld_pkgWrote (a hi lo v : Nat) (s : State) : (wfld a hi lo v s).pkgWrote = s.pkgWrote := rfl
@[simp] theorem wfld_txnId (a hi lo v : Nat) (s : State) : (wfld a hi lo v s).txnId = s.txnId := rfl
@[simp] theorem wfld_signals (a hi lo v : Nat) (s : State) : (wfld a hi lo v s).signals = s.signals := rfl
@[simp] theorem wfld_latches (a hi lo v : Nat) (s : State) : (wfld a hi lo v s).latches = s.latches := rfl
@[simp] theorem wfld_tel (a hi lo v : Nat) (s : State) : (wfld a hi lo v s).tel = s.tel := rfl
@[simp] theorem wfld_caps (a hi lo v : Nat) (s : State) : (wfld a hi lo v s).caps = s.caps := rfl
@[simp] theorem wfld_copyBuf (a hi lo v : Nat) (s : State) : (wfld a hi lo v s).copyBuf = s.copyBuf := rfl
@[simp] theorem wfld_replay (a hi lo v : Nat) (s : State) : (wfld a hi lo v s).replay = s.replay := rfl
@[simp] theorem wfld_boot (a hi lo v : Nat) (s : State) : (wfld a hi lo v s).boot = s.boot := rfl
@[simp] theorem wfld_rst (a hi lo v : Nat) (s : State) : (wfld a hi lo v s).rst = s.rst := rfl
@[simp] theorem wfld_fl (a hi lo v : Nat) (s : State) : (wfld a hi lo v s).fl = s.fl := rfl
@[simp] theorem wfld_mgt (a hi lo v : Nat) (s : State) : (wfld a hi lo v s).mgt = s.mgt := rfl
@[simp] theorem wfld_mgr (a hi lo v : Nat) (s : State) : (wfld a hi lo v s).mgr = s.mgr := rfl
@[simp] theorem wfld_map (a hi lo v : Nat) (s : State) : (wfld a hi lo v s).map = s.map := rfl
@[simp] theorem wfld_touch (a hi lo v : Nat) (s : State) : (wfld a hi lo v s).touch = s.touch := rfl
@[simp] theorem wfld_tblOld (a hi lo v : Nat) (s : State) : (wfld a hi lo v s).tblOld = s.tblOld := rfl
@[simp] theorem wfld_free (a hi lo v : Nat) (s : State) : (wfld a hi lo v s).free = s.free := rfl
@[simp] theorem wfld_out (a hi lo v : Nat) (s : State) : (wfld a hi lo v s).out = s.out := rfl

@[simp] theorem wbitAt_pending (a i : Nat) (b : Bool) (s : State) : (wbitAt a i b s).pending = s.pending := rfl
@[simp] theorem wbitAt_writes (a i : Nat) (b : Bool) (s : State) : (wbitAt a i b s).writes = s.writes := rfl
@[simp] theorem wbitAt_stg (a i : Nat) (b : Bool) (s : State) : (wbitAt a i b s).stg = s.stg := rfl
@[simp] theorem wbitAt_flash (a i : Nat) (b : Bool) (s : State) : (wbitAt a i b s).flash = s.flash := rfl
@[simp] theorem wbitAt_staged (a i : Nat) (b : Bool) (s : State) : (wbitAt a i b s).staged = s.staged := rfl
@[simp] theorem wbitAt_bootPend (a i : Nat) (b : Bool) (s : State) : (wbitAt a i b s).bootPend = s.bootPend := rfl
@[simp] theorem wbitAt_eccBad (a i : Nat) (b : Bool) (s : State) : (wbitAt a i b s).eccBad = s.eccBad := rfl
@[simp] theorem wbitAt_stgBad (a i : Nat) (b : Bool) (s : State) : (wbitAt a i b s).stgBad = s.stgBad := rfl
@[simp] theorem wbitAt_t (a i : Nat) (b : Bool) (s : State) : (wbitAt a i b s).t = s.t := rfl
@[simp] theorem wbitAt_clk (a i : Nat) (b : Bool) (s : State) : (wbitAt a i b s).clk = s.clk := rfl
@[simp] theorem wbitAt_roots (a i : Nat) (b : Bool) (s : State) : (wbitAt a i b s).roots = s.roots := rfl
@[simp] theorem wbitAt_ports (a i : Nat) (b : Bool) (s : State) : (wbitAt a i b s).ports = s.ports := rfl
@[simp] theorem wbitAt_waiting (a i : Nat) (b : Bool) (s : State) : (wbitAt a i b s).waiting = s.waiting := rfl
@[simp] theorem wbitAt_waits (a i : Nat) (b : Bool) (s : State) : (wbitAt a i b s).waits = s.waits := rfl
@[simp] theorem wbitAt_hold (a i : Nat) (b : Bool) (s : State) : (wbitAt a i b s).hold = s.hold := rfl
@[simp] theorem wbitAt_notices (a i : Nat) (b : Bool) (s : State) : (wbitAt a i b s).notices = s.notices := rfl
@[simp] theorem wbitAt_localQ (a i : Nat) (b : Bool) (s : State) : (wbitAt a i b s).localQ = s.localQ := rfl
@[simp] theorem wbitAt_dets (a i : Nat) (b : Bool) (s : State) : (wbitAt a i b s).dets = s.dets := rfl
@[simp] theorem wbitAt_jq (a i : Nat) (b : Bool) (s : State) : (wbitAt a i b s).jq = s.jq := rfl
@[simp] theorem wbitAt_pushq (a i : Nat) (b : Bool) (s : State) : (wbitAt a i b s).pushq = s.pushq := rfl
@[simp] theorem wbitAt_pseq (a i : Nat) (b : Bool) (s : State) : (wbitAt a i b s).pseq = s.pseq := rfl
@[simp] theorem wbitAt_awl (a i : Nat) (b : Bool) (s : State) : (wbitAt a i b s).awl = s.awl := rfl
@[simp] theorem wbitAt_ep (a i : Nat) (b : Bool) (s : State) : (wbitAt a i b s).ep = s.ep := rfl
@[simp] theorem wbitAt_streams (a i : Nat) (b : Bool) (s : State) : (wbitAt a i b s).streams = s.streams := rfl
@[simp] theorem wbitAt_pars (a i : Nat) (b : Bool) (s : State) : (wbitAt a i b s).pars = s.pars := rfl
@[simp] theorem wbitAt_asms (a i : Nat) (b : Bool) (s : State) : (wbitAt a i b s).asms = s.asms := rfl
@[simp] theorem wbitAt_landed (a i : Nat) (b : Bool) (s : State) : (wbitAt a i b s).landed = s.landed := rfl
@[simp] theorem wbitAt_receipts (a i : Nat) (b : Bool) (s : State) : (wbitAt a i b s).receipts = s.receipts := rfl
@[simp] theorem wbitAt_tags (a i : Nat) (b : Bool) (s : State) : (wbitAt a i b s).tags = s.tags := rfl
@[simp] theorem wbitAt_slots (a i : Nat) (b : Bool) (s : State) : (wbitAt a i b s).slots = s.slots := rfl
@[simp] theorem wbitAt_orders (a i : Nat) (b : Bool) (s : State) : (wbitAt a i b s).orders = s.orders := rfl
@[simp] theorem wbitAt_gets (a i : Nat) (b : Bool) (s : State) : (wbitAt a i b s).gets = s.gets := rfl
@[simp] theorem wbitAt_txns (a i : Nat) (b : Bool) (s : State) : (wbitAt a i b s).txns = s.txns := rfl
@[simp] theorem wbitAt_pkgSet (a i : Nat) (b : Bool) (s : State) : (wbitAt a i b s).pkgSet = s.pkgSet := rfl
@[simp] theorem wbitAt_lostPuts (a i : Nat) (b : Bool) (s : State) : (wbitAt a i b s).lostPuts = s.lostPuts := rfl
@[simp] theorem wbitAt_stagedNow (a i : Nat) (b : Bool) (s : State) : (wbitAt a i b s).stagedNow = s.stagedNow := rfl
@[simp] theorem wbitAt_pkgWrote (a i : Nat) (b : Bool) (s : State) : (wbitAt a i b s).pkgWrote = s.pkgWrote := rfl
@[simp] theorem wbitAt_txnId (a i : Nat) (b : Bool) (s : State) : (wbitAt a i b s).txnId = s.txnId := rfl
@[simp] theorem wbitAt_signals (a i : Nat) (b : Bool) (s : State) : (wbitAt a i b s).signals = s.signals := rfl
@[simp] theorem wbitAt_latches (a i : Nat) (b : Bool) (s : State) : (wbitAt a i b s).latches = s.latches := rfl
@[simp] theorem wbitAt_tel (a i : Nat) (b : Bool) (s : State) : (wbitAt a i b s).tel = s.tel := rfl
@[simp] theorem wbitAt_caps (a i : Nat) (b : Bool) (s : State) : (wbitAt a i b s).caps = s.caps := rfl
@[simp] theorem wbitAt_copyBuf (a i : Nat) (b : Bool) (s : State) : (wbitAt a i b s).copyBuf = s.copyBuf := rfl
@[simp] theorem wbitAt_replay (a i : Nat) (b : Bool) (s : State) : (wbitAt a i b s).replay = s.replay := rfl
@[simp] theorem wbitAt_boot (a i : Nat) (b : Bool) (s : State) : (wbitAt a i b s).boot = s.boot := rfl
@[simp] theorem wbitAt_rst (a i : Nat) (b : Bool) (s : State) : (wbitAt a i b s).rst = s.rst := rfl
@[simp] theorem wbitAt_fl (a i : Nat) (b : Bool) (s : State) : (wbitAt a i b s).fl = s.fl := rfl
@[simp] theorem wbitAt_mgt (a i : Nat) (b : Bool) (s : State) : (wbitAt a i b s).mgt = s.mgt := rfl
@[simp] theorem wbitAt_mgr (a i : Nat) (b : Bool) (s : State) : (wbitAt a i b s).mgr = s.mgr := rfl
@[simp] theorem wbitAt_map (a i : Nat) (b : Bool) (s : State) : (wbitAt a i b s).map = s.map := rfl
@[simp] theorem wbitAt_touch (a i : Nat) (b : Bool) (s : State) : (wbitAt a i b s).touch = s.touch := rfl
@[simp] theorem wbitAt_tblOld (a i : Nat) (b : Bool) (s : State) : (wbitAt a i b s).tblOld = s.tblOld := rfl
@[simp] theorem wbitAt_free (a i : Nat) (b : Bool) (s : State) : (wbitAt a i b s).free = s.free := rfl
@[simp] theorem wbitAt_out (a i : Nat) (b : Bool) (s : State) : (wbitAt a i b s).out = s.out := rfl

@[simp] theorem touch_pending (a v : Nat) (s : State) : (touch a v s).pending = s.pending := rfl
@[simp] theorem touch_writes (a v : Nat) (s : State) : (touch a v s).writes = s.writes := rfl
@[simp] theorem touch_stg (a v : Nat) (s : State) : (touch a v s).stg = s.stg := rfl
@[simp] theorem touch_flash (a v : Nat) (s : State) : (touch a v s).flash = s.flash := rfl
@[simp] theorem touch_regs (a v : Nat) (s : State) : (touch a v s).regs = s.regs := rfl
@[simp] theorem touch_staged (a v : Nat) (s : State) : (touch a v s).staged = s.staged := rfl
@[simp] theorem touch_bootPend (a v : Nat) (s : State) : (touch a v s).bootPend = s.bootPend := rfl
@[simp] theorem touch_eccBad (a v : Nat) (s : State) : (touch a v s).eccBad = s.eccBad := rfl
@[simp] theorem touch_stgBad (a v : Nat) (s : State) : (touch a v s).stgBad = s.stgBad := rfl
@[simp] theorem touch_t (a v : Nat) (s : State) : (touch a v s).t = s.t := rfl
@[simp] theorem touch_clk (a v : Nat) (s : State) : (touch a v s).clk = s.clk := rfl
@[simp] theorem touch_roots (a v : Nat) (s : State) : (touch a v s).roots = s.roots := rfl
@[simp] theorem touch_ports (a v : Nat) (s : State) : (touch a v s).ports = s.ports := rfl
@[simp] theorem touch_waiting (a v : Nat) (s : State) : (touch a v s).waiting = s.waiting := rfl
@[simp] theorem touch_waits (a v : Nat) (s : State) : (touch a v s).waits = s.waits := rfl
@[simp] theorem touch_hold (a v : Nat) (s : State) : (touch a v s).hold = s.hold := rfl
@[simp] theorem touch_notices (a v : Nat) (s : State) : (touch a v s).notices = s.notices := rfl
@[simp] theorem touch_localQ (a v : Nat) (s : State) : (touch a v s).localQ = s.localQ := rfl
@[simp] theorem touch_dets (a v : Nat) (s : State) : (touch a v s).dets = s.dets := rfl
@[simp] theorem touch_jq (a v : Nat) (s : State) : (touch a v s).jq = s.jq := rfl
@[simp] theorem touch_pushq (a v : Nat) (s : State) : (touch a v s).pushq = s.pushq := rfl
@[simp] theorem touch_pseq (a v : Nat) (s : State) : (touch a v s).pseq = s.pseq := rfl
@[simp] theorem touch_awl (a v : Nat) (s : State) : (touch a v s).awl = s.awl := rfl
@[simp] theorem touch_ep (a v : Nat) (s : State) : (touch a v s).ep = s.ep := rfl
@[simp] theorem touch_streams (a v : Nat) (s : State) : (touch a v s).streams = s.streams := rfl
@[simp] theorem touch_pars (a v : Nat) (s : State) : (touch a v s).pars = s.pars := rfl
@[simp] theorem touch_asms (a v : Nat) (s : State) : (touch a v s).asms = s.asms := rfl
@[simp] theorem touch_landed (a v : Nat) (s : State) : (touch a v s).landed = s.landed := rfl
@[simp] theorem touch_receipts (a v : Nat) (s : State) : (touch a v s).receipts = s.receipts := rfl
@[simp] theorem touch_tags (a v : Nat) (s : State) : (touch a v s).tags = s.tags := rfl
@[simp] theorem touch_slots (a v : Nat) (s : State) : (touch a v s).slots = s.slots := rfl
@[simp] theorem touch_orders (a v : Nat) (s : State) : (touch a v s).orders = s.orders := rfl
@[simp] theorem touch_gets (a v : Nat) (s : State) : (touch a v s).gets = s.gets := rfl
@[simp] theorem touch_txns (a v : Nat) (s : State) : (touch a v s).txns = s.txns := rfl
@[simp] theorem touch_pkgSet (a v : Nat) (s : State) : (touch a v s).pkgSet = s.pkgSet := rfl
@[simp] theorem touch_lostPuts (a v : Nat) (s : State) : (touch a v s).lostPuts = s.lostPuts := rfl
@[simp] theorem touch_stagedNow (a v : Nat) (s : State) : (touch a v s).stagedNow = s.stagedNow := rfl
@[simp] theorem touch_pkgWrote (a v : Nat) (s : State) : (touch a v s).pkgWrote = s.pkgWrote := rfl
@[simp] theorem touch_txnId (a v : Nat) (s : State) : (touch a v s).txnId = s.txnId := rfl
@[simp] theorem touch_signals (a v : Nat) (s : State) : (touch a v s).signals = s.signals := rfl
@[simp] theorem touch_latches (a v : Nat) (s : State) : (touch a v s).latches = s.latches := rfl
@[simp] theorem touch_tel (a v : Nat) (s : State) : (touch a v s).tel = s.tel := rfl
@[simp] theorem touch_caps (a v : Nat) (s : State) : (touch a v s).caps = s.caps := rfl
@[simp] theorem touch_copyBuf (a v : Nat) (s : State) : (touch a v s).copyBuf = s.copyBuf := rfl
@[simp] theorem touch_replay (a v : Nat) (s : State) : (touch a v s).replay = s.replay := rfl
@[simp] theorem touch_boot (a v : Nat) (s : State) : (touch a v s).boot = s.boot := rfl
@[simp] theorem touch_rst (a v : Nat) (s : State) : (touch a v s).rst = s.rst := rfl
@[simp] theorem touch_fl (a v : Nat) (s : State) : (touch a v s).fl = s.fl := rfl
@[simp] theorem touch_mgt (a v : Nat) (s : State) : (touch a v s).mgt = s.mgt := rfl
@[simp] theorem touch_mgr (a v : Nat) (s : State) : (touch a v s).mgr = s.mgr := rfl
@[simp] theorem touch_map (a v : Nat) (s : State) : (touch a v s).map = s.map := rfl
@[simp] theorem touch_tblOld (a v : Nat) (s : State) : (touch a v s).tblOld = s.tblOld := rfl
@[simp] theorem touch_free (a v : Nat) (s : State) : (touch a v s).free = s.free := rfl
@[simp] theorem touch_out (a v : Nat) (s : State) : (touch a v s).out = s.out := rfl

@[simp] theorem ev_pending (a i : Nat) (s : State) : (ev a i s).pending = s.pending := rfl
@[simp] theorem ev_writes (a i : Nat) (s : State) : (ev a i s).writes = s.writes := rfl
@[simp] theorem ev_stg (a i : Nat) (s : State) : (ev a i s).stg = s.stg := rfl
@[simp] theorem ev_flash (a i : Nat) (s : State) : (ev a i s).flash = s.flash := rfl
@[simp] theorem ev_staged (a i : Nat) (s : State) : (ev a i s).staged = s.staged := rfl
@[simp] theorem ev_bootPend (a i : Nat) (s : State) : (ev a i s).bootPend = s.bootPend := rfl
@[simp] theorem ev_eccBad (a i : Nat) (s : State) : (ev a i s).eccBad = s.eccBad := rfl
@[simp] theorem ev_stgBad (a i : Nat) (s : State) : (ev a i s).stgBad = s.stgBad := rfl
@[simp] theorem ev_t (a i : Nat) (s : State) : (ev a i s).t = s.t := rfl
@[simp] theorem ev_clk (a i : Nat) (s : State) : (ev a i s).clk = s.clk := rfl
@[simp] theorem ev_roots (a i : Nat) (s : State) : (ev a i s).roots = s.roots := rfl
@[simp] theorem ev_ports (a i : Nat) (s : State) : (ev a i s).ports = s.ports := rfl
@[simp] theorem ev_waiting (a i : Nat) (s : State) : (ev a i s).waiting = s.waiting := rfl
@[simp] theorem ev_waits (a i : Nat) (s : State) : (ev a i s).waits = s.waits := rfl
@[simp] theorem ev_hold (a i : Nat) (s : State) : (ev a i s).hold = s.hold := rfl
@[simp] theorem ev_notices (a i : Nat) (s : State) : (ev a i s).notices = s.notices := rfl
@[simp] theorem ev_localQ (a i : Nat) (s : State) : (ev a i s).localQ = s.localQ := rfl
@[simp] theorem ev_dets (a i : Nat) (s : State) : (ev a i s).dets = s.dets := rfl
@[simp] theorem ev_jq (a i : Nat) (s : State) : (ev a i s).jq = s.jq := rfl
@[simp] theorem ev_pushq (a i : Nat) (s : State) : (ev a i s).pushq = s.pushq := rfl
@[simp] theorem ev_pseq (a i : Nat) (s : State) : (ev a i s).pseq = s.pseq := rfl
@[simp] theorem ev_awl (a i : Nat) (s : State) : (ev a i s).awl = s.awl := rfl
@[simp] theorem ev_ep (a i : Nat) (s : State) : (ev a i s).ep = s.ep := rfl
@[simp] theorem ev_streams (a i : Nat) (s : State) : (ev a i s).streams = s.streams := rfl
@[simp] theorem ev_pars (a i : Nat) (s : State) : (ev a i s).pars = s.pars := rfl
@[simp] theorem ev_asms (a i : Nat) (s : State) : (ev a i s).asms = s.asms := rfl
@[simp] theorem ev_landed (a i : Nat) (s : State) : (ev a i s).landed = s.landed := rfl
@[simp] theorem ev_receipts (a i : Nat) (s : State) : (ev a i s).receipts = s.receipts := rfl
@[simp] theorem ev_tags (a i : Nat) (s : State) : (ev a i s).tags = s.tags := rfl
@[simp] theorem ev_slots (a i : Nat) (s : State) : (ev a i s).slots = s.slots := rfl
@[simp] theorem ev_orders (a i : Nat) (s : State) : (ev a i s).orders = s.orders := rfl
@[simp] theorem ev_gets (a i : Nat) (s : State) : (ev a i s).gets = s.gets := rfl
@[simp] theorem ev_txns (a i : Nat) (s : State) : (ev a i s).txns = s.txns := rfl
@[simp] theorem ev_pkgSet (a i : Nat) (s : State) : (ev a i s).pkgSet = s.pkgSet := rfl
@[simp] theorem ev_lostPuts (a i : Nat) (s : State) : (ev a i s).lostPuts = s.lostPuts := rfl
@[simp] theorem ev_stagedNow (a i : Nat) (s : State) : (ev a i s).stagedNow = s.stagedNow := rfl
@[simp] theorem ev_pkgWrote (a i : Nat) (s : State) : (ev a i s).pkgWrote = s.pkgWrote := rfl
@[simp] theorem ev_txnId (a i : Nat) (s : State) : (ev a i s).txnId = s.txnId := rfl
@[simp] theorem ev_signals (a i : Nat) (s : State) : (ev a i s).signals = s.signals := rfl
@[simp] theorem ev_latches (a i : Nat) (s : State) : (ev a i s).latches = s.latches := rfl
@[simp] theorem ev_tel (a i : Nat) (s : State) : (ev a i s).tel = s.tel := rfl
@[simp] theorem ev_caps (a i : Nat) (s : State) : (ev a i s).caps = s.caps := rfl
@[simp] theorem ev_copyBuf (a i : Nat) (s : State) : (ev a i s).copyBuf = s.copyBuf := rfl
@[simp] theorem ev_replay (a i : Nat) (s : State) : (ev a i s).replay = s.replay := rfl
@[simp] theorem ev_boot (a i : Nat) (s : State) : (ev a i s).boot = s.boot := rfl
@[simp] theorem ev_rst (a i : Nat) (s : State) : (ev a i s).rst = s.rst := rfl
@[simp] theorem ev_fl (a i : Nat) (s : State) : (ev a i s).fl = s.fl := rfl
@[simp] theorem ev_mgt (a i : Nat) (s : State) : (ev a i s).mgt = s.mgt := rfl
@[simp] theorem ev_mgr (a i : Nat) (s : State) : (ev a i s).mgr = s.mgr := rfl
@[simp] theorem ev_map (a i : Nat) (s : State) : (ev a i s).map = s.map := rfl
@[simp] theorem ev_tblOld (a i : Nat) (s : State) : (ev a i s).tblOld = s.tblOld := rfl
@[simp] theorem ev_free (a i : Nat) (s : State) : (ev a i s).free = s.free := rfl
@[simp] theorem ev_out (a i : Nat) (s : State) : (ev a i s).out = s.out := rfl

@[simp] theorem evI_pending (a i ib : Nat) (inj : Bool) (s : State) : (evI a i ib inj s).pending = s.pending := by cases inj <;> rfl
@[simp] theorem evI_writes (a i ib : Nat) (inj : Bool) (s : State) : (evI a i ib inj s).writes = s.writes := by cases inj <;> rfl
@[simp] theorem evI_stg (a i ib : Nat) (inj : Bool) (s : State) : (evI a i ib inj s).stg = s.stg := by cases inj <;> rfl
@[simp] theorem evI_flash (a i ib : Nat) (inj : Bool) (s : State) : (evI a i ib inj s).flash = s.flash := by cases inj <;> rfl
@[simp] theorem evI_staged (a i ib : Nat) (inj : Bool) (s : State) : (evI a i ib inj s).staged = s.staged := by cases inj <;> rfl
@[simp] theorem evI_bootPend (a i ib : Nat) (inj : Bool) (s : State) : (evI a i ib inj s).bootPend = s.bootPend := by cases inj <;> rfl
@[simp] theorem evI_eccBad (a i ib : Nat) (inj : Bool) (s : State) : (evI a i ib inj s).eccBad = s.eccBad := by cases inj <;> rfl
@[simp] theorem evI_stgBad (a i ib : Nat) (inj : Bool) (s : State) : (evI a i ib inj s).stgBad = s.stgBad := by cases inj <;> rfl
@[simp] theorem evI_t (a i ib : Nat) (inj : Bool) (s : State) : (evI a i ib inj s).t = s.t := by cases inj <;> rfl
@[simp] theorem evI_clk (a i ib : Nat) (inj : Bool) (s : State) : (evI a i ib inj s).clk = s.clk := by cases inj <;> rfl
@[simp] theorem evI_roots (a i ib : Nat) (inj : Bool) (s : State) : (evI a i ib inj s).roots = s.roots := by cases inj <;> rfl
@[simp] theorem evI_ports (a i ib : Nat) (inj : Bool) (s : State) : (evI a i ib inj s).ports = s.ports := by cases inj <;> rfl
@[simp] theorem evI_waiting (a i ib : Nat) (inj : Bool) (s : State) : (evI a i ib inj s).waiting = s.waiting := by cases inj <;> rfl
@[simp] theorem evI_waits (a i ib : Nat) (inj : Bool) (s : State) : (evI a i ib inj s).waits = s.waits := by cases inj <;> rfl
@[simp] theorem evI_hold (a i ib : Nat) (inj : Bool) (s : State) : (evI a i ib inj s).hold = s.hold := by cases inj <;> rfl
@[simp] theorem evI_notices (a i ib : Nat) (inj : Bool) (s : State) : (evI a i ib inj s).notices = s.notices := by cases inj <;> rfl
@[simp] theorem evI_localQ (a i ib : Nat) (inj : Bool) (s : State) : (evI a i ib inj s).localQ = s.localQ := by cases inj <;> rfl
@[simp] theorem evI_dets (a i ib : Nat) (inj : Bool) (s : State) : (evI a i ib inj s).dets = s.dets := by cases inj <;> rfl
@[simp] theorem evI_jq (a i ib : Nat) (inj : Bool) (s : State) : (evI a i ib inj s).jq = s.jq := by cases inj <;> rfl
@[simp] theorem evI_pushq (a i ib : Nat) (inj : Bool) (s : State) : (evI a i ib inj s).pushq = s.pushq := by cases inj <;> rfl
@[simp] theorem evI_pseq (a i ib : Nat) (inj : Bool) (s : State) : (evI a i ib inj s).pseq = s.pseq := by cases inj <;> rfl
@[simp] theorem evI_awl (a i ib : Nat) (inj : Bool) (s : State) : (evI a i ib inj s).awl = s.awl := by cases inj <;> rfl
@[simp] theorem evI_ep (a i ib : Nat) (inj : Bool) (s : State) : (evI a i ib inj s).ep = s.ep := by cases inj <;> rfl
@[simp] theorem evI_streams (a i ib : Nat) (inj : Bool) (s : State) : (evI a i ib inj s).streams = s.streams := by cases inj <;> rfl
@[simp] theorem evI_pars (a i ib : Nat) (inj : Bool) (s : State) : (evI a i ib inj s).pars = s.pars := by cases inj <;> rfl
@[simp] theorem evI_asms (a i ib : Nat) (inj : Bool) (s : State) : (evI a i ib inj s).asms = s.asms := by cases inj <;> rfl
@[simp] theorem evI_landed (a i ib : Nat) (inj : Bool) (s : State) : (evI a i ib inj s).landed = s.landed := by cases inj <;> rfl
@[simp] theorem evI_receipts (a i ib : Nat) (inj : Bool) (s : State) : (evI a i ib inj s).receipts = s.receipts := by cases inj <;> rfl
@[simp] theorem evI_tags (a i ib : Nat) (inj : Bool) (s : State) : (evI a i ib inj s).tags = s.tags := by cases inj <;> rfl
@[simp] theorem evI_slots (a i ib : Nat) (inj : Bool) (s : State) : (evI a i ib inj s).slots = s.slots := by cases inj <;> rfl
@[simp] theorem evI_orders (a i ib : Nat) (inj : Bool) (s : State) : (evI a i ib inj s).orders = s.orders := by cases inj <;> rfl
@[simp] theorem evI_gets (a i ib : Nat) (inj : Bool) (s : State) : (evI a i ib inj s).gets = s.gets := by cases inj <;> rfl
@[simp] theorem evI_txns (a i ib : Nat) (inj : Bool) (s : State) : (evI a i ib inj s).txns = s.txns := by cases inj <;> rfl
@[simp] theorem evI_pkgSet (a i ib : Nat) (inj : Bool) (s : State) : (evI a i ib inj s).pkgSet = s.pkgSet := by cases inj <;> rfl
@[simp] theorem evI_lostPuts (a i ib : Nat) (inj : Bool) (s : State) : (evI a i ib inj s).lostPuts = s.lostPuts := by cases inj <;> rfl
@[simp] theorem evI_stagedNow (a i ib : Nat) (inj : Bool) (s : State) : (evI a i ib inj s).stagedNow = s.stagedNow := by cases inj <;> rfl
@[simp] theorem evI_pkgWrote (a i ib : Nat) (inj : Bool) (s : State) : (evI a i ib inj s).pkgWrote = s.pkgWrote := by cases inj <;> rfl
@[simp] theorem evI_txnId (a i ib : Nat) (inj : Bool) (s : State) : (evI a i ib inj s).txnId = s.txnId := by cases inj <;> rfl
@[simp] theorem evI_signals (a i ib : Nat) (inj : Bool) (s : State) : (evI a i ib inj s).signals = s.signals := by cases inj <;> rfl
@[simp] theorem evI_latches (a i ib : Nat) (inj : Bool) (s : State) : (evI a i ib inj s).latches = s.latches := by cases inj <;> rfl
@[simp] theorem evI_tel (a i ib : Nat) (inj : Bool) (s : State) : (evI a i ib inj s).tel = s.tel := by cases inj <;> rfl
@[simp] theorem evI_caps (a i ib : Nat) (inj : Bool) (s : State) : (evI a i ib inj s).caps = s.caps := by cases inj <;> rfl
@[simp] theorem evI_copyBuf (a i ib : Nat) (inj : Bool) (s : State) : (evI a i ib inj s).copyBuf = s.copyBuf := by cases inj <;> rfl
@[simp] theorem evI_replay (a i ib : Nat) (inj : Bool) (s : State) : (evI a i ib inj s).replay = s.replay := by cases inj <;> rfl
@[simp] theorem evI_boot (a i ib : Nat) (inj : Bool) (s : State) : (evI a i ib inj s).boot = s.boot := by cases inj <;> rfl
@[simp] theorem evI_rst (a i ib : Nat) (inj : Bool) (s : State) : (evI a i ib inj s).rst = s.rst := by cases inj <;> rfl
@[simp] theorem evI_fl (a i ib : Nat) (inj : Bool) (s : State) : (evI a i ib inj s).fl = s.fl := by cases inj <;> rfl
@[simp] theorem evI_mgt (a i ib : Nat) (inj : Bool) (s : State) : (evI a i ib inj s).mgt = s.mgt := by cases inj <;> rfl
@[simp] theorem evI_mgr (a i ib : Nat) (inj : Bool) (s : State) : (evI a i ib inj s).mgr = s.mgr := by cases inj <;> rfl
@[simp] theorem evI_map (a i ib : Nat) (inj : Bool) (s : State) : (evI a i ib inj s).map = s.map := by cases inj <;> rfl
@[simp] theorem evI_tblOld (a i ib : Nat) (inj : Bool) (s : State) : (evI a i ib inj s).tblOld = s.tblOld := by cases inj <;> rfl
@[simp] theorem evI_free (a i ib : Nat) (inj : Bool) (s : State) : (evI a i ib inj s).free = s.free := by cases inj <;> rfl
@[simp] theorem evI_out (a i ib : Nat) (inj : Bool) (s : State) : (evI a i ib inj s).out = s.out := by cases inj <;> rfl

@[simp] theorem cntBy_pending (a k : Nat) (s : State) : (cntBy a k s).pending = s.pending := rfl
@[simp] theorem cntBy_writes (a k : Nat) (s : State) : (cntBy a k s).writes = s.writes := rfl
@[simp] theorem cntBy_stg (a k : Nat) (s : State) : (cntBy a k s).stg = s.stg := rfl
@[simp] theorem cntBy_flash (a k : Nat) (s : State) : (cntBy a k s).flash = s.flash := rfl
@[simp] theorem cntBy_staged (a k : Nat) (s : State) : (cntBy a k s).staged = s.staged := rfl
@[simp] theorem cntBy_bootPend (a k : Nat) (s : State) : (cntBy a k s).bootPend = s.bootPend := rfl
@[simp] theorem cntBy_eccBad (a k : Nat) (s : State) : (cntBy a k s).eccBad = s.eccBad := rfl
@[simp] theorem cntBy_stgBad (a k : Nat) (s : State) : (cntBy a k s).stgBad = s.stgBad := rfl
@[simp] theorem cntBy_t (a k : Nat) (s : State) : (cntBy a k s).t = s.t := rfl
@[simp] theorem cntBy_clk (a k : Nat) (s : State) : (cntBy a k s).clk = s.clk := rfl
@[simp] theorem cntBy_roots (a k : Nat) (s : State) : (cntBy a k s).roots = s.roots := rfl
@[simp] theorem cntBy_ports (a k : Nat) (s : State) : (cntBy a k s).ports = s.ports := rfl
@[simp] theorem cntBy_waiting (a k : Nat) (s : State) : (cntBy a k s).waiting = s.waiting := rfl
@[simp] theorem cntBy_waits (a k : Nat) (s : State) : (cntBy a k s).waits = s.waits := rfl
@[simp] theorem cntBy_hold (a k : Nat) (s : State) : (cntBy a k s).hold = s.hold := rfl
@[simp] theorem cntBy_notices (a k : Nat) (s : State) : (cntBy a k s).notices = s.notices := rfl
@[simp] theorem cntBy_localQ (a k : Nat) (s : State) : (cntBy a k s).localQ = s.localQ := rfl
@[simp] theorem cntBy_dets (a k : Nat) (s : State) : (cntBy a k s).dets = s.dets := rfl
@[simp] theorem cntBy_jq (a k : Nat) (s : State) : (cntBy a k s).jq = s.jq := rfl
@[simp] theorem cntBy_pushq (a k : Nat) (s : State) : (cntBy a k s).pushq = s.pushq := rfl
@[simp] theorem cntBy_pseq (a k : Nat) (s : State) : (cntBy a k s).pseq = s.pseq := rfl
@[simp] theorem cntBy_awl (a k : Nat) (s : State) : (cntBy a k s).awl = s.awl := rfl
@[simp] theorem cntBy_ep (a k : Nat) (s : State) : (cntBy a k s).ep = s.ep := rfl
@[simp] theorem cntBy_streams (a k : Nat) (s : State) : (cntBy a k s).streams = s.streams := rfl
@[simp] theorem cntBy_pars (a k : Nat) (s : State) : (cntBy a k s).pars = s.pars := rfl
@[simp] theorem cntBy_asms (a k : Nat) (s : State) : (cntBy a k s).asms = s.asms := rfl
@[simp] theorem cntBy_landed (a k : Nat) (s : State) : (cntBy a k s).landed = s.landed := rfl
@[simp] theorem cntBy_receipts (a k : Nat) (s : State) : (cntBy a k s).receipts = s.receipts := rfl
@[simp] theorem cntBy_tags (a k : Nat) (s : State) : (cntBy a k s).tags = s.tags := rfl
@[simp] theorem cntBy_slots (a k : Nat) (s : State) : (cntBy a k s).slots = s.slots := rfl
@[simp] theorem cntBy_orders (a k : Nat) (s : State) : (cntBy a k s).orders = s.orders := rfl
@[simp] theorem cntBy_gets (a k : Nat) (s : State) : (cntBy a k s).gets = s.gets := rfl
@[simp] theorem cntBy_txns (a k : Nat) (s : State) : (cntBy a k s).txns = s.txns := rfl
@[simp] theorem cntBy_pkgSet (a k : Nat) (s : State) : (cntBy a k s).pkgSet = s.pkgSet := rfl
@[simp] theorem cntBy_lostPuts (a k : Nat) (s : State) : (cntBy a k s).lostPuts = s.lostPuts := rfl
@[simp] theorem cntBy_stagedNow (a k : Nat) (s : State) : (cntBy a k s).stagedNow = s.stagedNow := rfl
@[simp] theorem cntBy_pkgWrote (a k : Nat) (s : State) : (cntBy a k s).pkgWrote = s.pkgWrote := rfl
@[simp] theorem cntBy_txnId (a k : Nat) (s : State) : (cntBy a k s).txnId = s.txnId := rfl
@[simp] theorem cntBy_signals (a k : Nat) (s : State) : (cntBy a k s).signals = s.signals := rfl
@[simp] theorem cntBy_latches (a k : Nat) (s : State) : (cntBy a k s).latches = s.latches := rfl
@[simp] theorem cntBy_tel (a k : Nat) (s : State) : (cntBy a k s).tel = s.tel := rfl
@[simp] theorem cntBy_caps (a k : Nat) (s : State) : (cntBy a k s).caps = s.caps := rfl
@[simp] theorem cntBy_copyBuf (a k : Nat) (s : State) : (cntBy a k s).copyBuf = s.copyBuf := rfl
@[simp] theorem cntBy_replay (a k : Nat) (s : State) : (cntBy a k s).replay = s.replay := rfl
@[simp] theorem cntBy_boot (a k : Nat) (s : State) : (cntBy a k s).boot = s.boot := rfl
@[simp] theorem cntBy_rst (a k : Nat) (s : State) : (cntBy a k s).rst = s.rst := rfl
@[simp] theorem cntBy_fl (a k : Nat) (s : State) : (cntBy a k s).fl = s.fl := rfl
@[simp] theorem cntBy_mgt (a k : Nat) (s : State) : (cntBy a k s).mgt = s.mgt := rfl
@[simp] theorem cntBy_mgr (a k : Nat) (s : State) : (cntBy a k s).mgr = s.mgr := rfl
@[simp] theorem cntBy_map (a k : Nat) (s : State) : (cntBy a k s).map = s.map := rfl
@[simp] theorem cntBy_tblOld (a k : Nat) (s : State) : (cntBy a k s).tblOld = s.tblOld := rfl
@[simp] theorem cntBy_free (a k : Nat) (s : State) : (cntBy a k s).free = s.free := rfl
@[simp] theorem cntBy_out (a k : Nat) (s : State) : (cntBy a k s).out = s.out := rfl

@[simp] theorem cnt_pending (a : Nat) (s : State) : (cnt a s).pending = s.pending := rfl
@[simp] theorem cnt_writes (a : Nat) (s : State) : (cnt a s).writes = s.writes := rfl
@[simp] theorem cnt_stg (a : Nat) (s : State) : (cnt a s).stg = s.stg := rfl
@[simp] theorem cnt_flash (a : Nat) (s : State) : (cnt a s).flash = s.flash := rfl
@[simp] theorem cnt_staged (a : Nat) (s : State) : (cnt a s).staged = s.staged := rfl
@[simp] theorem cnt_bootPend (a : Nat) (s : State) : (cnt a s).bootPend = s.bootPend := rfl
@[simp] theorem cnt_eccBad (a : Nat) (s : State) : (cnt a s).eccBad = s.eccBad := rfl
@[simp] theorem cnt_stgBad (a : Nat) (s : State) : (cnt a s).stgBad = s.stgBad := rfl
@[simp] theorem cnt_t (a : Nat) (s : State) : (cnt a s).t = s.t := rfl
@[simp] theorem cnt_clk (a : Nat) (s : State) : (cnt a s).clk = s.clk := rfl
@[simp] theorem cnt_roots (a : Nat) (s : State) : (cnt a s).roots = s.roots := rfl
@[simp] theorem cnt_ports (a : Nat) (s : State) : (cnt a s).ports = s.ports := rfl
@[simp] theorem cnt_waiting (a : Nat) (s : State) : (cnt a s).waiting = s.waiting := rfl
@[simp] theorem cnt_waits (a : Nat) (s : State) : (cnt a s).waits = s.waits := rfl
@[simp] theorem cnt_hold (a : Nat) (s : State) : (cnt a s).hold = s.hold := rfl
@[simp] theorem cnt_notices (a : Nat) (s : State) : (cnt a s).notices = s.notices := rfl
@[simp] theorem cnt_localQ (a : Nat) (s : State) : (cnt a s).localQ = s.localQ := rfl
@[simp] theorem cnt_dets (a : Nat) (s : State) : (cnt a s).dets = s.dets := rfl
@[simp] theorem cnt_jq (a : Nat) (s : State) : (cnt a s).jq = s.jq := rfl
@[simp] theorem cnt_pushq (a : Nat) (s : State) : (cnt a s).pushq = s.pushq := rfl
@[simp] theorem cnt_pseq (a : Nat) (s : State) : (cnt a s).pseq = s.pseq := rfl
@[simp] theorem cnt_awl (a : Nat) (s : State) : (cnt a s).awl = s.awl := rfl
@[simp] theorem cnt_ep (a : Nat) (s : State) : (cnt a s).ep = s.ep := rfl
@[simp] theorem cnt_streams (a : Nat) (s : State) : (cnt a s).streams = s.streams := rfl
@[simp] theorem cnt_pars (a : Nat) (s : State) : (cnt a s).pars = s.pars := rfl
@[simp] theorem cnt_asms (a : Nat) (s : State) : (cnt a s).asms = s.asms := rfl
@[simp] theorem cnt_landed (a : Nat) (s : State) : (cnt a s).landed = s.landed := rfl
@[simp] theorem cnt_receipts (a : Nat) (s : State) : (cnt a s).receipts = s.receipts := rfl
@[simp] theorem cnt_tags (a : Nat) (s : State) : (cnt a s).tags = s.tags := rfl
@[simp] theorem cnt_slots (a : Nat) (s : State) : (cnt a s).slots = s.slots := rfl
@[simp] theorem cnt_orders (a : Nat) (s : State) : (cnt a s).orders = s.orders := rfl
@[simp] theorem cnt_gets (a : Nat) (s : State) : (cnt a s).gets = s.gets := rfl
@[simp] theorem cnt_txns (a : Nat) (s : State) : (cnt a s).txns = s.txns := rfl
@[simp] theorem cnt_pkgSet (a : Nat) (s : State) : (cnt a s).pkgSet = s.pkgSet := rfl
@[simp] theorem cnt_lostPuts (a : Nat) (s : State) : (cnt a s).lostPuts = s.lostPuts := rfl
@[simp] theorem cnt_stagedNow (a : Nat) (s : State) : (cnt a s).stagedNow = s.stagedNow := rfl
@[simp] theorem cnt_pkgWrote (a : Nat) (s : State) : (cnt a s).pkgWrote = s.pkgWrote := rfl
@[simp] theorem cnt_txnId (a : Nat) (s : State) : (cnt a s).txnId = s.txnId := rfl
@[simp] theorem cnt_signals (a : Nat) (s : State) : (cnt a s).signals = s.signals := rfl
@[simp] theorem cnt_latches (a : Nat) (s : State) : (cnt a s).latches = s.latches := rfl
@[simp] theorem cnt_tel (a : Nat) (s : State) : (cnt a s).tel = s.tel := rfl
@[simp] theorem cnt_caps (a : Nat) (s : State) : (cnt a s).caps = s.caps := rfl
@[simp] theorem cnt_copyBuf (a : Nat) (s : State) : (cnt a s).copyBuf = s.copyBuf := rfl
@[simp] theorem cnt_replay (a : Nat) (s : State) : (cnt a s).replay = s.replay := rfl
@[simp] theorem cnt_boot (a : Nat) (s : State) : (cnt a s).boot = s.boot := rfl
@[simp] theorem cnt_rst (a : Nat) (s : State) : (cnt a s).rst = s.rst := rfl
@[simp] theorem cnt_fl (a : Nat) (s : State) : (cnt a s).fl = s.fl := rfl
@[simp] theorem cnt_mgt (a : Nat) (s : State) : (cnt a s).mgt = s.mgt := rfl
@[simp] theorem cnt_mgr (a : Nat) (s : State) : (cnt a s).mgr = s.mgr := rfl
@[simp] theorem cnt_map (a : Nat) (s : State) : (cnt a s).map = s.map := rfl
@[simp] theorem cnt_tblOld (a : Nat) (s : State) : (cnt a s).tblOld = s.tblOld := rfl
@[simp] theorem cnt_free (a : Nat) (s : State) : (cnt a s).free = s.free := rfl
@[simp] theorem cnt_out (a : Nat) (s : State) : (cnt a s).out = s.out := rfl

@[simp] theorem emit_pending (o : Out) (s : State) : (emit o s).pending = s.pending := rfl
@[simp] theorem emit_writes (o : Out) (s : State) : (emit o s).writes = s.writes := rfl
@[simp] theorem emit_stg (o : Out) (s : State) : (emit o s).stg = s.stg := rfl
@[simp] theorem emit_flash (o : Out) (s : State) : (emit o s).flash = s.flash := rfl
@[simp] theorem emit_regs (o : Out) (s : State) : (emit o s).regs = s.regs := rfl
@[simp] theorem emit_staged (o : Out) (s : State) : (emit o s).staged = s.staged := rfl
@[simp] theorem emit_bootPend (o : Out) (s : State) : (emit o s).bootPend = s.bootPend := rfl
@[simp] theorem emit_eccBad (o : Out) (s : State) : (emit o s).eccBad = s.eccBad := rfl
@[simp] theorem emit_stgBad (o : Out) (s : State) : (emit o s).stgBad = s.stgBad := rfl
@[simp] theorem emit_t (o : Out) (s : State) : (emit o s).t = s.t := rfl
@[simp] theorem emit_clk (o : Out) (s : State) : (emit o s).clk = s.clk := rfl
@[simp] theorem emit_roots (o : Out) (s : State) : (emit o s).roots = s.roots := rfl
@[simp] theorem emit_ports (o : Out) (s : State) : (emit o s).ports = s.ports := rfl
@[simp] theorem emit_waiting (o : Out) (s : State) : (emit o s).waiting = s.waiting := rfl
@[simp] theorem emit_waits (o : Out) (s : State) : (emit o s).waits = s.waits := rfl
@[simp] theorem emit_hold (o : Out) (s : State) : (emit o s).hold = s.hold := rfl
@[simp] theorem emit_notices (o : Out) (s : State) : (emit o s).notices = s.notices := rfl
@[simp] theorem emit_localQ (o : Out) (s : State) : (emit o s).localQ = s.localQ := rfl
@[simp] theorem emit_dets (o : Out) (s : State) : (emit o s).dets = s.dets := rfl
@[simp] theorem emit_jq (o : Out) (s : State) : (emit o s).jq = s.jq := rfl
@[simp] theorem emit_pushq (o : Out) (s : State) : (emit o s).pushq = s.pushq := rfl
@[simp] theorem emit_pseq (o : Out) (s : State) : (emit o s).pseq = s.pseq := rfl
@[simp] theorem emit_awl (o : Out) (s : State) : (emit o s).awl = s.awl := rfl
@[simp] theorem emit_ep (o : Out) (s : State) : (emit o s).ep = s.ep := rfl
@[simp] theorem emit_streams (o : Out) (s : State) : (emit o s).streams = s.streams := rfl
@[simp] theorem emit_pars (o : Out) (s : State) : (emit o s).pars = s.pars := rfl
@[simp] theorem emit_asms (o : Out) (s : State) : (emit o s).asms = s.asms := rfl
@[simp] theorem emit_landed (o : Out) (s : State) : (emit o s).landed = s.landed := rfl
@[simp] theorem emit_receipts (o : Out) (s : State) : (emit o s).receipts = s.receipts := rfl
@[simp] theorem emit_tags (o : Out) (s : State) : (emit o s).tags = s.tags := rfl
@[simp] theorem emit_slots (o : Out) (s : State) : (emit o s).slots = s.slots := rfl
@[simp] theorem emit_orders (o : Out) (s : State) : (emit o s).orders = s.orders := rfl
@[simp] theorem emit_gets (o : Out) (s : State) : (emit o s).gets = s.gets := rfl
@[simp] theorem emit_txns (o : Out) (s : State) : (emit o s).txns = s.txns := rfl
@[simp] theorem emit_pkgSet (o : Out) (s : State) : (emit o s).pkgSet = s.pkgSet := rfl
@[simp] theorem emit_lostPuts (o : Out) (s : State) : (emit o s).lostPuts = s.lostPuts := rfl
@[simp] theorem emit_stagedNow (o : Out) (s : State) : (emit o s).stagedNow = s.stagedNow := rfl
@[simp] theorem emit_pkgWrote (o : Out) (s : State) : (emit o s).pkgWrote = s.pkgWrote := rfl
@[simp] theorem emit_txnId (o : Out) (s : State) : (emit o s).txnId = s.txnId := rfl
@[simp] theorem emit_signals (o : Out) (s : State) : (emit o s).signals = s.signals := rfl
@[simp] theorem emit_latches (o : Out) (s : State) : (emit o s).latches = s.latches := rfl
@[simp] theorem emit_tel (o : Out) (s : State) : (emit o s).tel = s.tel := rfl
@[simp] theorem emit_caps (o : Out) (s : State) : (emit o s).caps = s.caps := rfl
@[simp] theorem emit_copyBuf (o : Out) (s : State) : (emit o s).copyBuf = s.copyBuf := rfl
@[simp] theorem emit_replay (o : Out) (s : State) : (emit o s).replay = s.replay := rfl
@[simp] theorem emit_boot (o : Out) (s : State) : (emit o s).boot = s.boot := rfl
@[simp] theorem emit_rst (o : Out) (s : State) : (emit o s).rst = s.rst := rfl
@[simp] theorem emit_fl (o : Out) (s : State) : (emit o s).fl = s.fl := rfl
@[simp] theorem emit_mgt (o : Out) (s : State) : (emit o s).mgt = s.mgt := rfl
@[simp] theorem emit_mgr (o : Out) (s : State) : (emit o s).mgr = s.mgr := rfl
@[simp] theorem emit_map (o : Out) (s : State) : (emit o s).map = s.map := rfl
@[simp] theorem emit_touch (o : Out) (s : State) : (emit o s).touch = s.touch := rfl
@[simp] theorem emit_tblOld (o : Out) (s : State) : (emit o s).tblOld = s.tblOld := rfl
@[simp] theorem emit_free (o : Out) (s : State) : (emit o s).free = s.free := rfl

@[simp] theorem modPort_pending (n : Nat) (f : Port → Port) (s : State) : (modPort n f s).pending = s.pending := rfl
@[simp] theorem modPort_writes (n : Nat) (f : Port → Port) (s : State) : (modPort n f s).writes = s.writes := rfl
@[simp] theorem modPort_stg (n : Nat) (f : Port → Port) (s : State) : (modPort n f s).stg = s.stg := rfl
@[simp] theorem modPort_flash (n : Nat) (f : Port → Port) (s : State) : (modPort n f s).flash = s.flash := rfl
@[simp] theorem modPort_regs (n : Nat) (f : Port → Port) (s : State) : (modPort n f s).regs = s.regs := rfl
@[simp] theorem modPort_staged (n : Nat) (f : Port → Port) (s : State) : (modPort n f s).staged = s.staged := rfl
@[simp] theorem modPort_bootPend (n : Nat) (f : Port → Port) (s : State) : (modPort n f s).bootPend = s.bootPend := rfl
@[simp] theorem modPort_eccBad (n : Nat) (f : Port → Port) (s : State) : (modPort n f s).eccBad = s.eccBad := rfl
@[simp] theorem modPort_stgBad (n : Nat) (f : Port → Port) (s : State) : (modPort n f s).stgBad = s.stgBad := rfl
@[simp] theorem modPort_t (n : Nat) (f : Port → Port) (s : State) : (modPort n f s).t = s.t := rfl
@[simp] theorem modPort_clk (n : Nat) (f : Port → Port) (s : State) : (modPort n f s).clk = s.clk := rfl
@[simp] theorem modPort_roots (n : Nat) (f : Port → Port) (s : State) : (modPort n f s).roots = s.roots := rfl
@[simp] theorem modPort_waiting (n : Nat) (f : Port → Port) (s : State) : (modPort n f s).waiting = s.waiting := rfl
@[simp] theorem modPort_waits (n : Nat) (f : Port → Port) (s : State) : (modPort n f s).waits = s.waits := rfl
@[simp] theorem modPort_hold (n : Nat) (f : Port → Port) (s : State) : (modPort n f s).hold = s.hold := rfl
@[simp] theorem modPort_notices (n : Nat) (f : Port → Port) (s : State) : (modPort n f s).notices = s.notices := rfl
@[simp] theorem modPort_localQ (n : Nat) (f : Port → Port) (s : State) : (modPort n f s).localQ = s.localQ := rfl
@[simp] theorem modPort_dets (n : Nat) (f : Port → Port) (s : State) : (modPort n f s).dets = s.dets := rfl
@[simp] theorem modPort_jq (n : Nat) (f : Port → Port) (s : State) : (modPort n f s).jq = s.jq := rfl
@[simp] theorem modPort_pushq (n : Nat) (f : Port → Port) (s : State) : (modPort n f s).pushq = s.pushq := rfl
@[simp] theorem modPort_pseq (n : Nat) (f : Port → Port) (s : State) : (modPort n f s).pseq = s.pseq := rfl
@[simp] theorem modPort_awl (n : Nat) (f : Port → Port) (s : State) : (modPort n f s).awl = s.awl := rfl
@[simp] theorem modPort_ep (n : Nat) (f : Port → Port) (s : State) : (modPort n f s).ep = s.ep := rfl
@[simp] theorem modPort_streams (n : Nat) (f : Port → Port) (s : State) : (modPort n f s).streams = s.streams := rfl
@[simp] theorem modPort_pars (n : Nat) (f : Port → Port) (s : State) : (modPort n f s).pars = s.pars := rfl
@[simp] theorem modPort_asms (n : Nat) (f : Port → Port) (s : State) : (modPort n f s).asms = s.asms := rfl
@[simp] theorem modPort_landed (n : Nat) (f : Port → Port) (s : State) : (modPort n f s).landed = s.landed := rfl
@[simp] theorem modPort_receipts (n : Nat) (f : Port → Port) (s : State) : (modPort n f s).receipts = s.receipts := rfl
@[simp] theorem modPort_tags (n : Nat) (f : Port → Port) (s : State) : (modPort n f s).tags = s.tags := rfl
@[simp] theorem modPort_slots (n : Nat) (f : Port → Port) (s : State) : (modPort n f s).slots = s.slots := rfl
@[simp] theorem modPort_orders (n : Nat) (f : Port → Port) (s : State) : (modPort n f s).orders = s.orders := rfl
@[simp] theorem modPort_gets (n : Nat) (f : Port → Port) (s : State) : (modPort n f s).gets = s.gets := rfl
@[simp] theorem modPort_txns (n : Nat) (f : Port → Port) (s : State) : (modPort n f s).txns = s.txns := rfl
@[simp] theorem modPort_pkgSet (n : Nat) (f : Port → Port) (s : State) : (modPort n f s).pkgSet = s.pkgSet := rfl
@[simp] theorem modPort_lostPuts (n : Nat) (f : Port → Port) (s : State) : (modPort n f s).lostPuts = s.lostPuts := rfl
@[simp] theorem modPort_stagedNow (n : Nat) (f : Port → Port) (s : State) : (modPort n f s).stagedNow = s.stagedNow := rfl
@[simp] theorem modPort_pkgWrote (n : Nat) (f : Port → Port) (s : State) : (modPort n f s).pkgWrote = s.pkgWrote := rfl
@[simp] theorem modPort_txnId (n : Nat) (f : Port → Port) (s : State) : (modPort n f s).txnId = s.txnId := rfl
@[simp] theorem modPort_signals (n : Nat) (f : Port → Port) (s : State) : (modPort n f s).signals = s.signals := rfl
@[simp] theorem modPort_latches (n : Nat) (f : Port → Port) (s : State) : (modPort n f s).latches = s.latches := rfl
@[simp] theorem modPort_tel (n : Nat) (f : Port → Port) (s : State) : (modPort n f s).tel = s.tel := rfl
@[simp] theorem modPort_caps (n : Nat) (f : Port → Port) (s : State) : (modPort n f s).caps = s.caps := rfl
@[simp] theorem modPort_copyBuf (n : Nat) (f : Port → Port) (s : State) : (modPort n f s).copyBuf = s.copyBuf := rfl
@[simp] theorem modPort_replay (n : Nat) (f : Port → Port) (s : State) : (modPort n f s).replay = s.replay := rfl
@[simp] theorem modPort_boot (n : Nat) (f : Port → Port) (s : State) : (modPort n f s).boot = s.boot := rfl
@[simp] theorem modPort_rst (n : Nat) (f : Port → Port) (s : State) : (modPort n f s).rst = s.rst := rfl
@[simp] theorem modPort_fl (n : Nat) (f : Port → Port) (s : State) : (modPort n f s).fl = s.fl := rfl
@[simp] theorem modPort_mgt (n : Nat) (f : Port → Port) (s : State) : (modPort n f s).mgt = s.mgt := rfl
@[simp] theorem modPort_mgr (n : Nat) (f : Port → Port) (s : State) : (modPort n f s).mgr = s.mgr := rfl
@[simp] theorem modPort_map (n : Nat) (f : Port → Port) (s : State) : (modPort n f s).map = s.map := rfl
@[simp] theorem modPort_touch (n : Nat) (f : Port → Port) (s : State) : (modPort n f s).touch = s.touch := rfl
@[simp] theorem modPort_tblOld (n : Nat) (f : Port → Port) (s : State) : (modPort n f s).tblOld = s.tblOld := rfl
@[simp] theorem modPort_free (n : Nat) (f : Port → Port) (s : State) : (modPort n f s).free = s.free := rfl
@[simp] theorem modPort_out (n : Nat) (f : Port → Port) (s : State) : (modPort n f s).out = s.out := rfl

@[simp] theorem stgWrite_pending (a : Nat) (b : List Byte) (s : State) : (stgWrite a b s).pending = s.pending := rfl
@[simp] theorem stgWrite_stg (a : Nat) (b : List Byte) (s : State) : (stgWrite a b s).stg = s.stg := rfl
@[simp] theorem stgWrite_flash (a : Nat) (b : List Byte) (s : State) : (stgWrite a b s).flash = s.flash := rfl
@[simp] theorem stgWrite_regs (a : Nat) (b : List Byte) (s : State) : (stgWrite a b s).regs = s.regs := rfl
@[simp] theorem stgWrite_staged (a : Nat) (b : List Byte) (s : State) : (stgWrite a b s).staged = s.staged := rfl
@[simp] theorem stgWrite_bootPend (a : Nat) (b : List Byte) (s : State) : (stgWrite a b s).bootPend = s.bootPend := rfl
@[simp] theorem stgWrite_eccBad (a : Nat) (b : List Byte) (s : State) : (stgWrite a b s).eccBad = s.eccBad := rfl
@[simp] theorem stgWrite_stgBad (a : Nat) (b : List Byte) (s : State) : (stgWrite a b s).stgBad = s.stgBad := rfl
@[simp] theorem stgWrite_t (a : Nat) (b : List Byte) (s : State) : (stgWrite a b s).t = s.t := rfl
@[simp] theorem stgWrite_clk (a : Nat) (b : List Byte) (s : State) : (stgWrite a b s).clk = s.clk := rfl
@[simp] theorem stgWrite_roots (a : Nat) (b : List Byte) (s : State) : (stgWrite a b s).roots = s.roots := rfl
@[simp] theorem stgWrite_ports (a : Nat) (b : List Byte) (s : State) : (stgWrite a b s).ports = s.ports := rfl
@[simp] theorem stgWrite_waiting (a : Nat) (b : List Byte) (s : State) : (stgWrite a b s).waiting = s.waiting := rfl
@[simp] theorem stgWrite_waits (a : Nat) (b : List Byte) (s : State) : (stgWrite a b s).waits = s.waits := rfl
@[simp] theorem stgWrite_hold (a : Nat) (b : List Byte) (s : State) : (stgWrite a b s).hold = s.hold := rfl
@[simp] theorem stgWrite_notices (a : Nat) (b : List Byte) (s : State) : (stgWrite a b s).notices = s.notices := rfl
@[simp] theorem stgWrite_localQ (a : Nat) (b : List Byte) (s : State) : (stgWrite a b s).localQ = s.localQ := rfl
@[simp] theorem stgWrite_dets (a : Nat) (b : List Byte) (s : State) : (stgWrite a b s).dets = s.dets := rfl
@[simp] theorem stgWrite_jq (a : Nat) (b : List Byte) (s : State) : (stgWrite a b s).jq = s.jq := rfl
@[simp] theorem stgWrite_pushq (a : Nat) (b : List Byte) (s : State) : (stgWrite a b s).pushq = s.pushq := rfl
@[simp] theorem stgWrite_pseq (a : Nat) (b : List Byte) (s : State) : (stgWrite a b s).pseq = s.pseq := rfl
@[simp] theorem stgWrite_awl (a : Nat) (b : List Byte) (s : State) : (stgWrite a b s).awl = s.awl := rfl
@[simp] theorem stgWrite_ep (a : Nat) (b : List Byte) (s : State) : (stgWrite a b s).ep = s.ep := rfl
@[simp] theorem stgWrite_streams (a : Nat) (b : List Byte) (s : State) : (stgWrite a b s).streams = s.streams := rfl
@[simp] theorem stgWrite_pars (a : Nat) (b : List Byte) (s : State) : (stgWrite a b s).pars = s.pars := rfl
@[simp] theorem stgWrite_asms (a : Nat) (b : List Byte) (s : State) : (stgWrite a b s).asms = s.asms := rfl
@[simp] theorem stgWrite_landed (a : Nat) (b : List Byte) (s : State) : (stgWrite a b s).landed = s.landed := rfl
@[simp] theorem stgWrite_receipts (a : Nat) (b : List Byte) (s : State) : (stgWrite a b s).receipts = s.receipts := rfl
@[simp] theorem stgWrite_tags (a : Nat) (b : List Byte) (s : State) : (stgWrite a b s).tags = s.tags := rfl
@[simp] theorem stgWrite_slots (a : Nat) (b : List Byte) (s : State) : (stgWrite a b s).slots = s.slots := rfl
@[simp] theorem stgWrite_orders (a : Nat) (b : List Byte) (s : State) : (stgWrite a b s).orders = s.orders := rfl
@[simp] theorem stgWrite_gets (a : Nat) (b : List Byte) (s : State) : (stgWrite a b s).gets = s.gets := rfl
@[simp] theorem stgWrite_txns (a : Nat) (b : List Byte) (s : State) : (stgWrite a b s).txns = s.txns := rfl
@[simp] theorem stgWrite_pkgSet (a : Nat) (b : List Byte) (s : State) : (stgWrite a b s).pkgSet = s.pkgSet := rfl
@[simp] theorem stgWrite_lostPuts (a : Nat) (b : List Byte) (s : State) : (stgWrite a b s).lostPuts = s.lostPuts := rfl
@[simp] theorem stgWrite_stagedNow (a : Nat) (b : List Byte) (s : State) : (stgWrite a b s).stagedNow = s.stagedNow := rfl
@[simp] theorem stgWrite_pkgWrote (a : Nat) (b : List Byte) (s : State) : (stgWrite a b s).pkgWrote = s.pkgWrote := rfl
@[simp] theorem stgWrite_txnId (a : Nat) (b : List Byte) (s : State) : (stgWrite a b s).txnId = s.txnId := rfl
@[simp] theorem stgWrite_signals (a : Nat) (b : List Byte) (s : State) : (stgWrite a b s).signals = s.signals := rfl
@[simp] theorem stgWrite_latches (a : Nat) (b : List Byte) (s : State) : (stgWrite a b s).latches = s.latches := rfl
@[simp] theorem stgWrite_tel (a : Nat) (b : List Byte) (s : State) : (stgWrite a b s).tel = s.tel := rfl
@[simp] theorem stgWrite_caps (a : Nat) (b : List Byte) (s : State) : (stgWrite a b s).caps = s.caps := rfl
@[simp] theorem stgWrite_copyBuf (a : Nat) (b : List Byte) (s : State) : (stgWrite a b s).copyBuf = s.copyBuf := rfl
@[simp] theorem stgWrite_replay (a : Nat) (b : List Byte) (s : State) : (stgWrite a b s).replay = s.replay := rfl
@[simp] theorem stgWrite_boot (a : Nat) (b : List Byte) (s : State) : (stgWrite a b s).boot = s.boot := rfl
@[simp] theorem stgWrite_rst (a : Nat) (b : List Byte) (s : State) : (stgWrite a b s).rst = s.rst := rfl
@[simp] theorem stgWrite_fl (a : Nat) (b : List Byte) (s : State) : (stgWrite a b s).fl = s.fl := rfl
@[simp] theorem stgWrite_mgt (a : Nat) (b : List Byte) (s : State) : (stgWrite a b s).mgt = s.mgt := rfl
@[simp] theorem stgWrite_mgr (a : Nat) (b : List Byte) (s : State) : (stgWrite a b s).mgr = s.mgr := rfl
@[simp] theorem stgWrite_map (a : Nat) (b : List Byte) (s : State) : (stgWrite a b s).map = s.map := rfl
@[simp] theorem stgWrite_touch (a : Nat) (b : List Byte) (s : State) : (stgWrite a b s).touch = s.touch := rfl
@[simp] theorem stgWrite_tblOld (a : Nat) (b : List Byte) (s : State) : (stgWrite a b s).tblOld = s.tblOld := rfl
@[simp] theorem stgWrite_free (a : Nat) (b : List Byte) (s : State) : (stgWrite a b s).free = s.free := rfl
@[simp] theorem stgWrite_out (a : Nat) (b : List Byte) (s : State) : (stgWrite a b s).out = s.out := rfl

@[simp] theorem stgClear_pending (a n : Nat) (s : State) : (stgClear a n s).pending = s.pending := rfl
@[simp] theorem stgClear_stg (a n : Nat) (s : State) : (stgClear a n s).stg = s.stg := rfl
@[simp] theorem stgClear_flash (a n : Nat) (s : State) : (stgClear a n s).flash = s.flash := rfl
@[simp] theorem stgClear_regs (a n : Nat) (s : State) : (stgClear a n s).regs = s.regs := rfl
@[simp] theorem stgClear_staged (a n : Nat) (s : State) : (stgClear a n s).staged = s.staged := rfl
@[simp] theorem stgClear_bootPend (a n : Nat) (s : State) : (stgClear a n s).bootPend = s.bootPend := rfl
@[simp] theorem stgClear_eccBad (a n : Nat) (s : State) : (stgClear a n s).eccBad = s.eccBad := rfl
@[simp] theorem stgClear_stgBad (a n : Nat) (s : State) : (stgClear a n s).stgBad = s.stgBad := rfl
@[simp] theorem stgClear_t (a n : Nat) (s : State) : (stgClear a n s).t = s.t := rfl
@[simp] theorem stgClear_clk (a n : Nat) (s : State) : (stgClear a n s).clk = s.clk := rfl
@[simp] theorem stgClear_roots (a n : Nat) (s : State) : (stgClear a n s).roots = s.roots := rfl
@[simp] theorem stgClear_ports (a n : Nat) (s : State) : (stgClear a n s).ports = s.ports := rfl
@[simp] theorem stgClear_waiting (a n : Nat) (s : State) : (stgClear a n s).waiting = s.waiting := rfl
@[simp] theorem stgClear_waits (a n : Nat) (s : State) : (stgClear a n s).waits = s.waits := rfl
@[simp] theorem stgClear_hold (a n : Nat) (s : State) : (stgClear a n s).hold = s.hold := rfl
@[simp] theorem stgClear_notices (a n : Nat) (s : State) : (stgClear a n s).notices = s.notices := rfl
@[simp] theorem stgClear_localQ (a n : Nat) (s : State) : (stgClear a n s).localQ = s.localQ := rfl
@[simp] theorem stgClear_dets (a n : Nat) (s : State) : (stgClear a n s).dets = s.dets := rfl
@[simp] theorem stgClear_jq (a n : Nat) (s : State) : (stgClear a n s).jq = s.jq := rfl
@[simp] theorem stgClear_pushq (a n : Nat) (s : State) : (stgClear a n s).pushq = s.pushq := rfl
@[simp] theorem stgClear_pseq (a n : Nat) (s : State) : (stgClear a n s).pseq = s.pseq := rfl
@[simp] theorem stgClear_awl (a n : Nat) (s : State) : (stgClear a n s).awl = s.awl := rfl
@[simp] theorem stgClear_ep (a n : Nat) (s : State) : (stgClear a n s).ep = s.ep := rfl
@[simp] theorem stgClear_streams (a n : Nat) (s : State) : (stgClear a n s).streams = s.streams := rfl
@[simp] theorem stgClear_pars (a n : Nat) (s : State) : (stgClear a n s).pars = s.pars := rfl
@[simp] theorem stgClear_asms (a n : Nat) (s : State) : (stgClear a n s).asms = s.asms := rfl
@[simp] theorem stgClear_landed (a n : Nat) (s : State) : (stgClear a n s).landed = s.landed := rfl
@[simp] theorem stgClear_receipts (a n : Nat) (s : State) : (stgClear a n s).receipts = s.receipts := rfl
@[simp] theorem stgClear_tags (a n : Nat) (s : State) : (stgClear a n s).tags = s.tags := rfl
@[simp] theorem stgClear_slots (a n : Nat) (s : State) : (stgClear a n s).slots = s.slots := rfl
@[simp] theorem stgClear_orders (a n : Nat) (s : State) : (stgClear a n s).orders = s.orders := rfl
@[simp] theorem stgClear_gets (a n : Nat) (s : State) : (stgClear a n s).gets = s.gets := rfl
@[simp] theorem stgClear_txns (a n : Nat) (s : State) : (stgClear a n s).txns = s.txns := rfl
@[simp] theorem stgClear_pkgSet (a n : Nat) (s : State) : (stgClear a n s).pkgSet = s.pkgSet := rfl
@[simp] theorem stgClear_lostPuts (a n : Nat) (s : State) : (stgClear a n s).lostPuts = s.lostPuts := rfl
@[simp] theorem stgClear_stagedNow (a n : Nat) (s : State) : (stgClear a n s).stagedNow = s.stagedNow := rfl
@[simp] theorem stgClear_pkgWrote (a n : Nat) (s : State) : (stgClear a n s).pkgWrote = s.pkgWrote := rfl
@[simp] theorem stgClear_txnId (a n : Nat) (s : State) : (stgClear a n s).txnId = s.txnId := rfl
@[simp] theorem stgClear_signals (a n : Nat) (s : State) : (stgClear a n s).signals = s.signals := rfl
@[simp] theorem stgClear_latches (a n : Nat) (s : State) : (stgClear a n s).latches = s.latches := rfl
@[simp] theorem stgClear_tel (a n : Nat) (s : State) : (stgClear a n s).tel = s.tel := rfl
@[simp] theorem stgClear_caps (a n : Nat) (s : State) : (stgClear a n s).caps = s.caps := rfl
@[simp] theorem stgClear_copyBuf (a n : Nat) (s : State) : (stgClear a n s).copyBuf = s.copyBuf := rfl
@[simp] theorem stgClear_replay (a n : Nat) (s : State) : (stgClear a n s).replay = s.replay := rfl
@[simp] theorem stgClear_boot (a n : Nat) (s : State) : (stgClear a n s).boot = s.boot := rfl
@[simp] theorem stgClear_rst (a n : Nat) (s : State) : (stgClear a n s).rst = s.rst := rfl
@[simp] theorem stgClear_fl (a n : Nat) (s : State) : (stgClear a n s).fl = s.fl := rfl
@[simp] theorem stgClear_mgt (a n : Nat) (s : State) : (stgClear a n s).mgt = s.mgt := rfl
@[simp] theorem stgClear_mgr (a n : Nat) (s : State) : (stgClear a n s).mgr = s.mgr := rfl
@[simp] theorem stgClear_map (a n : Nat) (s : State) : (stgClear a n s).map = s.map := rfl
@[simp] theorem stgClear_touch (a n : Nat) (s : State) : (stgClear a n s).touch = s.touch := rfl
@[simp] theorem stgClear_tblOld (a n : Nat) (s : State) : (stgClear a n s).tblOld = s.tblOld := rfl
@[simp] theorem stgClear_free (a n : Nat) (s : State) : (stgClear a n s).free = s.free := rfl
@[simp] theorem stgClear_out (a n : Nat) (s : State) : (stgClear a n s).out = s.out := rfl

@[simp] theorem flashWrite_pending (a : Nat) (b : List Byte) (s : State) : (flashWrite a b s).pending = s.pending := rfl
@[simp] theorem flashWrite_stg (a : Nat) (b : List Byte) (s : State) : (flashWrite a b s).stg = s.stg := rfl
@[simp] theorem flashWrite_flash (a : Nat) (b : List Byte) (s : State) : (flashWrite a b s).flash = s.flash := rfl
@[simp] theorem flashWrite_regs (a : Nat) (b : List Byte) (s : State) : (flashWrite a b s).regs = s.regs := rfl
@[simp] theorem flashWrite_staged (a : Nat) (b : List Byte) (s : State) : (flashWrite a b s).staged = s.staged := rfl
@[simp] theorem flashWrite_bootPend (a : Nat) (b : List Byte) (s : State) : (flashWrite a b s).bootPend = s.bootPend := rfl
@[simp] theorem flashWrite_eccBad (a : Nat) (b : List Byte) (s : State) : (flashWrite a b s).eccBad = s.eccBad := rfl
@[simp] theorem flashWrite_stgBad (a : Nat) (b : List Byte) (s : State) : (flashWrite a b s).stgBad = s.stgBad := rfl
@[simp] theorem flashWrite_t (a : Nat) (b : List Byte) (s : State) : (flashWrite a b s).t = s.t := rfl
@[simp] theorem flashWrite_clk (a : Nat) (b : List Byte) (s : State) : (flashWrite a b s).clk = s.clk := rfl
@[simp] theorem flashWrite_roots (a : Nat) (b : List Byte) (s : State) : (flashWrite a b s).roots = s.roots := rfl
@[simp] theorem flashWrite_ports (a : Nat) (b : List Byte) (s : State) : (flashWrite a b s).ports = s.ports := rfl
@[simp] theorem flashWrite_waiting (a : Nat) (b : List Byte) (s : State) : (flashWrite a b s).waiting = s.waiting := rfl
@[simp] theorem flashWrite_waits (a : Nat) (b : List Byte) (s : State) : (flashWrite a b s).waits = s.waits := rfl
@[simp] theorem flashWrite_hold (a : Nat) (b : List Byte) (s : State) : (flashWrite a b s).hold = s.hold := rfl
@[simp] theorem flashWrite_notices (a : Nat) (b : List Byte) (s : State) : (flashWrite a b s).notices = s.notices := rfl
@[simp] theorem flashWrite_localQ (a : Nat) (b : List Byte) (s : State) : (flashWrite a b s).localQ = s.localQ := rfl
@[simp] theorem flashWrite_dets (a : Nat) (b : List Byte) (s : State) : (flashWrite a b s).dets = s.dets := rfl
@[simp] theorem flashWrite_jq (a : Nat) (b : List Byte) (s : State) : (flashWrite a b s).jq = s.jq := rfl
@[simp] theorem flashWrite_pushq (a : Nat) (b : List Byte) (s : State) : (flashWrite a b s).pushq = s.pushq := rfl
@[simp] theorem flashWrite_pseq (a : Nat) (b : List Byte) (s : State) : (flashWrite a b s).pseq = s.pseq := rfl
@[simp] theorem flashWrite_awl (a : Nat) (b : List Byte) (s : State) : (flashWrite a b s).awl = s.awl := rfl
@[simp] theorem flashWrite_ep (a : Nat) (b : List Byte) (s : State) : (flashWrite a b s).ep = s.ep := rfl
@[simp] theorem flashWrite_streams (a : Nat) (b : List Byte) (s : State) : (flashWrite a b s).streams = s.streams := rfl
@[simp] theorem flashWrite_pars (a : Nat) (b : List Byte) (s : State) : (flashWrite a b s).pars = s.pars := rfl
@[simp] theorem flashWrite_asms (a : Nat) (b : List Byte) (s : State) : (flashWrite a b s).asms = s.asms := rfl
@[simp] theorem flashWrite_landed (a : Nat) (b : List Byte) (s : State) : (flashWrite a b s).landed = s.landed := rfl
@[simp] theorem flashWrite_receipts (a : Nat) (b : List Byte) (s : State) : (flashWrite a b s).receipts = s.receipts := rfl
@[simp] theorem flashWrite_tags (a : Nat) (b : List Byte) (s : State) : (flashWrite a b s).tags = s.tags := rfl
@[simp] theorem flashWrite_slots (a : Nat) (b : List Byte) (s : State) : (flashWrite a b s).slots = s.slots := rfl
@[simp] theorem flashWrite_orders (a : Nat) (b : List Byte) (s : State) : (flashWrite a b s).orders = s.orders := rfl
@[simp] theorem flashWrite_gets (a : Nat) (b : List Byte) (s : State) : (flashWrite a b s).gets = s.gets := rfl
@[simp] theorem flashWrite_txns (a : Nat) (b : List Byte) (s : State) : (flashWrite a b s).txns = s.txns := rfl
@[simp] theorem flashWrite_pkgSet (a : Nat) (b : List Byte) (s : State) : (flashWrite a b s).pkgSet = s.pkgSet := rfl
@[simp] theorem flashWrite_lostPuts (a : Nat) (b : List Byte) (s : State) : (flashWrite a b s).lostPuts = s.lostPuts := rfl
@[simp] theorem flashWrite_stagedNow (a : Nat) (b : List Byte) (s : State) : (flashWrite a b s).stagedNow = s.stagedNow := rfl
@[simp] theorem flashWrite_pkgWrote (a : Nat) (b : List Byte) (s : State) : (flashWrite a b s).pkgWrote = s.pkgWrote := rfl
@[simp] theorem flashWrite_txnId (a : Nat) (b : List Byte) (s : State) : (flashWrite a b s).txnId = s.txnId := rfl
@[simp] theorem flashWrite_signals (a : Nat) (b : List Byte) (s : State) : (flashWrite a b s).signals = s.signals := rfl
@[simp] theorem flashWrite_latches (a : Nat) (b : List Byte) (s : State) : (flashWrite a b s).latches = s.latches := rfl
@[simp] theorem flashWrite_tel (a : Nat) (b : List Byte) (s : State) : (flashWrite a b s).tel = s.tel := rfl
@[simp] theorem flashWrite_caps (a : Nat) (b : List Byte) (s : State) : (flashWrite a b s).caps = s.caps := rfl
@[simp] theorem flashWrite_copyBuf (a : Nat) (b : List Byte) (s : State) : (flashWrite a b s).copyBuf = s.copyBuf := rfl
@[simp] theorem flashWrite_replay (a : Nat) (b : List Byte) (s : State) : (flashWrite a b s).replay = s.replay := rfl
@[simp] theorem flashWrite_boot (a : Nat) (b : List Byte) (s : State) : (flashWrite a b s).boot = s.boot := rfl
@[simp] theorem flashWrite_rst (a : Nat) (b : List Byte) (s : State) : (flashWrite a b s).rst = s.rst := rfl
@[simp] theorem flashWrite_fl (a : Nat) (b : List Byte) (s : State) : (flashWrite a b s).fl = s.fl := rfl
@[simp] theorem flashWrite_mgt (a : Nat) (b : List Byte) (s : State) : (flashWrite a b s).mgt = s.mgt := rfl
@[simp] theorem flashWrite_mgr (a : Nat) (b : List Byte) (s : State) : (flashWrite a b s).mgr = s.mgr := rfl
@[simp] theorem flashWrite_map (a : Nat) (b : List Byte) (s : State) : (flashWrite a b s).map = s.map := rfl
@[simp] theorem flashWrite_touch (a : Nat) (b : List Byte) (s : State) : (flashWrite a b s).touch = s.touch := rfl
@[simp] theorem flashWrite_tblOld (a : Nat) (b : List Byte) (s : State) : (flashWrite a b s).tblOld = s.tblOld := rfl
@[simp] theorem flashWrite_free (a : Nat) (b : List Byte) (s : State) : (flashWrite a b s).free = s.free := rfl
@[simp] theorem flashWrite_out (a : Nat) (b : List Byte) (s : State) : (flashWrite a b s).out = s.out := rfl

@[simp] theorem flashErase_pending (a n : Nat) (s : State) : (flashErase a n s).pending = s.pending := rfl
@[simp] theorem flashErase_stg (a n : Nat) (s : State) : (flashErase a n s).stg = s.stg := rfl
@[simp] theorem flashErase_flash (a n : Nat) (s : State) : (flashErase a n s).flash = s.flash := rfl
@[simp] theorem flashErase_regs (a n : Nat) (s : State) : (flashErase a n s).regs = s.regs := rfl
@[simp] theorem flashErase_staged (a n : Nat) (s : State) : (flashErase a n s).staged = s.staged := rfl
@[simp] theorem flashErase_bootPend (a n : Nat) (s : State) : (flashErase a n s).bootPend = s.bootPend := rfl
@[simp] theorem flashErase_eccBad (a n : Nat) (s : State) : (flashErase a n s).eccBad = s.eccBad := rfl
@[simp] theorem flashErase_stgBad (a n : Nat) (s : State) : (flashErase a n s).stgBad = s.stgBad := rfl
@[simp] theorem flashErase_t (a n : Nat) (s : State) : (flashErase a n s).t = s.t := rfl
@[simp] theorem flashErase_clk (a n : Nat) (s : State) : (flashErase a n s).clk = s.clk := rfl
@[simp] theorem flashErase_roots (a n : Nat) (s : State) : (flashErase a n s).roots = s.roots := rfl
@[simp] theorem flashErase_ports (a n : Nat) (s : State) : (flashErase a n s).ports = s.ports := rfl
@[simp] theorem flashErase_waiting (a n : Nat) (s : State) : (flashErase a n s).waiting = s.waiting := rfl
@[simp] theorem flashErase_waits (a n : Nat) (s : State) : (flashErase a n s).waits = s.waits := rfl
@[simp] theorem flashErase_hold (a n : Nat) (s : State) : (flashErase a n s).hold = s.hold := rfl
@[simp] theorem flashErase_notices (a n : Nat) (s : State) : (flashErase a n s).notices = s.notices := rfl
@[simp] theorem flashErase_localQ (a n : Nat) (s : State) : (flashErase a n s).localQ = s.localQ := rfl
@[simp] theorem flashErase_dets (a n : Nat) (s : State) : (flashErase a n s).dets = s.dets := rfl
@[simp] theorem flashErase_jq (a n : Nat) (s : State) : (flashErase a n s).jq = s.jq := rfl
@[simp] theorem flashErase_pushq (a n : Nat) (s : State) : (flashErase a n s).pushq = s.pushq := rfl
@[simp] theorem flashErase_pseq (a n : Nat) (s : State) : (flashErase a n s).pseq = s.pseq := rfl
@[simp] theorem flashErase_awl (a n : Nat) (s : State) : (flashErase a n s).awl = s.awl := rfl
@[simp] theorem flashErase_ep (a n : Nat) (s : State) : (flashErase a n s).ep = s.ep := rfl
@[simp] theorem flashErase_streams (a n : Nat) (s : State) : (flashErase a n s).streams = s.streams := rfl
@[simp] theorem flashErase_pars (a n : Nat) (s : State) : (flashErase a n s).pars = s.pars := rfl
@[simp] theorem flashErase_asms (a n : Nat) (s : State) : (flashErase a n s).asms = s.asms := rfl
@[simp] theorem flashErase_landed (a n : Nat) (s : State) : (flashErase a n s).landed = s.landed := rfl
@[simp] theorem flashErase_receipts (a n : Nat) (s : State) : (flashErase a n s).receipts = s.receipts := rfl
@[simp] theorem flashErase_tags (a n : Nat) (s : State) : (flashErase a n s).tags = s.tags := rfl
@[simp] theorem flashErase_slots (a n : Nat) (s : State) : (flashErase a n s).slots = s.slots := rfl
@[simp] theorem flashErase_orders (a n : Nat) (s : State) : (flashErase a n s).orders = s.orders := rfl
@[simp] theorem flashErase_gets (a n : Nat) (s : State) : (flashErase a n s).gets = s.gets := rfl
@[simp] theorem flashErase_txns (a n : Nat) (s : State) : (flashErase a n s).txns = s.txns := rfl
@[simp] theorem flashErase_pkgSet (a n : Nat) (s : State) : (flashErase a n s).pkgSet = s.pkgSet := rfl
@[simp] theorem flashErase_lostPuts (a n : Nat) (s : State) : (flashErase a n s).lostPuts = s.lostPuts := rfl
@[simp] theorem flashErase_stagedNow (a n : Nat) (s : State) : (flashErase a n s).stagedNow = s.stagedNow := rfl
@[simp] theorem flashErase_pkgWrote (a n : Nat) (s : State) : (flashErase a n s).pkgWrote = s.pkgWrote := rfl
@[simp] theorem flashErase_txnId (a n : Nat) (s : State) : (flashErase a n s).txnId = s.txnId := rfl
@[simp] theorem flashErase_signals (a n : Nat) (s : State) : (flashErase a n s).signals = s.signals := rfl
@[simp] theorem flashErase_latches (a n : Nat) (s : State) : (flashErase a n s).latches = s.latches := rfl
@[simp] theorem flashErase_tel (a n : Nat) (s : State) : (flashErase a n s).tel = s.tel := rfl
@[simp] theorem flashErase_caps (a n : Nat) (s : State) : (flashErase a n s).caps = s.caps := rfl
@[simp] theorem flashErase_copyBuf (a n : Nat) (s : State) : (flashErase a n s).copyBuf = s.copyBuf := rfl
@[simp] theorem flashErase_replay (a n : Nat) (s : State) : (flashErase a n s).replay = s.replay := rfl
@[simp] theorem flashErase_boot (a n : Nat) (s : State) : (flashErase a n s).boot = s.boot := rfl
@[simp] theorem flashErase_rst (a n : Nat) (s : State) : (flashErase a n s).rst = s.rst := rfl
@[simp] theorem flashErase_fl (a n : Nat) (s : State) : (flashErase a n s).fl = s.fl := rfl
@[simp] theorem flashErase_mgt (a n : Nat) (s : State) : (flashErase a n s).mgt = s.mgt := rfl
@[simp] theorem flashErase_mgr (a n : Nat) (s : State) : (flashErase a n s).mgr = s.mgr := rfl
@[simp] theorem flashErase_map (a n : Nat) (s : State) : (flashErase a n s).map = s.map := rfl
@[simp] theorem flashErase_touch (a n : Nat) (s : State) : (flashErase a n s).touch = s.touch := rfl
@[simp] theorem flashErase_tblOld (a n : Nat) (s : State) : (flashErase a n s).tblOld = s.tblOld := rfl
@[simp] theorem flashErase_free (a n : Nat) (s : State) : (flashErase a n s).free = s.free := rfl
@[simp] theorem flashErase_out (a n : Nat) (s : State) : (flashErase a n s).out = s.out := rfl

@[simp] theorem tblWrite_pending (a : Nat) (v : Word) (s : State) : (tblWrite a v s).pending = s.pending := rfl
@[simp] theorem tblWrite_writes (a : Nat) (v : Word) (s : State) : (tblWrite a v s).writes = s.writes := rfl
@[simp] theorem tblWrite_stg (a : Nat) (v : Word) (s : State) : (tblWrite a v s).stg = s.stg := rfl
@[simp] theorem tblWrite_flash (a : Nat) (v : Word) (s : State) : (tblWrite a v s).flash = s.flash := rfl
@[simp] theorem tblWrite_staged (a : Nat) (v : Word) (s : State) : (tblWrite a v s).staged = s.staged := rfl
@[simp] theorem tblWrite_bootPend (a : Nat) (v : Word) (s : State) : (tblWrite a v s).bootPend = s.bootPend := rfl
@[simp] theorem tblWrite_stgBad (a : Nat) (v : Word) (s : State) : (tblWrite a v s).stgBad = s.stgBad := rfl
@[simp] theorem tblWrite_t (a : Nat) (v : Word) (s : State) : (tblWrite a v s).t = s.t := rfl
@[simp] theorem tblWrite_clk (a : Nat) (v : Word) (s : State) : (tblWrite a v s).clk = s.clk := rfl
@[simp] theorem tblWrite_roots (a : Nat) (v : Word) (s : State) : (tblWrite a v s).roots = s.roots := rfl
@[simp] theorem tblWrite_ports (a : Nat) (v : Word) (s : State) : (tblWrite a v s).ports = s.ports := rfl
@[simp] theorem tblWrite_waiting (a : Nat) (v : Word) (s : State) : (tblWrite a v s).waiting = s.waiting := rfl
@[simp] theorem tblWrite_waits (a : Nat) (v : Word) (s : State) : (tblWrite a v s).waits = s.waits := rfl
@[simp] theorem tblWrite_hold (a : Nat) (v : Word) (s : State) : (tblWrite a v s).hold = s.hold := rfl
@[simp] theorem tblWrite_notices (a : Nat) (v : Word) (s : State) : (tblWrite a v s).notices = s.notices := rfl
@[simp] theorem tblWrite_localQ (a : Nat) (v : Word) (s : State) : (tblWrite a v s).localQ = s.localQ := rfl
@[simp] theorem tblWrite_dets (a : Nat) (v : Word) (s : State) : (tblWrite a v s).dets = s.dets := rfl
@[simp] theorem tblWrite_jq (a : Nat) (v : Word) (s : State) : (tblWrite a v s).jq = s.jq := rfl
@[simp] theorem tblWrite_pushq (a : Nat) (v : Word) (s : State) : (tblWrite a v s).pushq = s.pushq := rfl
@[simp] theorem tblWrite_pseq (a : Nat) (v : Word) (s : State) : (tblWrite a v s).pseq = s.pseq := rfl
@[simp] theorem tblWrite_awl (a : Nat) (v : Word) (s : State) : (tblWrite a v s).awl = s.awl := rfl
@[simp] theorem tblWrite_ep (a : Nat) (v : Word) (s : State) : (tblWrite a v s).ep = s.ep := rfl
@[simp] theorem tblWrite_streams (a : Nat) (v : Word) (s : State) : (tblWrite a v s).streams = s.streams := rfl
@[simp] theorem tblWrite_pars (a : Nat) (v : Word) (s : State) : (tblWrite a v s).pars = s.pars := rfl
@[simp] theorem tblWrite_asms (a : Nat) (v : Word) (s : State) : (tblWrite a v s).asms = s.asms := rfl
@[simp] theorem tblWrite_landed (a : Nat) (v : Word) (s : State) : (tblWrite a v s).landed = s.landed := rfl
@[simp] theorem tblWrite_receipts (a : Nat) (v : Word) (s : State) : (tblWrite a v s).receipts = s.receipts := rfl
@[simp] theorem tblWrite_tags (a : Nat) (v : Word) (s : State) : (tblWrite a v s).tags = s.tags := rfl
@[simp] theorem tblWrite_slots (a : Nat) (v : Word) (s : State) : (tblWrite a v s).slots = s.slots := rfl
@[simp] theorem tblWrite_orders (a : Nat) (v : Word) (s : State) : (tblWrite a v s).orders = s.orders := rfl
@[simp] theorem tblWrite_gets (a : Nat) (v : Word) (s : State) : (tblWrite a v s).gets = s.gets := rfl
@[simp] theorem tblWrite_txns (a : Nat) (v : Word) (s : State) : (tblWrite a v s).txns = s.txns := rfl
@[simp] theorem tblWrite_pkgSet (a : Nat) (v : Word) (s : State) : (tblWrite a v s).pkgSet = s.pkgSet := rfl
@[simp] theorem tblWrite_lostPuts (a : Nat) (v : Word) (s : State) : (tblWrite a v s).lostPuts = s.lostPuts := rfl
@[simp] theorem tblWrite_stagedNow (a : Nat) (v : Word) (s : State) : (tblWrite a v s).stagedNow = s.stagedNow := rfl
@[simp] theorem tblWrite_pkgWrote (a : Nat) (v : Word) (s : State) : (tblWrite a v s).pkgWrote = s.pkgWrote := rfl
@[simp] theorem tblWrite_txnId (a : Nat) (v : Word) (s : State) : (tblWrite a v s).txnId = s.txnId := rfl
@[simp] theorem tblWrite_signals (a : Nat) (v : Word) (s : State) : (tblWrite a v s).signals = s.signals := rfl
@[simp] theorem tblWrite_latches (a : Nat) (v : Word) (s : State) : (tblWrite a v s).latches = s.latches := rfl
@[simp] theorem tblWrite_tel (a : Nat) (v : Word) (s : State) : (tblWrite a v s).tel = s.tel := rfl
@[simp] theorem tblWrite_caps (a : Nat) (v : Word) (s : State) : (tblWrite a v s).caps = s.caps := rfl
@[simp] theorem tblWrite_copyBuf (a : Nat) (v : Word) (s : State) : (tblWrite a v s).copyBuf = s.copyBuf := rfl
@[simp] theorem tblWrite_replay (a : Nat) (v : Word) (s : State) : (tblWrite a v s).replay = s.replay := rfl
@[simp] theorem tblWrite_boot (a : Nat) (v : Word) (s : State) : (tblWrite a v s).boot = s.boot := rfl
@[simp] theorem tblWrite_rst (a : Nat) (v : Word) (s : State) : (tblWrite a v s).rst = s.rst := rfl
@[simp] theorem tblWrite_fl (a : Nat) (v : Word) (s : State) : (tblWrite a v s).fl = s.fl := rfl
@[simp] theorem tblWrite_mgt (a : Nat) (v : Word) (s : State) : (tblWrite a v s).mgt = s.mgt := rfl
@[simp] theorem tblWrite_mgr (a : Nat) (v : Word) (s : State) : (tblWrite a v s).mgr = s.mgr := rfl
@[simp] theorem tblWrite_map (a : Nat) (v : Word) (s : State) : (tblWrite a v s).map = s.map := rfl
@[simp] theorem tblWrite_touch (a : Nat) (v : Word) (s : State) : (tblWrite a v s).touch = s.touch := rfl
@[simp] theorem tblWrite_free (a : Nat) (v : Word) (s : State) : (tblWrite a v s).free = s.free := rfl
@[simp] theorem tblWrite_out (a : Nat) (v : Word) (s : State) : (tblWrite a v s).out = s.out := rfl

@[simp] theorem modStr_pending (k : Nat) (f : Stream → Stream) (s : State) : (modStr k f s).pending = s.pending := rfl
@[simp] theorem modStr_writes (k : Nat) (f : Stream → Stream) (s : State) : (modStr k f s).writes = s.writes := rfl
@[simp] theorem modStr_stg (k : Nat) (f : Stream → Stream) (s : State) : (modStr k f s).stg = s.stg := rfl
@[simp] theorem modStr_flash (k : Nat) (f : Stream → Stream) (s : State) : (modStr k f s).flash = s.flash := rfl
@[simp] theorem modStr_regs (k : Nat) (f : Stream → Stream) (s : State) : (modStr k f s).regs = s.regs := rfl
@[simp] theorem modStr_staged (k : Nat) (f : Stream → Stream) (s : State) : (modStr k f s).staged = s.staged := rfl
@[simp] theorem modStr_bootPend (k : Nat) (f : Stream → Stream) (s : State) : (modStr k f s).bootPend = s.bootPend := rfl
@[simp] theorem modStr_eccBad (k : Nat) (f : Stream → Stream) (s : State) : (modStr k f s).eccBad = s.eccBad := rfl
@[simp] theorem modStr_stgBad (k : Nat) (f : Stream → Stream) (s : State) : (modStr k f s).stgBad = s.stgBad := rfl
@[simp] theorem modStr_t (k : Nat) (f : Stream → Stream) (s : State) : (modStr k f s).t = s.t := rfl
@[simp] theorem modStr_clk (k : Nat) (f : Stream → Stream) (s : State) : (modStr k f s).clk = s.clk := rfl
@[simp] theorem modStr_roots (k : Nat) (f : Stream → Stream) (s : State) : (modStr k f s).roots = s.roots := rfl
@[simp] theorem modStr_ports (k : Nat) (f : Stream → Stream) (s : State) : (modStr k f s).ports = s.ports := rfl
@[simp] theorem modStr_waiting (k : Nat) (f : Stream → Stream) (s : State) : (modStr k f s).waiting = s.waiting := rfl
@[simp] theorem modStr_waits (k : Nat) (f : Stream → Stream) (s : State) : (modStr k f s).waits = s.waits := rfl
@[simp] theorem modStr_hold (k : Nat) (f : Stream → Stream) (s : State) : (modStr k f s).hold = s.hold := rfl
@[simp] theorem modStr_notices (k : Nat) (f : Stream → Stream) (s : State) : (modStr k f s).notices = s.notices := rfl
@[simp] theorem modStr_localQ (k : Nat) (f : Stream → Stream) (s : State) : (modStr k f s).localQ = s.localQ := rfl
@[simp] theorem modStr_dets (k : Nat) (f : Stream → Stream) (s : State) : (modStr k f s).dets = s.dets := rfl
@[simp] theorem modStr_jq (k : Nat) (f : Stream → Stream) (s : State) : (modStr k f s).jq = s.jq := rfl
@[simp] theorem modStr_pushq (k : Nat) (f : Stream → Stream) (s : State) : (modStr k f s).pushq = s.pushq := rfl
@[simp] theorem modStr_pseq (k : Nat) (f : Stream → Stream) (s : State) : (modStr k f s).pseq = s.pseq := rfl
@[simp] theorem modStr_awl (k : Nat) (f : Stream → Stream) (s : State) : (modStr k f s).awl = s.awl := rfl
@[simp] theorem modStr_ep (k : Nat) (f : Stream → Stream) (s : State) : (modStr k f s).ep = s.ep := rfl
@[simp] theorem modStr_pars (k : Nat) (f : Stream → Stream) (s : State) : (modStr k f s).pars = s.pars := rfl
@[simp] theorem modStr_asms (k : Nat) (f : Stream → Stream) (s : State) : (modStr k f s).asms = s.asms := rfl
@[simp] theorem modStr_landed (k : Nat) (f : Stream → Stream) (s : State) : (modStr k f s).landed = s.landed := rfl
@[simp] theorem modStr_receipts (k : Nat) (f : Stream → Stream) (s : State) : (modStr k f s).receipts = s.receipts := rfl
@[simp] theorem modStr_tags (k : Nat) (f : Stream → Stream) (s : State) : (modStr k f s).tags = s.tags := rfl
@[simp] theorem modStr_slots (k : Nat) (f : Stream → Stream) (s : State) : (modStr k f s).slots = s.slots := rfl
@[simp] theorem modStr_orders (k : Nat) (f : Stream → Stream) (s : State) : (modStr k f s).orders = s.orders := rfl
@[simp] theorem modStr_gets (k : Nat) (f : Stream → Stream) (s : State) : (modStr k f s).gets = s.gets := rfl
@[simp] theorem modStr_txns (k : Nat) (f : Stream → Stream) (s : State) : (modStr k f s).txns = s.txns := rfl
@[simp] theorem modStr_pkgSet (k : Nat) (f : Stream → Stream) (s : State) : (modStr k f s).pkgSet = s.pkgSet := rfl
@[simp] theorem modStr_lostPuts (k : Nat) (f : Stream → Stream) (s : State) : (modStr k f s).lostPuts = s.lostPuts := rfl
@[simp] theorem modStr_stagedNow (k : Nat) (f : Stream → Stream) (s : State) : (modStr k f s).stagedNow = s.stagedNow := rfl
@[simp] theorem modStr_pkgWrote (k : Nat) (f : Stream → Stream) (s : State) : (modStr k f s).pkgWrote = s.pkgWrote := rfl
@[simp] theorem modStr_txnId (k : Nat) (f : Stream → Stream) (s : State) : (modStr k f s).txnId = s.txnId := rfl
@[simp] theorem modStr_signals (k : Nat) (f : Stream → Stream) (s : State) : (modStr k f s).signals = s.signals := rfl
@[simp] theorem modStr_latches (k : Nat) (f : Stream → Stream) (s : State) : (modStr k f s).latches = s.latches := rfl
@[simp] theorem modStr_tel (k : Nat) (f : Stream → Stream) (s : State) : (modStr k f s).tel = s.tel := rfl
@[simp] theorem modStr_caps (k : Nat) (f : Stream → Stream) (s : State) : (modStr k f s).caps = s.caps := rfl
@[simp] theorem modStr_copyBuf (k : Nat) (f : Stream → Stream) (s : State) : (modStr k f s).copyBuf = s.copyBuf := rfl
@[simp] theorem modStr_replay (k : Nat) (f : Stream → Stream) (s : State) : (modStr k f s).replay = s.replay := rfl
@[simp] theorem modStr_boot (k : Nat) (f : Stream → Stream) (s : State) : (modStr k f s).boot = s.boot := rfl
@[simp] theorem modStr_rst (k : Nat) (f : Stream → Stream) (s : State) : (modStr k f s).rst = s.rst := rfl
@[simp] theorem modStr_fl (k : Nat) (f : Stream → Stream) (s : State) : (modStr k f s).fl = s.fl := rfl
@[simp] theorem modStr_mgt (k : Nat) (f : Stream → Stream) (s : State) : (modStr k f s).mgt = s.mgt := rfl
@[simp] theorem modStr_mgr (k : Nat) (f : Stream → Stream) (s : State) : (modStr k f s).mgr = s.mgr := rfl
@[simp] theorem modStr_map (k : Nat) (f : Stream → Stream) (s : State) : (modStr k f s).map = s.map := rfl
@[simp] theorem modStr_touch (k : Nat) (f : Stream → Stream) (s : State) : (modStr k f s).touch = s.touch := rfl
@[simp] theorem modStr_tblOld (k : Nat) (f : Stream → Stream) (s : State) : (modStr k f s).tblOld = s.tblOld := rfl
@[simp] theorem modStr_free (k : Nat) (f : Stream → Stream) (s : State) : (modStr k f s).free = s.free := rfl
@[simp] theorem modStr_out (k : Nat) (f : Stream → Stream) (s : State) : (modStr k f s).out = s.out := rfl

@[simp] theorem modPar_pending (n : Nat) (f : Par → Par) (s : State) : (modPar n f s).pending = s.pending := rfl
@[simp] theorem modPar_writes (n : Nat) (f : Par → Par) (s : State) : (modPar n f s).writes = s.writes := rfl
@[simp] theorem modPar_stg (n : Nat) (f : Par → Par) (s : State) : (modPar n f s).stg = s.stg := rfl
@[simp] theorem modPar_flash (n : Nat) (f : Par → Par) (s : State) : (modPar n f s).flash = s.flash := rfl
@[simp] theorem modPar_regs (n : Nat) (f : Par → Par) (s : State) : (modPar n f s).regs = s.regs := rfl
@[simp] theorem modPar_staged (n : Nat) (f : Par → Par) (s : State) : (modPar n f s).staged = s.staged := rfl
@[simp] theorem modPar_bootPend (n : Nat) (f : Par → Par) (s : State) : (modPar n f s).bootPend = s.bootPend := rfl
@[simp] theorem modPar_eccBad (n : Nat) (f : Par → Par) (s : State) : (modPar n f s).eccBad = s.eccBad := rfl
@[simp] theorem modPar_stgBad (n : Nat) (f : Par → Par) (s : State) : (modPar n f s).stgBad = s.stgBad := rfl
@[simp] theorem modPar_t (n : Nat) (f : Par → Par) (s : State) : (modPar n f s).t = s.t := rfl
@[simp] theorem modPar_clk (n : Nat) (f : Par → Par) (s : State) : (modPar n f s).clk = s.clk := rfl
@[simp] theorem modPar_roots (n : Nat) (f : Par → Par) (s : State) : (modPar n f s).roots = s.roots := rfl
@[simp] theorem modPar_ports (n : Nat) (f : Par → Par) (s : State) : (modPar n f s).ports = s.ports := rfl
@[simp] theorem modPar_waiting (n : Nat) (f : Par → Par) (s : State) : (modPar n f s).waiting = s.waiting := rfl
@[simp] theorem modPar_waits (n : Nat) (f : Par → Par) (s : State) : (modPar n f s).waits = s.waits := rfl
@[simp] theorem modPar_hold (n : Nat) (f : Par → Par) (s : State) : (modPar n f s).hold = s.hold := rfl
@[simp] theorem modPar_notices (n : Nat) (f : Par → Par) (s : State) : (modPar n f s).notices = s.notices := rfl
@[simp] theorem modPar_localQ (n : Nat) (f : Par → Par) (s : State) : (modPar n f s).localQ = s.localQ := rfl
@[simp] theorem modPar_dets (n : Nat) (f : Par → Par) (s : State) : (modPar n f s).dets = s.dets := rfl
@[simp] theorem modPar_jq (n : Nat) (f : Par → Par) (s : State) : (modPar n f s).jq = s.jq := rfl
@[simp] theorem modPar_pushq (n : Nat) (f : Par → Par) (s : State) : (modPar n f s).pushq = s.pushq := rfl
@[simp] theorem modPar_pseq (n : Nat) (f : Par → Par) (s : State) : (modPar n f s).pseq = s.pseq := rfl
@[simp] theorem modPar_awl (n : Nat) (f : Par → Par) (s : State) : (modPar n f s).awl = s.awl := rfl
@[simp] theorem modPar_ep (n : Nat) (f : Par → Par) (s : State) : (modPar n f s).ep = s.ep := rfl
@[simp] theorem modPar_streams (n : Nat) (f : Par → Par) (s : State) : (modPar n f s).streams = s.streams := rfl
@[simp] theorem modPar_asms (n : Nat) (f : Par → Par) (s : State) : (modPar n f s).asms = s.asms := rfl
@[simp] theorem modPar_landed (n : Nat) (f : Par → Par) (s : State) : (modPar n f s).landed = s.landed := rfl
@[simp] theorem modPar_receipts (n : Nat) (f : Par → Par) (s : State) : (modPar n f s).receipts = s.receipts := rfl
@[simp] theorem modPar_tags (n : Nat) (f : Par → Par) (s : State) : (modPar n f s).tags = s.tags := rfl
@[simp] theorem modPar_slots (n : Nat) (f : Par → Par) (s : State) : (modPar n f s).slots = s.slots := rfl
@[simp] theorem modPar_orders (n : Nat) (f : Par → Par) (s : State) : (modPar n f s).orders = s.orders := rfl
@[simp] theorem modPar_gets (n : Nat) (f : Par → Par) (s : State) : (modPar n f s).gets = s.gets := rfl
@[simp] theorem modPar_txns (n : Nat) (f : Par → Par) (s : State) : (modPar n f s).txns = s.txns := rfl
@[simp] theorem modPar_pkgSet (n : Nat) (f : Par → Par) (s : State) : (modPar n f s).pkgSet = s.pkgSet := rfl
@[simp] theorem modPar_lostPuts (n : Nat) (f : Par → Par) (s : State) : (modPar n f s).lostPuts = s.lostPuts := rfl
@[simp] theorem modPar_stagedNow (n : Nat) (f : Par → Par) (s : State) : (modPar n f s).stagedNow = s.stagedNow := rfl
@[simp] theorem modPar_pkgWrote (n : Nat) (f : Par → Par) (s : State) : (modPar n f s).pkgWrote = s.pkgWrote := rfl
@[simp] theorem modPar_txnId (n : Nat) (f : Par → Par) (s : State) : (modPar n f s).txnId = s.txnId := rfl
@[simp] theorem modPar_signals (n : Nat) (f : Par → Par) (s : State) : (modPar n f s).signals = s.signals := rfl
@[simp] theorem modPar_latches (n : Nat) (f : Par → Par) (s : State) : (modPar n f s).latches = s.latches := rfl
@[simp] theorem modPar_tel (n : Nat) (f : Par → Par) (s : State) : (modPar n f s).tel = s.tel := rfl
@[simp] theorem modPar_caps (n : Nat) (f : Par → Par) (s : State) : (modPar n f s).caps = s.caps := rfl
@[simp] theorem modPar_copyBuf (n : Nat) (f : Par → Par) (s : State) : (modPar n f s).copyBuf = s.copyBuf := rfl
@[simp] theorem modPar_replay (n : Nat) (f : Par → Par) (s : State) : (modPar n f s).replay = s.replay := rfl
@[simp] theorem modPar_boot (n : Nat) (f : Par → Par) (s : State) : (modPar n f s).boot = s.boot := rfl
@[simp] theorem modPar_rst (n : Nat) (f : Par → Par) (s : State) : (modPar n f s).rst = s.rst := rfl
@[simp] theorem modPar_fl (n : Nat) (f : Par → Par) (s : State) : (modPar n f s).fl = s.fl := rfl
@[simp] theorem modPar_mgt (n : Nat) (f : Par → Par) (s : State) : (modPar n f s).mgt = s.mgt := rfl
@[simp] theorem modPar_mgr (n : Nat) (f : Par → Par) (s : State) : (modPar n f s).mgr = s.mgr := rfl
@[simp] theorem modPar_map (n : Nat) (f : Par → Par) (s : State) : (modPar n f s).map = s.map := rfl
@[simp] theorem modPar_touch (n : Nat) (f : Par → Par) (s : State) : (modPar n f s).touch = s.touch := rfl
@[simp] theorem modPar_tblOld (n : Nat) (f : Par → Par) (s : State) : (modPar n f s).tblOld = s.tblOld := rfl
@[simp] theorem modPar_free (n : Nat) (f : Par → Par) (s : State) : (modPar n f s).free = s.free := rfl
@[simp] theorem modPar_out (n : Nat) (f : Par → Par) (s : State) : (modPar n f s).out = s.out := rfl

@[simp] theorem modFl_pending (f : FlashS → FlashS) (s : State) : (modFl f s).pending = s.pending := rfl
@[simp] theorem modFl_writes (f : FlashS → FlashS) (s : State) : (modFl f s).writes = s.writes := rfl
@[simp] theorem modFl_stg (f : FlashS → FlashS) (s : State) : (modFl f s).stg = s.stg := rfl
@[simp] theorem modFl_flash (f : FlashS → FlashS) (s : State) : (modFl f s).flash = s.flash := rfl
@[simp] theorem modFl_regs (f : FlashS → FlashS) (s : State) : (modFl f s).regs = s.regs := rfl
@[simp] theorem modFl_staged (f : FlashS → FlashS) (s : State) : (modFl f s).staged = s.staged := rfl
@[simp] theorem modFl_bootPend (f : FlashS → FlashS) (s : State) : (modFl f s).bootPend = s.bootPend := rfl
@[simp] theorem modFl_eccBad (f : FlashS → FlashS) (s : State) : (modFl f s).eccBad = s.eccBad := rfl
@[simp] theorem modFl_stgBad (f : FlashS → FlashS) (s : State) : (modFl f s).stgBad = s.stgBad := rfl
@[simp] theorem modFl_t (f : FlashS → FlashS) (s : State) : (modFl f s).t = s.t := rfl
@[simp] theorem modFl_clk (f : FlashS → FlashS) (s : State) : (modFl f s).clk = s.clk := rfl
@[simp] theorem modFl_roots (f : FlashS → FlashS) (s : State) : (modFl f s).roots = s.roots := rfl
@[simp] theorem modFl_ports (f : FlashS → FlashS) (s : State) : (modFl f s).ports = s.ports := rfl
@[simp] theorem modFl_waiting (f : FlashS → FlashS) (s : State) : (modFl f s).waiting = s.waiting := rfl
@[simp] theorem modFl_waits (f : FlashS → FlashS) (s : State) : (modFl f s).waits = s.waits := rfl
@[simp] theorem modFl_hold (f : FlashS → FlashS) (s : State) : (modFl f s).hold = s.hold := rfl
@[simp] theorem modFl_notices (f : FlashS → FlashS) (s : State) : (modFl f s).notices = s.notices := rfl
@[simp] theorem modFl_localQ (f : FlashS → FlashS) (s : State) : (modFl f s).localQ = s.localQ := rfl
@[simp] theorem modFl_dets (f : FlashS → FlashS) (s : State) : (modFl f s).dets = s.dets := rfl
@[simp] theorem modFl_jq (f : FlashS → FlashS) (s : State) : (modFl f s).jq = s.jq := rfl
@[simp] theorem modFl_pushq (f : FlashS → FlashS) (s : State) : (modFl f s).pushq = s.pushq := rfl
@[simp] theorem modFl_pseq (f : FlashS → FlashS) (s : State) : (modFl f s).pseq = s.pseq := rfl
@[simp] theorem modFl_awl (f : FlashS → FlashS) (s : State) : (modFl f s).awl = s.awl := rfl
@[simp] theorem modFl_ep (f : FlashS → FlashS) (s : State) : (modFl f s).ep = s.ep := rfl
@[simp] theorem modFl_streams (f : FlashS → FlashS) (s : State) : (modFl f s).streams = s.streams := rfl
@[simp] theorem modFl_pars (f : FlashS → FlashS) (s : State) : (modFl f s).pars = s.pars := rfl
@[simp] theorem modFl_asms (f : FlashS → FlashS) (s : State) : (modFl f s).asms = s.asms := rfl
@[simp] theorem modFl_landed (f : FlashS → FlashS) (s : State) : (modFl f s).landed = s.landed := rfl
@[simp] theorem modFl_receipts (f : FlashS → FlashS) (s : State) : (modFl f s).receipts = s.receipts := rfl
@[simp] theorem modFl_tags (f : FlashS → FlashS) (s : State) : (modFl f s).tags = s.tags := rfl
@[simp] theorem modFl_slots (f : FlashS → FlashS) (s : State) : (modFl f s).slots = s.slots := rfl
@[simp] theorem modFl_orders (f : FlashS → FlashS) (s : State) : (modFl f s).orders = s.orders := rfl
@[simp] theorem modFl_gets (f : FlashS → FlashS) (s : State) : (modFl f s).gets = s.gets := rfl
@[simp] theorem modFl_txns (f : FlashS → FlashS) (s : State) : (modFl f s).txns = s.txns := rfl
@[simp] theorem modFl_pkgSet (f : FlashS → FlashS) (s : State) : (modFl f s).pkgSet = s.pkgSet := rfl
@[simp] theorem modFl_lostPuts (f : FlashS → FlashS) (s : State) : (modFl f s).lostPuts = s.lostPuts := rfl
@[simp] theorem modFl_stagedNow (f : FlashS → FlashS) (s : State) : (modFl f s).stagedNow = s.stagedNow := rfl
@[simp] theorem modFl_pkgWrote (f : FlashS → FlashS) (s : State) : (modFl f s).pkgWrote = s.pkgWrote := rfl
@[simp] theorem modFl_txnId (f : FlashS → FlashS) (s : State) : (modFl f s).txnId = s.txnId := rfl
@[simp] theorem modFl_signals (f : FlashS → FlashS) (s : State) : (modFl f s).signals = s.signals := rfl
@[simp] theorem modFl_latches (f : FlashS → FlashS) (s : State) : (modFl f s).latches = s.latches := rfl
@[simp] theorem modFl_tel (f : FlashS → FlashS) (s : State) : (modFl f s).tel = s.tel := rfl
@[simp] theorem modFl_caps (f : FlashS → FlashS) (s : State) : (modFl f s).caps = s.caps := rfl
@[simp] theorem modFl_copyBuf (f : FlashS → FlashS) (s : State) : (modFl f s).copyBuf = s.copyBuf := rfl
@[simp] theorem modFl_replay (f : FlashS → FlashS) (s : State) : (modFl f s).replay = s.replay := rfl
@[simp] theorem modFl_boot (f : FlashS → FlashS) (s : State) : (modFl f s).boot = s.boot := rfl
@[simp] theorem modFl_rst (f : FlashS → FlashS) (s : State) : (modFl f s).rst = s.rst := rfl
@[simp] theorem modFl_mgt (f : FlashS → FlashS) (s : State) : (modFl f s).mgt = s.mgt := rfl
@[simp] theorem modFl_mgr (f : FlashS → FlashS) (s : State) : (modFl f s).mgr = s.mgr := rfl
@[simp] theorem modFl_map (f : FlashS → FlashS) (s : State) : (modFl f s).map = s.map := rfl
@[simp] theorem modFl_touch (f : FlashS → FlashS) (s : State) : (modFl f s).touch = s.touch := rfl
@[simp] theorem modFl_tblOld (f : FlashS → FlashS) (s : State) : (modFl f s).tblOld = s.tblOld := rfl
@[simp] theorem modFl_free (f : FlashS → FlashS) (s : State) : (modFl f s).free = s.free := rfl
@[simp] theorem modFl_out (f : FlashS → FlashS) (s : State) : (modFl f s).out = s.out := rfl

@[simp] theorem modBoot_pending (f : BootS → BootS) (s : State) : (modBoot f s).pending = s.pending := rfl
@[simp] theorem modBoot_writes (f : BootS → BootS) (s : State) : (modBoot f s).writes = s.writes := rfl
@[simp] theorem modBoot_stg (f : BootS → BootS) (s : State) : (modBoot f s).stg = s.stg := rfl
@[simp] theorem modBoot_flash (f : BootS → BootS) (s : State) : (modBoot f s).flash = s.flash := rfl
@[simp] theorem modBoot_regs (f : BootS → BootS) (s : State) : (modBoot f s).regs = s.regs := rfl
@[simp] theorem modBoot_staged (f : BootS → BootS) (s : State) : (modBoot f s).staged = s.staged := rfl
@[simp] theorem modBoot_bootPend (f : BootS → BootS) (s : State) : (modBoot f s).bootPend = s.bootPend := rfl
@[simp] theorem modBoot_eccBad (f : BootS → BootS) (s : State) : (modBoot f s).eccBad = s.eccBad := rfl
@[simp] theorem modBoot_stgBad (f : BootS → BootS) (s : State) : (modBoot f s).stgBad = s.stgBad := rfl
@[simp] theorem modBoot_t (f : BootS → BootS) (s : State) : (modBoot f s).t = s.t := rfl
@[simp] theorem modBoot_clk (f : BootS → BootS) (s : State) : (modBoot f s).clk = s.clk := rfl
@[simp] theorem modBoot_roots (f : BootS → BootS) (s : State) : (modBoot f s).roots = s.roots := rfl
@[simp] theorem modBoot_ports (f : BootS → BootS) (s : State) : (modBoot f s).ports = s.ports := rfl
@[simp] theorem modBoot_waiting (f : BootS → BootS) (s : State) : (modBoot f s).waiting = s.waiting := rfl
@[simp] theorem modBoot_waits (f : BootS → BootS) (s : State) : (modBoot f s).waits = s.waits := rfl
@[simp] theorem modBoot_hold (f : BootS → BootS) (s : State) : (modBoot f s).hold = s.hold := rfl
@[simp] theorem modBoot_notices (f : BootS → BootS) (s : State) : (modBoot f s).notices = s.notices := rfl
@[simp] theorem modBoot_localQ (f : BootS → BootS) (s : State) : (modBoot f s).localQ = s.localQ := rfl
@[simp] theorem modBoot_dets (f : BootS → BootS) (s : State) : (modBoot f s).dets = s.dets := rfl
@[simp] theorem modBoot_jq (f : BootS → BootS) (s : State) : (modBoot f s).jq = s.jq := rfl
@[simp] theorem modBoot_pushq (f : BootS → BootS) (s : State) : (modBoot f s).pushq = s.pushq := rfl
@[simp] theorem modBoot_pseq (f : BootS → BootS) (s : State) : (modBoot f s).pseq = s.pseq := rfl
@[simp] theorem modBoot_awl (f : BootS → BootS) (s : State) : (modBoot f s).awl = s.awl := rfl
@[simp] theorem modBoot_ep (f : BootS → BootS) (s : State) : (modBoot f s).ep = s.ep := rfl
@[simp] theorem modBoot_streams (f : BootS → BootS) (s : State) : (modBoot f s).streams = s.streams := rfl
@[simp] theorem modBoot_pars (f : BootS → BootS) (s : State) : (modBoot f s).pars = s.pars := rfl
@[simp] theorem modBoot_asms (f : BootS → BootS) (s : State) : (modBoot f s).asms = s.asms := rfl
@[simp] theorem modBoot_landed (f : BootS → BootS) (s : State) : (modBoot f s).landed = s.landed := rfl
@[simp] theorem modBoot_receipts (f : BootS → BootS) (s : State) : (modBoot f s).receipts = s.receipts := rfl
@[simp] theorem modBoot_tags (f : BootS → BootS) (s : State) : (modBoot f s).tags = s.tags := rfl
@[simp] theorem modBoot_slots (f : BootS → BootS) (s : State) : (modBoot f s).slots = s.slots := rfl
@[simp] theorem modBoot_orders (f : BootS → BootS) (s : State) : (modBoot f s).orders = s.orders := rfl
@[simp] theorem modBoot_gets (f : BootS → BootS) (s : State) : (modBoot f s).gets = s.gets := rfl
@[simp] theorem modBoot_txns (f : BootS → BootS) (s : State) : (modBoot f s).txns = s.txns := rfl
@[simp] theorem modBoot_pkgSet (f : BootS → BootS) (s : State) : (modBoot f s).pkgSet = s.pkgSet := rfl
@[simp] theorem modBoot_lostPuts (f : BootS → BootS) (s : State) : (modBoot f s).lostPuts = s.lostPuts := rfl
@[simp] theorem modBoot_stagedNow (f : BootS → BootS) (s : State) : (modBoot f s).stagedNow = s.stagedNow := rfl
@[simp] theorem modBoot_pkgWrote (f : BootS → BootS) (s : State) : (modBoot f s).pkgWrote = s.pkgWrote := rfl
@[simp] theorem modBoot_txnId (f : BootS → BootS) (s : State) : (modBoot f s).txnId = s.txnId := rfl
@[simp] theorem modBoot_signals (f : BootS → BootS) (s : State) : (modBoot f s).signals = s.signals := rfl
@[simp] theorem modBoot_latches (f : BootS → BootS) (s : State) : (modBoot f s).latches = s.latches := rfl
@[simp] theorem modBoot_tel (f : BootS → BootS) (s : State) : (modBoot f s).tel = s.tel := rfl
@[simp] theorem modBoot_caps (f : BootS → BootS) (s : State) : (modBoot f s).caps = s.caps := rfl
@[simp] theorem modBoot_copyBuf (f : BootS → BootS) (s : State) : (modBoot f s).copyBuf = s.copyBuf := rfl
@[simp] theorem modBoot_replay (f : BootS → BootS) (s : State) : (modBoot f s).replay = s.replay := rfl
@[simp] theorem modBoot_rst (f : BootS → BootS) (s : State) : (modBoot f s).rst = s.rst := rfl
@[simp] theorem modBoot_fl (f : BootS → BootS) (s : State) : (modBoot f s).fl = s.fl := rfl
@[simp] theorem modBoot_mgt (f : BootS → BootS) (s : State) : (modBoot f s).mgt = s.mgt := rfl
@[simp] theorem modBoot_mgr (f : BootS → BootS) (s : State) : (modBoot f s).mgr = s.mgr := rfl
@[simp] theorem modBoot_map (f : BootS → BootS) (s : State) : (modBoot f s).map = s.map := rfl
@[simp] theorem modBoot_touch (f : BootS → BootS) (s : State) : (modBoot f s).touch = s.touch := rfl
@[simp] theorem modBoot_tblOld (f : BootS → BootS) (s : State) : (modBoot f s).tblOld = s.tblOld := rfl
@[simp] theorem modBoot_free (f : BootS → BootS) (s : State) : (modBoot f s).free = s.free := rfl
@[simp] theorem modBoot_out (f : BootS → BootS) (s : State) : (modBoot f s).out = s.out := rfl

@[simp] theorem modMgt_pending (f : MgtS → MgtS) (s : State) : (modMgt f s).pending = s.pending := rfl
@[simp] theorem modMgt_writes (f : MgtS → MgtS) (s : State) : (modMgt f s).writes = s.writes := rfl
@[simp] theorem modMgt_stg (f : MgtS → MgtS) (s : State) : (modMgt f s).stg = s.stg := rfl
@[simp] theorem modMgt_flash (f : MgtS → MgtS) (s : State) : (modMgt f s).flash = s.flash := rfl
@[simp] theorem modMgt_regs (f : MgtS → MgtS) (s : State) : (modMgt f s).regs = s.regs := rfl
@[simp] theorem modMgt_staged (f : MgtS → MgtS) (s : State) : (modMgt f s).staged = s.staged := rfl
@[simp] theorem modMgt_bootPend (f : MgtS → MgtS) (s : State) : (modMgt f s).bootPend = s.bootPend := rfl
@[simp] theorem modMgt_eccBad (f : MgtS → MgtS) (s : State) : (modMgt f s).eccBad = s.eccBad := rfl
@[simp] theorem modMgt_stgBad (f : MgtS → MgtS) (s : State) : (modMgt f s).stgBad = s.stgBad := rfl
@[simp] theorem modMgt_t (f : MgtS → MgtS) (s : State) : (modMgt f s).t = s.t := rfl
@[simp] theorem modMgt_clk (f : MgtS → MgtS) (s : State) : (modMgt f s).clk = s.clk := rfl
@[simp] theorem modMgt_roots (f : MgtS → MgtS) (s : State) : (modMgt f s).roots = s.roots := rfl
@[simp] theorem modMgt_ports (f : MgtS → MgtS) (s : State) : (modMgt f s).ports = s.ports := rfl
@[simp] theorem modMgt_waiting (f : MgtS → MgtS) (s : State) : (modMgt f s).waiting = s.waiting := rfl
@[simp] theorem modMgt_waits (f : MgtS → MgtS) (s : State) : (modMgt f s).waits = s.waits := rfl
@[simp] theorem modMgt_hold (f : MgtS → MgtS) (s : State) : (modMgt f s).hold = s.hold := rfl
@[simp] theorem modMgt_notices (f : MgtS → MgtS) (s : State) : (modMgt f s).notices = s.notices := rfl
@[simp] theorem modMgt_localQ (f : MgtS → MgtS) (s : State) : (modMgt f s).localQ = s.localQ := rfl
@[simp] theorem modMgt_dets (f : MgtS → MgtS) (s : State) : (modMgt f s).dets = s.dets := rfl
@[simp] theorem modMgt_jq (f : MgtS → MgtS) (s : State) : (modMgt f s).jq = s.jq := rfl
@[simp] theorem modMgt_pushq (f : MgtS → MgtS) (s : State) : (modMgt f s).pushq = s.pushq := rfl
@[simp] theorem modMgt_pseq (f : MgtS → MgtS) (s : State) : (modMgt f s).pseq = s.pseq := rfl
@[simp] theorem modMgt_awl (f : MgtS → MgtS) (s : State) : (modMgt f s).awl = s.awl := rfl
@[simp] theorem modMgt_ep (f : MgtS → MgtS) (s : State) : (modMgt f s).ep = s.ep := rfl
@[simp] theorem modMgt_streams (f : MgtS → MgtS) (s : State) : (modMgt f s).streams = s.streams := rfl
@[simp] theorem modMgt_pars (f : MgtS → MgtS) (s : State) : (modMgt f s).pars = s.pars := rfl
@[simp] theorem modMgt_asms (f : MgtS → MgtS) (s : State) : (modMgt f s).asms = s.asms := rfl
@[simp] theorem modMgt_landed (f : MgtS → MgtS) (s : State) : (modMgt f s).landed = s.landed := rfl
@[simp] theorem modMgt_receipts (f : MgtS → MgtS) (s : State) : (modMgt f s).receipts = s.receipts := rfl
@[simp] theorem modMgt_tags (f : MgtS → MgtS) (s : State) : (modMgt f s).tags = s.tags := rfl
@[simp] theorem modMgt_slots (f : MgtS → MgtS) (s : State) : (modMgt f s).slots = s.slots := rfl
@[simp] theorem modMgt_orders (f : MgtS → MgtS) (s : State) : (modMgt f s).orders = s.orders := rfl
@[simp] theorem modMgt_gets (f : MgtS → MgtS) (s : State) : (modMgt f s).gets = s.gets := rfl
@[simp] theorem modMgt_txns (f : MgtS → MgtS) (s : State) : (modMgt f s).txns = s.txns := rfl
@[simp] theorem modMgt_pkgSet (f : MgtS → MgtS) (s : State) : (modMgt f s).pkgSet = s.pkgSet := rfl
@[simp] theorem modMgt_lostPuts (f : MgtS → MgtS) (s : State) : (modMgt f s).lostPuts = s.lostPuts := rfl
@[simp] theorem modMgt_stagedNow (f : MgtS → MgtS) (s : State) : (modMgt f s).stagedNow = s.stagedNow := rfl
@[simp] theorem modMgt_pkgWrote (f : MgtS → MgtS) (s : State) : (modMgt f s).pkgWrote = s.pkgWrote := rfl
@[simp] theorem modMgt_txnId (f : MgtS → MgtS) (s : State) : (modMgt f s).txnId = s.txnId := rfl
@[simp] theorem modMgt_signals (f : MgtS → MgtS) (s : State) : (modMgt f s).signals = s.signals := rfl
@[simp] theorem modMgt_latches (f : MgtS → MgtS) (s : State) : (modMgt f s).latches = s.latches := rfl
@[simp] theorem modMgt_tel (f : MgtS → MgtS) (s : State) : (modMgt f s).tel = s.tel := rfl
@[simp] theorem modMgt_caps (f : MgtS → MgtS) (s : State) : (modMgt f s).caps = s.caps := rfl
@[simp] theorem modMgt_copyBuf (f : MgtS → MgtS) (s : State) : (modMgt f s).copyBuf = s.copyBuf := rfl
@[simp] theorem modMgt_replay (f : MgtS → MgtS) (s : State) : (modMgt f s).replay = s.replay := rfl
@[simp] theorem modMgt_boot (f : MgtS → MgtS) (s : State) : (modMgt f s).boot = s.boot := rfl
@[simp] theorem modMgt_rst (f : MgtS → MgtS) (s : State) : (modMgt f s).rst = s.rst := rfl
@[simp] theorem modMgt_fl (f : MgtS → MgtS) (s : State) : (modMgt f s).fl = s.fl := rfl
@[simp] theorem modMgt_mgr (f : MgtS → MgtS) (s : State) : (modMgt f s).mgr = s.mgr := rfl
@[simp] theorem modMgt_map (f : MgtS → MgtS) (s : State) : (modMgt f s).map = s.map := rfl
@[simp] theorem modMgt_touch (f : MgtS → MgtS) (s : State) : (modMgt f s).touch = s.touch := rfl
@[simp] theorem modMgt_tblOld (f : MgtS → MgtS) (s : State) : (modMgt f s).tblOld = s.tblOld := rfl
@[simp] theorem modMgt_free (f : MgtS → MgtS) (s : State) : (modMgt f s).free = s.free := rfl
@[simp] theorem modMgt_out (f : MgtS → MgtS) (s : State) : (modMgt f s).out = s.out := rfl

@[simp] theorem awlStore_pending (i : Nat) (p : AwlPoint) (s : State) : (awlStore i p s).pending = s.pending := rfl
@[simp] theorem awlStore_writes (i : Nat) (p : AwlPoint) (s : State) : (awlStore i p s).writes = s.writes := rfl
@[simp] theorem awlStore_stg (i : Nat) (p : AwlPoint) (s : State) : (awlStore i p s).stg = s.stg := rfl
@[simp] theorem awlStore_flash (i : Nat) (p : AwlPoint) (s : State) : (awlStore i p s).flash = s.flash := rfl
@[simp] theorem awlStore_staged (i : Nat) (p : AwlPoint) (s : State) : (awlStore i p s).staged = s.staged := rfl
@[simp] theorem awlStore_bootPend (i : Nat) (p : AwlPoint) (s : State) : (awlStore i p s).bootPend = s.bootPend := rfl
@[simp] theorem awlStore_eccBad (i : Nat) (p : AwlPoint) (s : State) : (awlStore i p s).eccBad = s.eccBad := rfl
@[simp] theorem awlStore_stgBad (i : Nat) (p : AwlPoint) (s : State) : (awlStore i p s).stgBad = s.stgBad := rfl
@[simp] theorem awlStore_t (i : Nat) (p : AwlPoint) (s : State) : (awlStore i p s).t = s.t := rfl
@[simp] theorem awlStore_clk (i : Nat) (p : AwlPoint) (s : State) : (awlStore i p s).clk = s.clk := rfl
@[simp] theorem awlStore_roots (i : Nat) (p : AwlPoint) (s : State) : (awlStore i p s).roots = s.roots := rfl
@[simp] theorem awlStore_ports (i : Nat) (p : AwlPoint) (s : State) : (awlStore i p s).ports = s.ports := rfl
@[simp] theorem awlStore_waiting (i : Nat) (p : AwlPoint) (s : State) : (awlStore i p s).waiting = s.waiting := rfl
@[simp] theorem awlStore_waits (i : Nat) (p : AwlPoint) (s : State) : (awlStore i p s).waits = s.waits := rfl
@[simp] theorem awlStore_hold (i : Nat) (p : AwlPoint) (s : State) : (awlStore i p s).hold = s.hold := rfl
@[simp] theorem awlStore_notices (i : Nat) (p : AwlPoint) (s : State) : (awlStore i p s).notices = s.notices := rfl
@[simp] theorem awlStore_localQ (i : Nat) (p : AwlPoint) (s : State) : (awlStore i p s).localQ = s.localQ := rfl
@[simp] theorem awlStore_dets (i : Nat) (p : AwlPoint) (s : State) : (awlStore i p s).dets = s.dets := rfl
@[simp] theorem awlStore_jq (i : Nat) (p : AwlPoint) (s : State) : (awlStore i p s).jq = s.jq := rfl
@[simp] theorem awlStore_pushq (i : Nat) (p : AwlPoint) (s : State) : (awlStore i p s).pushq = s.pushq := rfl
@[simp] theorem awlStore_pseq (i : Nat) (p : AwlPoint) (s : State) : (awlStore i p s).pseq = s.pseq := rfl
@[simp] theorem awlStore_ep (i : Nat) (p : AwlPoint) (s : State) : (awlStore i p s).ep = s.ep := rfl
@[simp] theorem awlStore_streams (i : Nat) (p : AwlPoint) (s : State) : (awlStore i p s).streams = s.streams := rfl
@[simp] theorem awlStore_pars (i : Nat) (p : AwlPoint) (s : State) : (awlStore i p s).pars = s.pars := rfl
@[simp] theorem awlStore_asms (i : Nat) (p : AwlPoint) (s : State) : (awlStore i p s).asms = s.asms := rfl
@[simp] theorem awlStore_landed (i : Nat) (p : AwlPoint) (s : State) : (awlStore i p s).landed = s.landed := rfl
@[simp] theorem awlStore_receipts (i : Nat) (p : AwlPoint) (s : State) : (awlStore i p s).receipts = s.receipts := rfl
@[simp] theorem awlStore_tags (i : Nat) (p : AwlPoint) (s : State) : (awlStore i p s).tags = s.tags := rfl
@[simp] theorem awlStore_slots (i : Nat) (p : AwlPoint) (s : State) : (awlStore i p s).slots = s.slots := rfl
@[simp] theorem awlStore_orders (i : Nat) (p : AwlPoint) (s : State) : (awlStore i p s).orders = s.orders := rfl
@[simp] theorem awlStore_gets (i : Nat) (p : AwlPoint) (s : State) : (awlStore i p s).gets = s.gets := rfl
@[simp] theorem awlStore_txns (i : Nat) (p : AwlPoint) (s : State) : (awlStore i p s).txns = s.txns := rfl
@[simp] theorem awlStore_pkgSet (i : Nat) (p : AwlPoint) (s : State) : (awlStore i p s).pkgSet = s.pkgSet := rfl
@[simp] theorem awlStore_lostPuts (i : Nat) (p : AwlPoint) (s : State) : (awlStore i p s).lostPuts = s.lostPuts := rfl
@[simp] theorem awlStore_stagedNow (i : Nat) (p : AwlPoint) (s : State) : (awlStore i p s).stagedNow = s.stagedNow := rfl
@[simp] theorem awlStore_pkgWrote (i : Nat) (p : AwlPoint) (s : State) : (awlStore i p s).pkgWrote = s.pkgWrote := rfl
@[simp] theorem awlStore_txnId (i : Nat) (p : AwlPoint) (s : State) : (awlStore i p s).txnId = s.txnId := rfl
@[simp] theorem awlStore_signals (i : Nat) (p : AwlPoint) (s : State) : (awlStore i p s).signals = s.signals := rfl
@[simp] theorem awlStore_latches (i : Nat) (p : AwlPoint) (s : State) : (awlStore i p s).latches = s.latches := rfl
@[simp] theorem awlStore_tel (i : Nat) (p : AwlPoint) (s : State) : (awlStore i p s).tel = s.tel := rfl
@[simp] theorem awlStore_caps (i : Nat) (p : AwlPoint) (s : State) : (awlStore i p s).caps = s.caps := rfl
@[simp] theorem awlStore_copyBuf (i : Nat) (p : AwlPoint) (s : State) : (awlStore i p s).copyBuf = s.copyBuf := rfl
@[simp] theorem awlStore_replay (i : Nat) (p : AwlPoint) (s : State) : (awlStore i p s).replay = s.replay := rfl
@[simp] theorem awlStore_boot (i : Nat) (p : AwlPoint) (s : State) : (awlStore i p s).boot = s.boot := rfl
@[simp] theorem awlStore_rst (i : Nat) (p : AwlPoint) (s : State) : (awlStore i p s).rst = s.rst := rfl
@[simp] theorem awlStore_fl (i : Nat) (p : AwlPoint) (s : State) : (awlStore i p s).fl = s.fl := rfl
@[simp] theorem awlStore_mgt (i : Nat) (p : AwlPoint) (s : State) : (awlStore i p s).mgt = s.mgt := rfl
@[simp] theorem awlStore_mgr (i : Nat) (p : AwlPoint) (s : State) : (awlStore i p s).mgr = s.mgr := rfl
@[simp] theorem awlStore_map (i : Nat) (p : AwlPoint) (s : State) : (awlStore i p s).map = s.map := rfl
@[simp] theorem awlStore_touch (i : Nat) (p : AwlPoint) (s : State) : (awlStore i p s).touch = s.touch := rfl
@[simp] theorem awlStore_tblOld (i : Nat) (p : AwlPoint) (s : State) : (awlStore i p s).tblOld = s.tblOld := rfl
@[simp] theorem awlStore_free (i : Nat) (p : AwlPoint) (s : State) : (awlStore i p s).free = s.free := rfl
@[simp] theorem awlStore_out (i : Nat) (p : AwlPoint) (s : State) : (awlStore i p s).out = s.out := rfl

end Sys2Proof.Machine
end

