-- ==== Sys2Proof/Laws/Regs.lean ====
section
/-! SUPPORT. Registers: a register reads back what was last stored in it, the others are left alone; fields and bits of one. -/
namespace Sys2Proof.Machine

/-! ### Bit fields -/

theorem nput_testBit (n hi lo v i : Nat) :
    (nput n hi lo v).testBit i = if lo ≤ i ∧ i < lo + (hi + 1 - lo) then v.testBit (i - lo) else n.testBit i := by
  generalize hw : hi + 1 - lo = w
  have key : nput n hi lo v = (n / 2 ^ (lo + w)) * 2 ^ (lo + w) + ((v % 2 ^ w) * 2 ^ lo + n % 2 ^ lo) := by
    have e1 : n = 2 ^ lo * (n / 2 ^ lo) + n % 2 ^ lo := (Nat.div_add_mod n (2 ^ lo)).symm
    have e2 : n / 2 ^ lo = 2 ^ w * (n / 2 ^ (lo + w)) + (n / 2 ^ lo) % 2 ^ w := by
      conv_lhs => rw [← Nat.div_add_mod (n / 2 ^ lo) (2 ^ w)]
      rw [Nat.div_div_eq_div_mul, ← pow_add]
    unfold nput
    rw [hw, Nat.shiftRight_eq_div_pow]
    generalize hm : (n / 2 ^ lo) % 2 ^ w = m at *
    generalize hq : n / 2 ^ (lo + w) = q at *
    have e3 : n = q * 2 ^ (lo + w) + m * 2 ^ lo + n % 2 ^ lo := by
      conv_lhs => rw [e1, e2]
      rw [pow_add]; ring
    have e4 : n - m * 2 ^ lo = q * 2 ^ (lo + w) + n % 2 ^ lo := by omega
    rw [e4]; ring
  have l1 : (v % 2 ^ w) * 2 ^ lo + n % 2 ^ lo < 2 ^ (lo + w) := by
    have a := Nat.mod_lt v (Nat.two_pow_pos w)
    have b := Nat.mod_lt n (Nat.two_pow_pos lo)
    have c : (v % 2 ^ w) * 2 ^ lo ≤ (2 ^ w - 1) * 2 ^ lo := Nat.mul_le_mul_right _ (by omega)
    rw [pow_add, Nat.mul_comm (2 ^ lo)]
    have d : (2 ^ w - 1) * 2 ^ lo + 2 ^ lo = 2 ^ w * 2 ^ lo := by
      rw [Nat.sub_mul, one_mul]
      have := Nat.mul_le_mul_right (2 ^ lo) (Nat.two_pow_pos w)
      omega
    omega
  rw [key, mul_comm (n / 2 ^ (lo + w)), Nat.testBit_two_pow_mul_add _ l1]
  by_cases c1 : i < lo + w
  · rw [if_pos c1, mul_comm (v % 2 ^ w), Nat.testBit_two_pow_mul_add _ (Nat.mod_lt n (Nat.two_pow_pos lo))]
    by_cases c2 : i < lo
    · rw [if_pos c2, if_neg (by omega), Nat.testBit_mod_two_pow]; simp [c2]
    · rw [if_neg c2, if_pos (by omega), Nat.testBit_mod_two_pow]
      have : i - lo < w := by omega
      simp [this]
  · rw [if_neg c1, if_neg (by omega), Nat.testBit_div_two_pow]
    congr 1; omega

theorem nbits_testBit (n hi lo i : Nat) :
    (nbits n hi lo).testBit i = (decide (i < hi + 1 - lo) && n.testBit (lo + i)) := by
  simp [nbits, Nat.testBit_mod_two_pow, Nat.testBit_shiftRight]

/-- A field reads back what was put in it. -/
theorem nbits_nput (n hi lo v : Nat) : nbits (nput n hi lo v) hi lo = v % 2 ^ (hi + 1 - lo) := by
  apply Nat.eq_of_testBit_eq
  intro i
  rw [nbits_testBit, nput_testBit, Nat.testBit_mod_two_pow]
  by_cases c : i < hi + 1 - lo
  · simp only [c, decide_true, Bool.true_and]
    rw [if_pos (by omega)]; congr 1; omega
  · simp [c]

/-- A field keeps its value when another, disjoint from it, is replaced. -/
theorem nbits_nput_disjoint (n hi lo v h l : Nat) (d : h < lo ∨ hi < l) :
    nbits (nput n hi lo v) h l = nbits n h l := by
  apply Nat.eq_of_testBit_eq
  intro i
  rw [nbits_testBit, nbits_testBit, nput_testBit]
  by_cases c : i < h + 1 - l
  · simp only [c, decide_true, Bool.true_and]
    rw [if_neg (by omega)]
  · simp [c]

theorem nput_lt (n hi lo v : Nat) (hn : n < 2 ^ 32) (hh : hi < 32) : nput n hi lo v < 2 ^ 32 := by
  apply Nat.lt_pow_two_of_testBit
  intro i hi32
  rw [nput_testBit]
  by_cases c : lo ≤ i ∧ i < lo + (hi + 1 - lo)
  · omega
  · rw [if_neg c]
    exact Nat.testBit_eq_false_of_lt (lt_of_lt_of_le hn (Nat.pow_le_pow_right (by decide) hi32))

theorem putFld_toNat (w : Word) (hi lo v : Nat) (h : hi < 32) : (putFld w hi lo v).toNat = nput w.toNat hi lo v := by
  simp only [putFld, BitVec.toNat_ofNat]
  exact Nat.mod_eq_of_lt (nput_lt _ _ _ _ w.isLt h)

theorem fld_putFld (w : Word) (hi lo v : Nat) (h : hi < 32) : fld (putFld w hi lo v) hi lo = v % 2 ^ (hi + 1 - lo) := by
  rw [fld, putFld_toNat _ _ _ _ h, nbits_nput]

theorem fld_putFld_disjoint (w : Word) (hi lo v h l : Nat) (hh : hi < 32) (d : h < lo ∨ hi < l) :
    fld (putFld w hi lo v) h l = fld w h l := by
  rw [fld, putFld_toNat _ _ _ _ hh, nbits_nput_disjoint _ _ _ _ _ _ d, fld]

theorem wbit_putFld (w : Word) (i : Nat) (b : Bool) (h : i < 32) : wbit (putFld w i i (b2n b)) i = b := by
  rw [wbit, putFld_toNat _ _ _ _ h, nput_testBit, if_pos (by omega)]
  cases b <;> simp [b2n]

theorem wbit_putFld_out (w : Word) (hi lo v i : Nat) (h : hi < 32) (d : i < lo ∨ hi < i) :
    wbit (putFld w hi lo v) i = wbit w i := by
  rw [wbit, putFld_toNat _ _ _ _ h, nput_testBit, if_neg (by omega), wbit]

/-! ### Registers, seen through the table that holds them -/

/-- The value at an address of a register table. -/
def rdR (r : Tbl Word) (a : Nat) : Word := tget (resetReg a) a r

theorem rd_eq (s : State) (a : Nat) : rd s a = rdR s.regs a := rfl
theorem rdN_eq (s : State) (a : Nat) : rdN s a = (rdR s.regs a).toNat := rfl
theorem rbit_eq (s : State) (a i : Nat) : rbit s a i = wbit (rdR s.regs a) i := rfl
theorem rfld_eq (s : State) (a hi lo : Nat) : rfld s a hi lo = fld (rdR s.regs a) hi lo := rfl

theorem rdR_set (r : Tbl Word) (a b : Nat) (v : Word) :
    rdR (tsetD (resetReg a) a v r) b = if b = a then v else rdR r b := tget_tsetD _ _ _ _ _ _ (fun h => by rw [h])

theorem rdR_set_self (r : Tbl Word) (a : Nat) (v : Word) : rdR (tsetD (resetReg a) a v r) a = v := by simp [rdR_set]

theorem rdR_set_ne (r : Tbl Word) {a b : Nat} (h : b ≠ a) (v : Word) : rdR (tsetD (resetReg a) a v r) b = rdR r b := by
  simp [rdR_set, h]

theorem wr_regs (a : Nat) (v : Word) (s : State) : (wr a v s).regs = tsetD (resetReg a) a v s.regs := rfl
theorem wrN_regs (a n : Nat) (s : State) : (wrN a n s).regs = tsetD (resetReg a) a (BitVec.ofNat 32 n) s.regs := rfl
theorem wfld_regs (a hi lo v : Nat) (s : State) :
    (wfld a hi lo v s).regs = tsetD (resetReg a) a (putFld (rdR s.regs a) hi lo v) s.regs := rfl
theorem wbitAt_regs (a i : Nat) (b : Bool) (s : State) :
    (wbitAt a i b s).regs = tsetD (resetReg a) a (putFld (rdR s.regs a) i i (b2n b)) s.regs := rfl
theorem ev_regs (a i : Nat) (s : State) :
    (ev a i s).regs = tsetD (resetReg a) a (putFld (rdR s.regs a) i i (b2n true)) s.regs := rfl
theorem evI_false_regs (a i ib : Nat) (s : State) : (evI a i ib false s).regs = (wbitAt a ib false (ev a i s)).regs := rfl
theorem evI_true_regs (a i ib : Nat) (s : State) : (evI a i ib true s).regs = (ev a ib (ev a i s)).regs := rfl
theorem cntBy_regs (a k : Nat) (s : State) :
    (cntBy a k s).regs = tsetD (resetReg a) a (BitVec.ofNat 32 (min ((rdR s.regs a).toNat + k) 0xFFFFFFFF)) s.regs := rfl
theorem cnt_regs (a : Nat) (s : State) :
    (cnt a s).regs = tsetD (resetReg a) a (BitVec.ofNat 32 (min ((rdR s.regs a).toNat + 1) 0xFFFFFFFF)) s.regs := rfl

/-! ### Registers -/

/-- Reading a register after a write to one. -/
theorem rd_wr (a b : Nat) (v : Word) (s : State) : rd (wr a v s) b = if b = a then v else rd s b :=
  tget_tsetD _ _ _ _ _ _ (fun h => by rw [h])

@[simp] theorem rd_wr_self (a : Nat) (v : Word) (s : State) : rd (wr a v s) a = v := by simp [rd_wr]

theorem rd_wr_ne {a b : Nat} (h : b ≠ a) (v : Word) (s : State) : rd (wr a v s) b = rd s b := by simp [rd_wr, h]

@[simp] theorem rd_touch (a v b : Nat) (s : State) : rd (touch a v s) b = rd s b := rfl
@[simp] theorem rd_emit (o : Out) (b : Nat) (s : State) : rd (emit o s) b = rd s b := rfl
@[simp] theorem rd_modPort (n : Nat) (f : Port → Port) (b : Nat) (s : State) : rd (modPort n f s) b = rd s b := rfl
@[simp] theorem rd_modStr (n : Nat) (f : Stream → Stream) (b : Nat) (s : State) : rd (modStr n f s) b = rd s b := rfl
@[simp] theorem rd_modPar (n : Nat) (f : Par → Par) (b : Nat) (s : State) : rd (modPar n f s) b = rd s b := rfl
@[simp] theorem rd_modFl (f : FlashS → FlashS) (b : Nat) (s : State) : rd (modFl f s) b = rd s b := rfl
@[simp] theorem rd_modMgt (f : MgtS → MgtS) (b : Nat) (s : State) : rd (modMgt f s) b = rd s b := rfl
@[simp] theorem rd_modBoot (f : BootS → BootS) (b : Nat) (s : State) : rd (modBoot f s) b = rd s b := rfl

theorem rd_wfld (a hi lo v b : Nat) (s : State) :
    rd (wfld a hi lo v s) b = if b = a then putFld (rd s a) hi lo v else rd s b := by rw [wfld, rd_wr]

theorem rd_wfld_ne {a b : Nat} (h : b ≠ a) (hi lo v : Nat) (s : State) : rd (wfld a hi lo v s) b = rd s b := by
  simp [rd_wfld, h]

theorem rd_wbitAt_ne {a b : Nat} (h : b ≠ a) (i : Nat) (v : Bool) (s : State) : rd (wbitAt a i v s) b = rd s b :=
  rd_wfld_ne h _ _ _ _

theorem rd_ev_ne {a b : Nat} (h : b ≠ a) (i : Nat) (s : State) : rd (ev a i s) b = rd s b := by
  rw [ev, rd_touch, rd_wbitAt_ne h]

theorem rd_cntBy_ne {a b : Nat} (h : b ≠ a) (k : Nat) (s : State) : rd (cntBy a k s) b = rd s b := by
  rw [cntBy, rd_touch, wrN, rd_wr_ne h]

theorem rd_cnt_ne {a b : Nat} (h : b ≠ a) (s : State) : rd (cnt a s) b = rd s b := rd_cntBy_ne h _ _

/-- A field of a register reads back what was stored in it. -/
theorem rfld_wfld (a hi lo v : Nat) (s : State) (h : hi < 32) : rfld (wfld a hi lo v s) a hi lo = v % 2 ^ (hi + 1 - lo) := by
  rw [rfld, wfld, rd_wr_self, fld_putFld _ _ _ _ h]

theorem rbit_wbitAt (a i : Nat) (b : Bool) (s : State) (h : i < 32) : rbit (wbitAt a i b s) a i = b := by
  rw [rbit, wbitAt, wfld, rd_wr_self, wbit_putFld _ _ _ h]

/-- An event bit is set. -/
theorem rbit_ev (a i : Nat) (s : State) (h : i < 32) : rbit (ev a i s) a i = true := by
  unfold ev; exact rbit_wbitAt a i true s h

/-- Another bit of the register, or of another, is left alone. -/
theorem rbit_wbitAt_other (a i b j : Nat) (v : Bool) (s : State) (h : i < 32) (d : b ≠ a ∨ j ≠ i) :
    rbit (wbitAt a i v s) b j = rbit s b j := by
  by_cases e : b = a
  · subst e
    rw [rbit, wbitAt, wfld, rd_wr_self, wbit_putFld_out _ _ _ _ _ h (by omega), rbit]
  · rw [rbit, rd_wbitAt_ne e, rbit]

theorem rbit_ev_other (a i b j : Nat) (s : State) (h : i < 32) (d : b ≠ a ∨ j ≠ i) : rbit (ev a i s) b j = rbit s b j := by
  rw [← rbit_wbitAt_other a i b j true s h d]; rfl

/-- A counter below its ceiling has gone up by one. -/
theorem rdN_cnt (a : Nat) (s : State) : rdN (cnt a s) a = min (rdN s a + 1) 0xFFFFFFFF := by
  unfold cnt cntBy
  rw [rdN, rd_touch, wrN, rd_wr_self, BitVec.toNat_ofNat]
  have := (rd s a).isLt
  unfold rdN
  omega

theorem rdN_wrN (a n : Nat) (s : State) : rdN (wrN a n s) a = n % 2 ^ 32 := by
  rw [rdN, wrN, rd_wr_self, BitVec.toNat_ofNat]

@[simp] theorem port_modPort_self (n : Nat) (f : Port → Port) (s : State) : port (modPort n f s) n = f (port s n) := by
  unfold port modPort; exact tget_tset_self _ _ _ _

theorem port_modPort_ne {n m : Nat} (h : m ≠ n) (f : Port → Port) (s : State) : port (modPort n f s) m = port s m := by
  unfold port modPort; exact tget_tset_ne _ h _ _

@[simp] theorem str_modStr_self (n : Nat) (f : Stream → Stream) (s : State) : str (modStr n f s) n = f (str s n) := by
  unfold str modStr; exact tget_tset_self _ _ _ _

theorem str_modStr_ne {n m : Nat} (h : m ≠ n) (f : Stream → Stream) (s : State) : str (modStr n f s) m = str s m := by
  unfold str modStr; exact tget_tset_ne _ h _ _

@[simp] theorem par_modPar_self (n : Nat) (f : Par → Par) (s : State) : par (modPar n f s) n = f (par s n) := by
  unfold par modPar; exact tget_tset_self _ _ _ _

theorem par_modPar_ne {n m : Nat} (h : m ≠ n) (f : Par → Par) (s : State) : par (modPar n f s) m = par s m := by
  unfold par modPar; exact tget_tset_ne _ h _ _

end Sys2Proof.Machine
end

