-- ==== Sys2Proof/Laws/Raise.lean ====
section
/-! SUPPORT. What raising a detector can change (R408–R412, R483, R514), said once: the alert, event, counter and journal
registers, the event ring, and the queues of records. -/
namespace Sys2Proof.Machine

/-- The registers a raising may write. -/
def raiseReg (a : Nat) : Bool :=
  decide (a = R.glbAlertStatus ∨ a = R.glbAlertInjected ∨ a = R.glbEventHead ∨ a = R.glbEventLostCount
    ∨ (0x100 ≤ a ∧ a < 0x180) ∨ a = R.mgtEvents ∨ a = R.mgtPushDropCount ∨ a = R.jnlLostCount
    ∨ (0x1080000 ≤ a ∧ a < 0x1082000))

/-- A reading of the state that depends on nothing a raising changes. -/
structure RaiseStable {α : Type} (g : State → α) : Prop where
  wr : ∀ a v s, raiseReg a = true → g (wr a v s) = g s
  touch : ∀ a v s, g (touch a v s) = g s
  dets : ∀ x s, g { s with dets := x } = g s
  jq : ∀ x s, g { s with jq := x } = g s
  push : ∀ x n s, g { s with pushq := x, pseq := n } = g s
  tbl : ∀ x y s, g { s with eccBad := x, tblOld := y } = g s

variable {α : Type} {g : State → α}

theorem RaiseStable.wbitAt (h : RaiseStable g) {a : Nat} (ha : raiseReg a = true) (i : Nat) (b : Bool) (s : State) :
    g (wbitAt a i b s) = g s := h.wr _ _ _ ha

theorem RaiseStable.ev (h : RaiseStable g) {a : Nat} (ha : raiseReg a = true) (i : Nat) (s : State) : g (ev a i s) = g s := by
  rw [Machine.ev, h.touch, h.wbitAt ha]

theorem RaiseStable.cnt (h : RaiseStable g) {a : Nat} (ha : raiseReg a = true) (s : State) : g (cnt a s) = g s := by
  rw [Machine.cnt, cntBy, h.touch, wrN, h.wr _ _ _ ha]

theorem RaiseStable.pushQueue (h : RaiseStable g) (k : Nat) (b : List Byte) (s : State) : g (pushQueue k b s) = g s := by
  unfold Machine.pushQueue
  split
  · split
    · exact h.push _ _ _
    · rw [h.ev (by decide), h.cnt (by decide)]
  · rfl

theorem RaiseStable.tblWrite (h : RaiseStable g) {a : Nat} (ha : raiseReg a = true) (v : Word) (s : State) :
    g (tblWrite a v s) = g s := by
  unfold Machine.tblWrite
  rw [h.tbl, h.wr _ _ _ ha]

theorem RaiseStable.tblWrites (h : RaiseStable g) (l : List Word) (a : Nat) (s : State) (h1 : 0x1080000 ≤ a)
    (h2 : a + 4 * l.length ≤ 0x1082000) : g (tblWrites a l s) = g s := by
  induction l generalizing a s with
  | nil => rfl
  | cons v l ih =>
    have : (v :: l).length = l.length + 1 := rfl
    have e : raiseReg a = true := by unfold raiseReg; rw [decide_eq_true_iff]; omega
    rw [Machine.tblWrites, ih _ _ (by omega) (by omega), h.tblWrite e]

theorem RaiseStable.raiseMark (h : RaiseStable g) (d : Det) (hd : d.i < 32) (s : State) : g (raiseMark d s) = g s := by
  have a1 : raiseReg R.glbAlertStatus = true := by decide
  have a2 : raiseReg (R.glbDetCount d.i) = true := by unfold raiseReg R.glbDetCount; rw [decide_eq_true_iff]; omega
  have a3 : raiseReg R.glbAlertInjected = true := by decide
  unfold Machine.raiseMark
  split
  · rw [h.ev a3, h.cnt a2, h.ev a1]
  · rw [h.wbitAt a3, h.cnt a2, h.ev a1]

theorem RaiseStable.raiseRing (h : RaiseStable g) (d : Det) (r : List Byte) (s : State) : g (raiseRing d r s) = g s := by
  unfold Machine.raiseRing
  split
  · exact h.cnt (by decide) s
  · rw [h.dets, wrN, h.wr _ _ _ (by decide), h.tblWrites _ _ _ (by unfold R.eventWord; omega) ?_]
    simp only [recordWords, List.length_map, List.length_range, R.eventWord]; omega

/-- A raising changes nothing else. -/
theorem RaiseStable.raiseCore (h : RaiseStable g) (d : Det) (hd : d.i < 32) (s : State) : g (raiseCore d s).1 = g s := by
  rw [← h.raiseMark d hd s]
  unfold Machine.raiseCore
  generalize Machine.raiseMark d s = x
  dsimp only
  split
  · split
    · exact h.dets _ _
    · rw [h.raiseRing]
      split
      · exact h.pushQueue _ _ _
      · rfl
  · rfl

theorem RaiseStable.jnlQueue (h : RaiseStable g) (r : JRec) (s : State) : g (jnlQueue r s) = g s := by
  unfold Machine.jnlQueue
  split
  · split
    · exact h.jq _ _
    · rw [h.raiseCore _ (by decide), h.cnt (by decide)]
  · rfl

/-- Raising a detector leaves such a reading as it was. -/
theorem RaiseStable.raise (h : RaiseStable g) (d : Det) (hd : d.i < 32) (s : State) : g (raise d s) = g s := by
  unfold Machine.raise
  simp only []
  split
  · split
    · rw [h.jnlQueue, h.raiseCore d hd]
    · exact h.raiseCore d hd s
  · exact h.raiseCore d hd s

/-- A register a raising does not write. -/
theorem raiseStable_rd {b : Nat} (hb : raiseReg b = false) : RaiseStable (fun s => rd s b) where
  wr a v s ha := rd_wr_ne (fun e => by rw [e, ha] at hb; exact absurd hb (by decide)) v s
  touch _ _ _ := rfl
  dets _ _ := rfl
  jq _ _ := rfl
  push _ _ _ := rfl
  tbl _ _ _ := rfl

theorem raise_rdR {b : Nat} (hb : raiseReg b = false) (d : Det) (hd : d.i < 32) (s : State) :
    rdR (raise d s).regs b = rdR s.regs b := (raiseStable_rd hb).raise d hd s

theorem rd_raise {b : Nat} (hb : raiseReg b = false) (d : Det) (hd : d.i < 32) (s : State) : rd (raise d s) b = rd s b :=
  (raiseStable_rd hb).raise d hd s

theorem raise_pending (d : Det) (hd : d.i < 32) (s : State) : (raise d s).pending = s.pending :=
  RaiseStable.raise (g := State.pending) ⟨fun _ _ _ _ => rfl, fun _ _ _ => rfl, fun _ _ => rfl, fun _ _ => rfl, fun _ _ _ => rfl, fun _ _ _ => rfl⟩ d hd s

theorem raise_writes (d : Det) (hd : d.i < 32) (s : State) : (raise d s).writes = s.writes :=
  RaiseStable.raise (g := State.writes) ⟨fun _ _ _ _ => rfl, fun _ _ _ => rfl, fun _ _ => rfl, fun _ _ => rfl, fun _ _ _ => rfl, fun _ _ _ => rfl⟩ d hd s

theorem raise_stg (d : Det) (hd : d.i < 32) (s : State) : (raise d s).stg = s.stg :=
  RaiseStable.raise (g := State.stg) ⟨fun _ _ _ _ => rfl, fun _ _ _ => rfl, fun _ _ => rfl, fun _ _ => rfl, fun _ _ _ => rfl, fun _ _ _ => rfl⟩ d hd s

theorem raise_flash (d : Det) (hd : d.i < 32) (s : State) : (raise d s).flash = s.flash :=
  RaiseStable.raise (g := State.flash) ⟨fun _ _ _ _ => rfl, fun _ _ _ => rfl, fun _ _ => rfl, fun _ _ => rfl, fun _ _ _ => rfl, fun _ _ _ => rfl⟩ d hd s

theorem raise_staged (d : Det) (hd : d.i < 32) (s : State) : (raise d s).staged = s.staged :=
  RaiseStable.raise (g := State.staged) ⟨fun _ _ _ _ => rfl, fun _ _ _ => rfl, fun _ _ => rfl, fun _ _ => rfl, fun _ _ _ => rfl, fun _ _ _ => rfl⟩ d hd s

theorem raise_bootPend (d : Det) (hd : d.i < 32) (s : State) : (raise d s).bootPend = s.bootPend :=
  RaiseStable.raise (g := State.bootPend) ⟨fun _ _ _ _ => rfl, fun _ _ _ => rfl, fun _ _ => rfl, fun _ _ => rfl, fun _ _ _ => rfl, fun _ _ _ => rfl⟩ d hd s

theorem raise_stgBad (d : Det) (hd : d.i < 32) (s : State) : (raise d s).stgBad = s.stgBad :=
  RaiseStable.raise (g := State.stgBad) ⟨fun _ _ _ _ => rfl, fun _ _ _ => rfl, fun _ _ => rfl, fun _ _ => rfl, fun _ _ _ => rfl, fun _ _ _ => rfl⟩ d hd s

theorem raise_t (d : Det) (hd : d.i < 32) (s : State) : (raise d s).t = s.t :=
  RaiseStable.raise (g := State.t) ⟨fun _ _ _ _ => rfl, fun _ _ _ => rfl, fun _ _ => rfl, fun _ _ => rfl, fun _ _ _ => rfl, fun _ _ _ => rfl⟩ d hd s

theorem raise_clk (d : Det) (hd : d.i < 32) (s : State) : (raise d s).clk = s.clk :=
  RaiseStable.raise (g := State.clk) ⟨fun _ _ _ _ => rfl, fun _ _ _ => rfl, fun _ _ => rfl, fun _ _ => rfl, fun _ _ _ => rfl, fun _ _ _ => rfl⟩ d hd s

theorem raise_roots (d : Det) (hd : d.i < 32) (s : State) : (raise d s).roots = s.roots :=
  RaiseStable.raise (g := State.roots) ⟨fun _ _ _ _ => rfl, fun _ _ _ => rfl, fun _ _ => rfl, fun _ _ => rfl, fun _ _ _ => rfl, fun _ _ _ => rfl⟩ d hd s

theorem raise_ports (d : Det) (hd : d.i < 32) (s : State) : (raise d s).ports = s.ports :=
  RaiseStable.raise (g := State.ports) ⟨fun _ _ _ _ => rfl, fun _ _ _ => rfl, fun _ _ => rfl, fun _ _ => rfl, fun _ _ _ => rfl, fun _ _ _ => rfl⟩ d hd s

theorem raise_waiting (d : Det) (hd : d.i < 32) (s : State) : (raise d s).waiting = s.waiting :=
  RaiseStable.raise (g := State.waiting) ⟨fun _ _ _ _ => rfl, fun _ _ _ => rfl, fun _ _ => rfl, fun _ _ => rfl, fun _ _ _ => rfl, fun _ _ _ => rfl⟩ d hd s

theorem raise_hold (d : Det) (hd : d.i < 32) (s : State) : (raise d s).hold = s.hold :=
  RaiseStable.raise (g := State.hold) ⟨fun _ _ _ _ => rfl, fun _ _ _ => rfl, fun _ _ => rfl, fun _ _ => rfl, fun _ _ _ => rfl, fun _ _ _ => rfl⟩ d hd s

theorem raise_notices (d : Det) (hd : d.i < 32) (s : State) : (raise d s).notices = s.notices :=
  RaiseStable.raise (g := State.notices) ⟨fun _ _ _ _ => rfl, fun _ _ _ => rfl, fun _ _ => rfl, fun _ _ => rfl, fun _ _ _ => rfl, fun _ _ _ => rfl⟩ d hd s

theorem raise_localQ (d : Det) (hd : d.i < 32) (s : State) : (raise d s).localQ = s.localQ :=
  RaiseStable.raise (g := State.localQ) ⟨fun _ _ _ _ => rfl, fun _ _ _ => rfl, fun _ _ => rfl, fun _ _ => rfl, fun _ _ _ => rfl, fun _ _ _ => rfl⟩ d hd s

theorem raise_awl (d : Det) (hd : d.i < 32) (s : State) : (raise d s).awl = s.awl :=
  RaiseStable.raise (g := State.awl) ⟨fun _ _ _ _ => rfl, fun _ _ _ => rfl, fun _ _ => rfl, fun _ _ => rfl, fun _ _ _ => rfl, fun _ _ _ => rfl⟩ d hd s

theorem raise_ep (d : Det) (hd : d.i < 32) (s : State) : (raise d s).ep = s.ep :=
  RaiseStable.raise (g := State.ep) ⟨fun _ _ _ _ => rfl, fun _ _ _ => rfl, fun _ _ => rfl, fun _ _ => rfl, fun _ _ _ => rfl, fun _ _ _ => rfl⟩ d hd s

theorem raise_streams (d : Det) (hd : d.i < 32) (s : State) : (raise d s).streams = s.streams :=
  RaiseStable.raise (g := State.streams) ⟨fun _ _ _ _ => rfl, fun _ _ _ => rfl, fun _ _ => rfl, fun _ _ => rfl, fun _ _ _ => rfl, fun _ _ _ => rfl⟩ d hd s

theorem raise_pars (d : Det) (hd : d.i < 32) (s : State) : (raise d s).pars = s.pars :=
  RaiseStable.raise (g := State.pars) ⟨fun _ _ _ _ => rfl, fun _ _ _ => rfl, fun _ _ => rfl, fun _ _ => rfl, fun _ _ _ => rfl, fun _ _ _ => rfl⟩ d hd s

theorem raise_asms (d : Det) (hd : d.i < 32) (s : State) : (raise d s).asms = s.asms :=
  RaiseStable.raise (g := State.asms) ⟨fun _ _ _ _ => rfl, fun _ _ _ => rfl, fun _ _ => rfl, fun _ _ => rfl, fun _ _ _ => rfl, fun _ _ _ => rfl⟩ d hd s

theorem raise_landed (d : Det) (hd : d.i < 32) (s : State) : (raise d s).landed = s.landed :=
  RaiseStable.raise (g := State.landed) ⟨fun _ _ _ _ => rfl, fun _ _ _ => rfl, fun _ _ => rfl, fun _ _ => rfl, fun _ _ _ => rfl, fun _ _ _ => rfl⟩ d hd s

theorem raise_receipts (d : Det) (hd : d.i < 32) (s : State) : (raise d s).receipts = s.receipts :=
  RaiseStable.raise (g := State.receipts) ⟨fun _ _ _ _ => rfl, fun _ _ _ => rfl, fun _ _ => rfl, fun _ _ => rfl, fun _ _ _ => rfl, fun _ _ _ => rfl⟩ d hd s

theorem raise_tags (d : Det) (hd : d.i < 32) (s : State) : (raise d s).tags = s.tags :=
  RaiseStable.raise (g := State.tags) ⟨fun _ _ _ _ => rfl, fun _ _ _ => rfl, fun _ _ => rfl, fun _ _ => rfl, fun _ _ _ => rfl, fun _ _ _ => rfl⟩ d hd s

theorem raise_slots (d : Det) (hd : d.i < 32) (s : State) : (raise d s).slots = s.slots :=
  RaiseStable.raise (g := State.slots) ⟨fun _ _ _ _ => rfl, fun _ _ _ => rfl, fun _ _ => rfl, fun _ _ => rfl, fun _ _ _ => rfl, fun _ _ _ => rfl⟩ d hd s

theorem raise_orders (d : Det) (hd : d.i < 32) (s : State) : (raise d s).orders = s.orders :=
  RaiseStable.raise (g := State.orders) ⟨fun _ _ _ _ => rfl, fun _ _ _ => rfl, fun _ _ => rfl, fun _ _ => rfl, fun _ _ _ => rfl, fun _ _ _ => rfl⟩ d hd s

theorem raise_gets (d : Det) (hd : d.i < 32) (s : State) : (raise d s).gets = s.gets :=
  RaiseStable.raise (g := State.gets) ⟨fun _ _ _ _ => rfl, fun _ _ _ => rfl, fun _ _ => rfl, fun _ _ => rfl, fun _ _ _ => rfl, fun _ _ _ => rfl⟩ d hd s

theorem raise_txns (d : Det) (hd : d.i < 32) (s : State) : (raise d s).txns = s.txns :=
  RaiseStable.raise (g := State.txns) ⟨fun _ _ _ _ => rfl, fun _ _ _ => rfl, fun _ _ => rfl, fun _ _ => rfl, fun _ _ _ => rfl, fun _ _ _ => rfl⟩ d hd s

theorem raise_txnId (d : Det) (hd : d.i < 32) (s : State) : (raise d s).txnId = s.txnId :=
  RaiseStable.raise (g := State.txnId) ⟨fun _ _ _ _ => rfl, fun _ _ _ => rfl, fun _ _ => rfl, fun _ _ => rfl, fun _ _ _ => rfl, fun _ _ _ => rfl⟩ d hd s

theorem raise_signals (d : Det) (hd : d.i < 32) (s : State) : (raise d s).signals = s.signals :=
  RaiseStable.raise (g := State.signals) ⟨fun _ _ _ _ => rfl, fun _ _ _ => rfl, fun _ _ => rfl, fun _ _ => rfl, fun _ _ _ => rfl, fun _ _ _ => rfl⟩ d hd s

theorem raise_latches (d : Det) (hd : d.i < 32) (s : State) : (raise d s).latches = s.latches :=
  RaiseStable.raise (g := State.latches) ⟨fun _ _ _ _ => rfl, fun _ _ _ => rfl, fun _ _ => rfl, fun _ _ => rfl, fun _ _ _ => rfl, fun _ _ _ => rfl⟩ d hd s

theorem raise_tel (d : Det) (hd : d.i < 32) (s : State) : (raise d s).tel = s.tel :=
  RaiseStable.raise (g := State.tel) ⟨fun _ _ _ _ => rfl, fun _ _ _ => rfl, fun _ _ => rfl, fun _ _ => rfl, fun _ _ _ => rfl, fun _ _ _ => rfl⟩ d hd s

theorem raise_caps (d : Det) (hd : d.i < 32) (s : State) : (raise d s).caps = s.caps :=
  RaiseStable.raise (g := State.caps) ⟨fun _ _ _ _ => rfl, fun _ _ _ => rfl, fun _ _ => rfl, fun _ _ => rfl, fun _ _ _ => rfl, fun _ _ _ => rfl⟩ d hd s

theorem raise_copyBuf (d : Det) (hd : d.i < 32) (s : State) : (raise d s).copyBuf = s.copyBuf :=
  RaiseStable.raise (g := State.copyBuf) ⟨fun _ _ _ _ => rfl, fun _ _ _ => rfl, fun _ _ => rfl, fun _ _ => rfl, fun _ _ _ => rfl, fun _ _ _ => rfl⟩ d hd s

theorem raise_replay (d : Det) (hd : d.i < 32) (s : State) : (raise d s).replay = s.replay :=
  RaiseStable.raise (g := State.replay) ⟨fun _ _ _ _ => rfl, fun _ _ _ => rfl, fun _ _ => rfl, fun _ _ => rfl, fun _ _ _ => rfl, fun _ _ _ => rfl⟩ d hd s

theorem raise_boot (d : Det) (hd : d.i < 32) (s : State) : (raise d s).boot = s.boot :=
  RaiseStable.raise (g := State.boot) ⟨fun _ _ _ _ => rfl, fun _ _ _ => rfl, fun _ _ => rfl, fun _ _ => rfl, fun _ _ _ => rfl, fun _ _ _ => rfl⟩ d hd s

theorem raise_rst (d : Det) (hd : d.i < 32) (s : State) : (raise d s).rst = s.rst :=
  RaiseStable.raise (g := State.rst) ⟨fun _ _ _ _ => rfl, fun _ _ _ => rfl, fun _ _ => rfl, fun _ _ => rfl, fun _ _ _ => rfl, fun _ _ _ => rfl⟩ d hd s

theorem raise_fl (d : Det) (hd : d.i < 32) (s : State) : (raise d s).fl = s.fl :=
  RaiseStable.raise (g := State.fl) ⟨fun _ _ _ _ => rfl, fun _ _ _ => rfl, fun _ _ => rfl, fun _ _ => rfl, fun _ _ _ => rfl, fun _ _ _ => rfl⟩ d hd s

theorem raise_mgt (d : Det) (hd : d.i < 32) (s : State) : (raise d s).mgt = s.mgt :=
  RaiseStable.raise (g := State.mgt) ⟨fun _ _ _ _ => rfl, fun _ _ _ => rfl, fun _ _ => rfl, fun _ _ => rfl, fun _ _ _ => rfl, fun _ _ _ => rfl⟩ d hd s

theorem raise_mgr (d : Det) (hd : d.i < 32) (s : State) : (raise d s).mgr = s.mgr :=
  RaiseStable.raise (g := State.mgr) ⟨fun _ _ _ _ => rfl, fun _ _ _ => rfl, fun _ _ => rfl, fun _ _ => rfl, fun _ _ _ => rfl, fun _ _ _ => rfl⟩ d hd s

theorem raise_map (d : Det) (hd : d.i < 32) (s : State) : (raise d s).map = s.map :=
  RaiseStable.raise (g := State.map) ⟨fun _ _ _ _ => rfl, fun _ _ _ => rfl, fun _ _ => rfl, fun _ _ => rfl, fun _ _ _ => rfl, fun _ _ _ => rfl⟩ d hd s

theorem raise_free (d : Det) (hd : d.i < 32) (s : State) : (raise d s).free = s.free :=
  RaiseStable.raise (g := State.free) ⟨fun _ _ _ _ => rfl, fun _ _ _ => rfl, fun _ _ => rfl, fun _ _ => rfl, fun _ _ _ => rfl, fun _ _ _ => rfl⟩ d hd s

theorem raise_out (d : Det) (hd : d.i < 32) (s : State) : (raise d s).out = s.out :=
  RaiseStable.raise (g := State.out) ⟨fun _ _ _ _ => rfl, fun _ _ _ => rfl, fun _ _ => rfl, fun _ _ => rfl, fun _ _ _ => rfl, fun _ _ _ => rfl⟩ d hd s


end Sys2Proof.Machine
end

