-- ==== Sys2Proof/Laws/Ops.lean ====
section
/-! SUPPORT. One lemma per shared operation of what it does or leaves alone. -/
namespace Sys2Proof.Machine

/-- A meaning in an engine that is ready answers the committed result. -/
theorem State.Ready.run {s : State} (h : s.Ready) (f : State → State) : run f s = .next (commit false s (f s)) :=
  run_live f s h.1 h.2

theorem State.Ready.runT {s : State} (h : s.Ready) (f : State → State) : runT f s = .next (commit true s (f s)) :=
  runT_live f s h.1 h.2

@[simp] theorem whenB_true {c : Bool} (h : c = true) (f : State → State) (s : State) : whenB c f s = f s := by
  simp [whenB, h]

/-- A value found in a table stands in it. -/
theorem tfind_mem {α : Type} (k : Nat) (v : α) (t : Tbl α) (h : tfind k t = some v) : ∃ j, (j, v) ∈ t := by
  induction t with
  | nil => simp [tfind] at h
  | cons e t ih =>
    obtain ⟨j, w⟩ := e
    unfold tfind at h
    split at h
    · cases h; exact ⟨j, by simp⟩
    · obtain ⟨i, hi⟩ := ih h; exact ⟨i, by simp [hi]⟩

/-- The points of a quiet engine are not armed. -/
theorem State.Quiet.off {s : State} (q : s.Quiet) (i : Nat) :
    (Machine.awl s i).cur.on = false ∧ (Machine.awl s i).old.on = false := by
  unfold Machine.awl tget
  split
  · rename_i v h
    obtain ⟨j, hj⟩ := tfind_mem _ _ _ h
    exact q _ hj
  · exact ⟨rfl, rfl⟩

/-- A point that is not armed gives no injection and counts nothing (R554). -/
theorem awlFire_quiet {s : State} (h : s.Quiet) (i : Nat) (p q r : Option Nat) : awlFire i p q r s = (s, false) := by
  have e : (awlSeen s (awl s i)).on = false := by
    unfold awlSeen
    split
    · exact (State.Quiet.off h i).2
    · exact (State.Quiet.off h i).1
  unfold awlFire
  simp [e]

theorem beatsIn_quiet {s : State} (h : s.Quiet) (l : List Nat) : beatsIn l s = (s, none) := by
  induction l with
  | nil => rfl
  | cons n t ih => simp [beatsIn, awlFire_quiet h, ih]

/-- A fold over a list keeps what each of its parts keeps. -/
theorem forEach_field {α β : Type} (g : State → β) (f : α → State → State) (l : List α)
    (h : ∀ a ∈ l, ∀ s, g (f a s) = g s) (s : State) : g (forEach l f s) = g s := by
  induction l generalizing s with
  | nil => rfl
  | cons a l ih =>
    have e : forEach (a :: l) f s = forEach l f (f a s) := rfl
    rw [e, ih (fun b hb => h b (List.mem_cons_of_mem _ hb)), h a (by simp)]

/-- A fold whose part for `x` alone changes what `g` reads, and does so as `v` says, on a list with `x` once. -/
theorem forEach_at {β γ : Type} (g : State → γ) (f : β → State → State) (x : β) (l : List β) (hl : l.Nodup) (hx : x ∈ l)
    (v : γ → γ) (h1 : ∀ a ∈ l, a ≠ x → ∀ s, g (f a s) = g s) (h2 : ∀ s, g (f x s) = v (g s)) (s : State) :
    g (forEach l f s) = v (g s) := by
  induction l generalizing s with
  | nil => simp at hx
  | cons a l ih =>
    have e : forEach (a :: l) f s = forEach l f (f a s) := rfl
    rw [List.nodup_cons] at hl
    by_cases c : a = x
    · subst c
      rw [e, forEach_field g f l (fun b hb => h1 b (List.mem_cons_of_mem _ hb) (fun h => hl.1 (h ▸ hb))), h2]
    · rw [e, ih hl.2 ((List.mem_cons.1 hx).resolve_left (Ne.symm c)) (fun b hb => h1 b (List.mem_cons_of_mem _ hb)), h1 a (by simp) c]

/-! ### Setting JOINED and the step after it -/

theorem setJoined_status (s : State) : rbit (setJoined s) R.mtcStatus 0 = true := by
  have e : ∀ s, rbit (enterStep7 s) R.mtcStatus 0 = rbit s R.mtcStatus 0 := by
    intro s; unfold enterStep7
    rw [rbit_wbitAt_other _ _ _ _ _ _ (by decide) (by decide)]
    rw [rbit, rd_wfld_ne (by decide), rbit]
  have e2 : ∀ (x : RootS) s, rbit ({ s with roots := x } : State) R.mtcStatus 0 = rbit s R.mtcStatus 0 := fun _ _ => rfl
  unfold setJoined
  dsimp only
  split
  · rw [e, e2, rbit_wbitAt _ _ _ _ (by decide)]
  · rw [e2, rbit_wbitAt _ _ _ _ (by decide)]

theorem setJoined_other (s : State) (a i : Nat) (h : a ≠ R.glbBootStatus) (h2 : a ≠ R.mtcStatus ∨ i ≠ 0) :
    rbit (setJoined s) a i = rbit s a i := by
  have e : ∀ s, rbit (enterStep7 s) a i = rbit s a i := by
    intro s; unfold enterStep7
    rw [rbit_wbitAt_other _ _ _ _ _ _ (by decide) (Or.inl h), rbit, rd_wfld_ne h, rbit]
  have e2 : ∀ (x : RootS) s, rbit ({ s with roots := x } : State) a i = rbit s a i := fun _ _ => rfl
  unfold setJoined
  dsimp only
  split
  · rw [e, e2, rbit_wbitAt_other _ _ _ _ _ _ (by decide) h2]
  · rw [e2, rbit_wbitAt_other _ _ _ _ _ _ (by decide) h2]

theorem setJoined_t (s : State) : (setJoined s).t = s.t := by
  unfold setJoined
  dsimp only
  split <;> rfl

end Sys2Proof.Machine
end

