-- ==== Sys2Proof/Laws/Switch.lean ====
section
/-! SUPPORT. What looking up, queueing, injecting and forwarding a cell can change, said once: registers, detectors, injection
points, ports, cells waiting, and nothing of streams, partitions, epochs or time. -/
namespace Sys2Proof.Machine

/-- A reading of the state that depends on nothing the switch changes. -/
structure SwitchStable {α : Type} (g : State → α) : Prop where
  regs : ∀ x s, g { s with regs := x } = g s
  touch : ∀ a v s, g (touch a v s) = g s
  dets : ∀ x s, g { s with dets := x } = g s
  jq : ∀ x s, g { s with jq := x } = g s
  push : ∀ x n s, g { s with pushq := x, pseq := n } = g s
  tbl : ∀ x y s, g { s with eccBad := x, tblOld := y } = g s
  awl : ∀ x s, g { s with awl := x } = g s
  tel : ∀ x s, g { s with tel := x } = g s
  ports : ∀ x s, g { s with ports := x } = g s
  waiting : ∀ x s, g { s with waiting := x } = g s
  localQ : ∀ x s, g { s with localQ := x } = g s
  out : ∀ o s, g (emit o s) = g s

variable {α : Type} {g : State → α}

namespace SwitchStable

theorem raiseStable (h : SwitchStable g) : RaiseStable g where
  wr _ _ s _ := h.regs _ s
  touch := h.touch
  dets := h.dets
  jq := h.jq
  push := h.push
  tbl := h.tbl

theorem wr (h : SwitchStable g) (a : Nat) (v : Word) (s : State) : g (wr a v s) = g s := h.regs _ s
theorem wrN (h : SwitchStable g) (a n : Nat) (s : State) : g (wrN a n s) = g s := h.regs _ s
theorem wbitAt (h : SwitchStable g) (a i : Nat) (b : Bool) (s : State) : g (wbitAt a i b s) = g s := h.regs _ s
theorem ev (h : SwitchStable g) (a i : Nat) (s : State) : g (ev a i s) = g s := by rw [Machine.ev, h.touch, h.wbitAt]
theorem cnt (h : SwitchStable g) (a : Nat) (s : State) : g (cnt a s) = g s := by
  rw [Machine.cnt, cntBy, h.touch, h.wrN]
theorem evI (h : SwitchStable g) (a i b : Nat) (inj : Bool) (s : State) : g (evI a i b inj s) = g s := by
  unfold Machine.evI; split
  · rw [h.ev, h.ev]
  · rw [h.wbitAt, h.ev]
theorem modPort (h : SwitchStable g) (n : Nat) (f : Port → Port) (s : State) : g (modPort n f s) = g s := h.ports _ s
theorem modTel (h : SwitchStable g) (n : Nat) (f : TelPort → TelPort) (s : State) : g (modTel n f s) = g s := h.tel _ s
theorem tblWrite (h : SwitchStable g) (a : Nat) (v : Word) (s : State) : g (tblWrite a v s) = g s := by
  unfold Machine.tblWrite; rw [h.tbl, h.wr]
theorem raise (h : SwitchStable g) (d : Det) (hd : d.i < 32) (s : State) : g (raise d s) = g s := h.raiseStable.raise d hd s

theorem awlStore (h : SwitchStable g) (i : Nat) (p : AwlPoint) (s : State) : g (awlStore i p s) = g s := by
  unfold Machine.awlStore; rw [h.wbitAt, h.awl]

/-- An opportunity of an injection point changes no such reading. -/
theorem awlFire (h : SwitchStable g) (i : Nat) (p q r : Option Nat) (s : State) : g (awlFire i p q r s).1 = g s := by
  unfold Machine.awlFire
  dsimp only
  split
  · split
    · split
      · rw [h.ev, h.touch, h.awlStore]
      · rw [h.touch, h.awlStore]
    · exact h.awlStore _ _ _
  · rfl

theorem tblEccHit (h : SwitchStable g) (p a : Nat) (inj : Bool) (s : State) : g (tblEccHit p a inj s) = g s := by
  unfold Machine.tblEccHit; rw [h.raise _ (by dsimp only; decide), h.wrN, h.cnt]

theorem tblLookup (h : SwitchStable g) (a n : Nat) (s : State) : g (tblLookup a n s).1 = g s := by
  unfold Machine.tblLookup
  dsimp only
  split
  · exact h.tblEccHit _ _ _ _
  · split
    · dsimp only
      rw [h.tblEccHit, h.awlFire]
    · exact h.awlFire _ _ _ _ _

theorem routeLookup (h : SwitchStable g) (v d n : Nat) (s : State) : g (routeLookup v d n s).1 = g s := by
  unfold Machine.routeLookup
  split
  · rfl
  · exact h.tblLookup _ _ _

theorem noRoute (h : SwitchStable g) (n : Nat) (c : Cell) (s : State) : g (noRoute n c s) = g s := by
  unfold Machine.noRoute; rw [h.raise _ (by dsimp only; decide), h.evI, h.cnt]

theorem routeDrop (h : SwitchStable g) (n k b : Nat) (inj : Bool) (c : Cell) (s : State) : g (routeDrop n k b inj c s) = g s := by
  unfold Machine.routeDrop telDisc; rw [h.raise _ (by dsimp only; decide), h.modTel, h.evI, h.cnt]

theorem recountCircuits (h : SwitchStable g) (s : State) : g (recountCircuits s) = g s := by
  unfold Machine.recountCircuits
  apply forEach_field g
  intro _ _ s; exact h.wrN _ _ s

theorem circuitLookup (h : SwitchStable g) (n : Nat) (c : Cell) (s : State) : g (circuitLookup n c s).1 = g s := by
  unfold Machine.circuitLookup
  split
  · split
    · rfl
    · dsimp only
      split
      · exact h.tblLookup _ _ _
      · rw [h.recountCircuits, h.tblWrite, h.tblLookup]
  · rfl

theorem resume (h : SwitchStable g) (n : Nat) (r : Bool) (s : State) : g (resume n r s) = g s := by
  unfold Machine.resume
  dsimp only
  split
  · rw [h.modPort]
    split
    · rw [h.out]
      split
      · rw [h.out, h.cnt, h.ev]
      · rw [h.ev]
    · split
      · rw [h.out, h.cnt, h.ev]
      · rw [h.ev]
  · rfl

theorem enqueue (h : SwitchStable g) (n : Nat) (k : QCls) (c : Cell) (s : State) : g (enqueue n k c s) = g s := by
  unfold Machine.enqueue
  dsimp only
  split
  · rw [h.resume, h.modPort]
  · exact h.modPort _ _ _

theorem enter (h : SwitchStable g) (n : Nat) (k : QCls) (c : Cell) (s : State) : g (enter n k c s) = g s := by
  unfold Machine.enter deflectLimit
  dsimp only
  split
  · rw [h.routeDrop, h.awlFire]
  · rw [h.enqueue, h.awlFire]

theorem pathFail (h : SwitchStable g) (n : Nat) (c : Cell) (s : State) : g (pathFail n c s) = g s := by
  unfold Machine.pathFail; rw [h.raise _ (by dsimp only; decide), h.evI, h.cnt]

theorem pathSend (h : SwitchStable g) (n i : Nat) (tr : Bool) (c : Cell) (s : State) : g (pathSend n i tr c s).1 = g s := by
  unfold Machine.pathSend
  dsimp only
  split
  · exact h.pathFail _ _ _
  · split
    · exact h.pathFail _ _ _
    · split
      · exact h.pathFail _ _ _
      · split
        · exact h.enter _ _ _ _
        · exact h.enqueue _ _ _ _

theorem circuitFallback (h : SwitchStable g) (o : Nat) (s : State) : g (circuitFallback o s) = g s := by
  unfold Machine.circuitFallback; rw [h.evI, h.cnt]

theorem injectBy (h : SwitchStable g) (ring : Nat) (c : Cell) (e : Route) (s : State) : g (injectBy ring c e s).1 = g s := by
  unfold Machine.injectBy
  split
  · split
    · rfl
    · exact h.noRoute _ _ _
  · split
    · rfl
    · split
      · rw [h.evI, h.cnt]
      · exact h.noRoute _ _ _

theorem injectTable (h : SwitchStable g) (ring : Nat) (c : Cell) (s : State) : g (injectTable ring c s).1 = g s := by
  unfold Machine.injectTable
  dsimp only
  split
  · rw [h.noRoute, h.routeLookup]
  · rw [h.injectBy, h.routeLookup]

theorem injectRoute (h : SwitchStable g) (ring : Nat) (c : Cell) (s : State) : g (injectRoute ring c s).1 = g s := by
  unfold Machine.injectRoute
  dsimp only
  split
  · split
    · exact h.circuitLookup _ _ _
    · rw [h.injectTable, h.circuitFallback, h.circuitLookup]
  · rw [h.injectTable, h.circuitLookup]

theorem behind (h : SwitchStable g) (k ring n : Nat) (mc : Bool) (c : Cell) (s : State) :
    g (behind k ring n mc c s).1 = g s := h.waiting _ s

theorem injectAt (h : SwitchStable g) (k ring : Nat) (c : Cell) (p : Nat) (q : QCls) (s : State) :
    g (injectAt k ring c p q s).1 = g s := by
  unfold Machine.injectAt
  split
  · exact h.enqueue _ _ _ _
  · exact h.waiting _ s

theorem injectCell (h : SwitchStable g) (k ring : Nat) (c : Cell) (s : State) : g (injectCell k ring c s).1 = g s := by
  unfold Machine.injectCell
  split
  · exact h.localQ _ s
  · split
    · exact h.injectRoute _ _ _
    · rw [h.injectAt, h.injectRoute]

/-- Injecting a cell changes no such reading. -/
theorem inject (h : SwitchStable g) (k ring : Nat) (c : Cell) (s : State) : g (inject k ring c s).1 = g s := by
  unfold Machine.inject
  split
  · exact h.injectCell _ _ _ _
  · exact h.behind _ _ _ _ _ _

theorem afterInject_field {r : State × Inj} {x : α} (e : g r.1 = x) : g (afterInject r) = x := e

theorem injectOwn (h : SwitchStable g) (c : Cell) (s : State) : g (injectOwn c s) = g s := by
  rw [Machine.injectOwn]
  exact afterInject_field (h.inject 256 0 c s)

theorem injectPort (h : SwitchStable g) (k n : Nat) (c : Cell) (s : State) : g (injectPort k n c s).1 = g s := by
  unfold Machine.injectPort
  split
  · exact h.behind _ _ _ _ _ _
  · split
    · exact h.injectAt _ _ _ _ _ _
    · exact h.noRoute _ _ _

theorem cellLost (h : SwitchStable g) (c : Cell) (s : State) : g (cellLost c s) = g s := by
  unfold Machine.cellLost
  split
  · split
    · rw [h.ev, h.ev]
    · exact h.ev _ _ _
  · split
    · exact h.ev _ _ _
    · rfl

theorem admitAfresh (h : SwitchStable g) (w : Waiting) (s : State) : g (admitAfresh w s) = g s := by
  unfold Machine.admitAfresh
  split
  · exact h.noRoute _ _ _
  · dsimp only
    split
    · rw [h.cellLost, h.injectRoute]
    · split
      · rw [h.enqueue, h.injectRoute]
      · rw [h.waiting, h.injectRoute]

end SwitchStable

/-- The version in which cells are injected is such a reading. -/
theorem switchStable_ep : SwitchStable State.ep := by constructor <;> intros <;> rfl
theorem switchStable_t : SwitchStable State.t := by constructor <;> intros <;> rfl
theorem switchStable_streams : SwitchStable State.streams := by constructor <;> intros <;> rfl
theorem switchStable_pars : SwitchStable State.pars := by constructor <;> intros <;> rfl
theorem switchStable_clk : SwitchStable State.clk := by constructor <;> intros <;> rfl
theorem switchStable_roots : SwitchStable State.roots := by constructor <;> intros <;> rfl
theorem switchStable_notices : SwitchStable State.notices := by constructor <;> intros <;> rfl
theorem switchStable_hold : SwitchStable State.hold := by constructor <;> intros <;> rfl
theorem switchStable_asms : SwitchStable State.asms := by constructor <;> intros <;> rfl
theorem switchStable_landed : SwitchStable State.landed := by constructor <;> intros <;> rfl
theorem switchStable_receipts : SwitchStable State.receipts := by constructor <;> intros <;> rfl
theorem switchStable_tags : SwitchStable State.tags := by constructor <;> intros <;> rfl
theorem switchStable_slots : SwitchStable State.slots := by constructor <;> intros <;> rfl
theorem switchStable_txns : SwitchStable State.txns := by constructor <;> intros <;> rfl
theorem switchStable_mgr : SwitchStable State.mgr := by constructor <;> intros <;> rfl
theorem switchStable_mgt : SwitchStable State.mgt := by constructor <;> intros <;> rfl
theorem switchStable_fl : SwitchStable State.fl := by constructor <;> intros <;> rfl
theorem switchStable_boot : SwitchStable State.boot := by constructor <;> intros <;> rfl
theorem switchStable_rst : SwitchStable State.rst := by constructor <;> intros <;> rfl
theorem switchStable_caps : SwitchStable State.caps := by constructor <;> intros <;> rfl
theorem switchStable_replay : SwitchStable State.replay := by constructor <;> intros <;> rfl
theorem switchStable_writes : SwitchStable State.writes := by constructor <;> intros <;> rfl

end Sys2Proof.Machine
end

