-- ==== Sys2Proof/WellFormed.lean ====
section
/-! DEFINITION. The commands whose operands are within the ranges the spec gives them. -/
namespace Sys2Proof

/-- Ports 0 to 31 (Tables 21.4–21.17 give 31 their registers); 31 is the engine itself. -/
def okPort (n : Nat) : Bool := decide (n < 32)

/-- A cell of 76 bytes (R86). -/
def okCell (b : List Byte) : Bool := b.length == 76

/-- A link or journal record of 64 bytes (R121, Table 15.9). -/
def okRecord (b : List Byte) : Bool := b.length == 64

/-- A codeword's body of 640 bytes (R120, R121). -/
def okBody (b : List Byte) : Bool := b.length == 640

/-- Streams 0 to 255. -/
def okStream (k : Nat) : Bool := decide (k < 256)

/-- Streams, and 256 for the cells the engine produces itself (R168). -/
def okSource (k : Nat) : Bool := decide (k ≤ 256)

/-- Steps 0 to 4,095 of a Last. -/
def okStep (i : Nat) : Bool := decide (i < 4096)

/-- Partitions 0 to 15. -/
def okPartition (n : Nat) : Bool := decide (n < 16)

/-- Slots 0 to 3, the PKG ports. -/
def okSlot (p : Nat) : Bool := decide (p < 4)

/-- Engine IDs of 13 bits. -/
def okEngine (i : Nat) : Bool := decide (i < 8192)

/-- OPN counts modulo 512 (R237). -/
def okOpn (q : Nat) : Bool := decide (q < 512)

/-- SEQ has 10 bits (Table 3.2). -/
def okSeq (q : Nat) : Bool := decide (q < 1024)

/-- Ledger entries 0 to 255. -/
def okEntry (e : Nat) : Bool := decide (e < 256)

/-- Injection points 0 to 19. -/
def okPoint (i : Nat) : Bool := decide (i < 20)

/-- Ranks 0 to 8,191. -/
def okRank (r : Nat) : Bool := decide (r < 8192)

/-- Five strap pins (R458). -/
def okStraps (v : Nat) : Bool := decide (v < 32)

/-- JTAG instructions of 8 bits (Table 20.7). -/
def okJtag (v : Nat) : Bool := decide (v < 256)

/-- A reading of 12 bits (R617). -/
def okTemp (t : Nat) : Bool := decide (t < 4096)

/-- A register address: below the window, on a word boundary (R8). -/
def okAddr (a : Nat) : Bool := decide (a < 0x4000000) && a % 4 == 0

/-- A word of the staging store: 96 MiB of 8-byte words (R253). -/
def okStagingWord (w : Nat) : Bool := decide (w < 12582912)

/-- A frame with at least one bit, at most 31 of them in a partial word (R503). -/
def okFrame (f : Frame) : Bool := decide (f.bits < 32) && decide (f.tail < 2 ^ f.bits) && decide (0 < f.words.length + f.bits)

/-- A well-formed command. -/
def wellFormed : Instr → Bool
  | .registerWrite _ a _ => okAddr a
  | .stagedApply n => okPartition n
  | .refLost => true
  | .switchToLocalOsc => true
  | .refRestored => true
  | .rootPllLoss => true
  | .markEdge => true
  | .markMiss => true
  | .syncSend => true
  | .sync n b => okPort n && okCell b
  | .steerIncrement => true
  | .holdEnd => true
  | .modeConflictClear => true
  | .rootLost => true
  | .rootSelfJoin => true
  | .island => true
  | .launch k => okStream k
  | .mtcNowLoRead _ => true
  | .strBaseLoRead _ k => okStream k
  | .telWindowLoRead _ => true
  | .mtcSnap => true
  | .cellTransmit n => okPort n
  | .idleFill n b => okPort n && okCell b
  | .dataCell n b => okPort n && okCell b
  | .sealCell n b => okPort n && okCell b
  | .chunkLanding src k seq => okEngine src && okStream k && okSeq seq
  | .sendReceipt => true
  | .transitCell n b => okPort n && okCell b
  | .multicastCell n b => okPort n && okCell b
  | .codeword n _ _ _ body => okPort n && okBody body
  | .portSeek n => okPort n
  | .beacon n _ => okPort n
  | .trainComplete n _ => okPort n
  | .trainFail n => okPort n
  | .align n b => okPort n && okRecord b
  | .alignFail n => okPort n
  | .keep n b => okPort n && okRecord b
  | .dozeReq n b => okPort n && okRecord b
  | .dozeAck n b => okPort n && okRecord b
  | .dozeNak n b => okPort n && okRecord b
  | .sleepReq n b => okPort n && okRecord b
  | .sleepAck n b => okPort n && okRecord b
  | .sleepNak n b => okPort n && okRecord b
  | .retrainRecord n b => okPort n && okRecord b
  | .fenceCommand n => okPort n
  | .unfenceCommand n => okPort n
  | .dozeCommand n => okPort n
  | .sleepCommand n => okPort n
  | .resume n => okPort n
  | .retrainCommand n => okPort n
  | .clearFault n => okPort n
  | .portDisable n => okPort n
  | .idleDoze n => okPort n
  | .wake n => okPort n
  | .resumeTimeout n => okPort n
  | .overload n => okPort n
  | .overloadClear n => okPort n
  | .overloadLockTimeout n => okPort n
  | .overloadLong n => okPort n
  | .portAlone n => okPort n
  | .linkLoss n => okPort n
  | .accelReady n => okPort n
  | .accelReadyWithdrawn n => okPort n
  | .injectionAdmit k => okSource k
  | .heldCopyOffer => true
  | .holdExpired => true
  | .notice n b => okPort n && okCell b
  | .noticeKeyExpire => true
  | .openCircuit k idx => okStream k && okStep idx
  | .closeCircuit k idx => okStream k && okStep idx
  | .accessIssue k idx _ => okStream k && okStep idx
  | .putData n b => okPort n && okCell b
  | .putTail n b => okPort n && okCell b
  | .putCheckComplete n stream opn => okPort n && okStream stream && okOpn opn
  | .putLanded n stream opn => okPort n && okStream stream && okOpn opn
  | .getReq n b => okPort n && okCell b
  | .getReadDone n stream opn _ => okPort n && okStream stream && okOpn opn
  | .atomic n b => okPort n && okCell b
  | .getRsp n b => okPort n && okCell b
  | .getRspData n b => okPort n && okCell b
  | .accessRetxTimeout stream opn => okStream stream && okOpn opn
  | .busyReissue stream opn => okStream stream && okOpn opn
  | .memTimeout stream opn => okStream stream && okOpn opn
  | .orderSkip n stream => okPort n && okStream stream
  | .assemblySlotTimeout => true
  | .stagingBankGrant w _ => okStagingWord w
  | .pkgTransactionDone _ _ => true
  | .pkgTimeout _ => true
  | .pkgStagingAccess p _ _ _ _ => okSlot p
  | .pkgRegisterWrite p _ _ => okSlot p
  | .doorbell n _ => okPartition n
  | .requestTake n => okPartition n
  | .descriptorRead n _ => okPartition n
  | .streamAssign n => okPartition n
  | .lastHeaderRead k => okStream k
  | .stageReserveGrant k => okStream k
  | .stepRecordRead k => okStream k
  | .stepArm k => okStream k
  | .stepEnd k => okStream k
  | .send k idx _ => okStream k && okStep idx
  | .recv k idx => okStream k && okStep idx
  | .recvCombine k idx => okStream k && okStep idx
  | .combineSend k idx => okStream k && okStep idx
  | .copy k idx _ => okStream k && okStep idx
  | .narrow k idx _ => okStream k && okStep idx
  | .widen k idx _ => okStream k && okStep idx
  | .waitTime k idx => okStream k && okStep idx
  | .barrier k idx => okStream k && okStep idx
  | .fence k idx => okStream k && okStep idx
  | .shardUpdate k idx => okStream k && okStep idx
  | .signal k idx _ => okStream k && okStep idx
  | .loop k => okStream k
  | .signalWordWrite n => okPartition n
  | .stagingBlockGrant k idx => okStream k && okStep idx
  | .stagingQuotaTimeout k idx => okStream k && okStep idx
  | .slotGrant => true
  | .combinerOperation k idx _ rank _ => okStream k && okStep idx && okRank rank
  | .updateBlockRead k idx _ => okStream k && okStep idx
  | .shardChunkBegin k idx _ _ _ => okStream k && okStep idx
  | .shardGateRelease k idx _ => okStream k && okStep idx
  | .deadlineExpiry k idx => okStream k && okStep idx
  | .timeout k idx => okStream k && okStep idx
  | .retxTimer k dest seq _ => okStream k && okEngine dest && okSeq seq
  | .retxExhausted k dest seq => okStream k && okEngine dest && okSeq seq
  | .landedRecordRelease => true
  | .legStart k dest => okStream k && okEngine dest
  | .receipt n b _ => okPort n && okCell b
  | .scrub a _ => okAddr a
  | .eventTailWrite _ => true
  | .regRead n b => okPort n && okCell b
  | .regWrite n b => okPort n && okCell b
  | .echo n b => okPort n && okCell b
  | .readRsp n b => okPort n && okCell b
  | .writeRsp n b => okPort n && okCell b
  | .echoRsp n b => okPort n && okCell b
  | .ctrlSend => true
  | .ctrlRxTailWrite _ => true
  | .replayCacheExpire => true
  | .warm _ => true
  | .reload _ => true
  | .warmReset => true
  | .reloadStart => true
  | .quench k => okStream k
  | .quenchComplete k => okStream k
  | .partitionReset n _ => okPartition n
  | .release n => okPartition n
  | .portReset n => okPort n
  | .adoptOpen _ => true
  | .engineIdWrite _ => true
  | .adoptionWindowClose => true
  | .flipArm _ => true
  | .flipDisarm => true
  | .flip => true
  | .drainEnd => true
  | .tableWrite a _ => okAddr a
  | .configurationSeal => true
  | .porst _ => true
  | .coldResetEnd => true
  | .porstRelease straps => okStraps straps
  | .pllLock _ => true
  | .bootDescriptorRead _ => true
  | .journalScan => true
  | .slotCheck => true
  | .imageLoad => true
  | .bootContinue => true
  | .bootPortLimit => true
  | .journalWrite rb => okRecord rb
  | .journalErase => true
  | .flashPortServe => true
  | .flashFrameDone _ => true
  | .flashBusyTimeout => true
  | .softwareSequence => true
  | .nop f => okFrame f
  | .read f => okFrame f
  | .readWindow f => okFrame f
  | .write f => okFrame f
  | .badOp f => okFrame f
  | .underrun _ => true
  | .csWatchdog _ => true
  | .pushAttempt _ => true
  | .multiMasterFault _ => true
  | .mapWindowEnd => true
  | .mapReq n b => okPort n && okCell b
  | .mapRsp n b => okPort n && okCell b
  | .surveySend => true
  | .rplTailWrite _ => true
  | .dataCopy => true
  | .replayStart _ => true
  | .replayDone => true
  | .arm => true
  | .disarm => true
  | .leaseExpired pt => okPoint pt
  | .warmPinAssert _ => true
  | .warmPinRelease => true
  | .supplyDip _ _ => true
  | .thermalSample temp _ => okTemp temp
  | .instructionUpdate op => okJtag op
  | .tapReset => true
  | .awlTickOpportunity => true
  | .svyRxTailWrite _ => true
  | .ledgerRead _ n e => okPartition n && okEntry e

end Sys2Proof
end

