-- ==== Sys2Proof/Tests/Slice0.lean ====
section
/-! SUPPORT. Tests: ill-formed commands are refused; every statement's hypotheses are met by a concrete state and operands, and what
the command does there is what the rule says. -/
namespace Sys2Proof.Tests
open Sys2Proof Sys2Proof.Machine
set_option maxRecDepth 100000
set_option Elab.async false

/-- The next state of an outcome passes a test. -/
def after (o : Host.Outcome State Fault Refusal) (p : State → Bool) : Bool :=
  match o with
  | .next t => p t
  | _ => false

/-- An engine in operation: boot step 7, engine ID 5, joined, version 0 of the tables CURRENT. -/
def eng : State :=
  wr R.mtcMode 1 (wr R.mtcStatus 0x1F01 (wr R.glbBootStatus 0xC017 (wr R.glbEngineId 5
    { State.reset with rst := { cold := false, pin := false }, ep := { closed := false } })))

/-- The same with port `n` as `p`. -/
def engPort (n : Nat) (p : Port) : State := { eng with ports := [(n, p)] }

/-- The same with stream `k` as `x`. -/
def engStr (k : Nat) (x : Stream) : State := { eng with streams := [(k, x)] }

/-- Bytes from address `a` as memory cells, but for those equal to what an unlisted address reads as. -/
def cellsFrom (fill : Byte) : Nat → List Byte → List Host.Cell
  | _, [] => []
  | a, b :: t => if b = fill then cellsFrom fill (a + 1) t else (a, b) :: cellsFrom fill (a + 1) t

/-! ### Machine time -/

def sLost : State := { eng with clk := { lostAt := some 5 }, t := { ticks := 16777221 } }
def sSoon : State := { sLost with t := { ticks := 16777220 } }
/-- RACK_FALLBACK, after the return to REFCLK or before it. -/
def sFall (b : Bool) : State := wbitAt R.mtcStatus 3 true { eng with clk := { refBack := b } }
def sLate (k : W64) : State := { eng with t := { mtc := k } }
def sEarly : State := { eng with t := { mtc := 0xFFFFFD } }
def sMiss : State := { eng with t := { mtc := 5 }, clk := { missRun := 3 } }

theorem witness_ClockAndMarks :
    eng.Ready ∧ eng.clk.lostAt = none ∧ after (exec .refLost eng) (fun t => rbit t R.clkStatus 3 && rbit t R.clkEvents 0) = true
    ∧ sLost.Ready ∧ sLost.clk.lostAt.isSome = true ∧ rbit sLost R.clkConfig 0 = true
    ∧ after (exec .switchToLocalOsc sLost) (fun t => rbit t R.clkStatus 2) = true
    ∧ sLost.clk.lostAt = some 5 ∧ 5 + 16777216 ≤ now sLost
    ∧ after (exec .refRestored sLost) (fun t => rbit t R.clkStatus 1 && !rbit t R.clkStatus 2 && t.clk.refBack) = true
    ∧ now sSoon < 5 + 16777216 ∧ sSoon.Ready ∧ sSoon.clk.lostAt = some 5 ∧ after (exec .refRestored sSoon) (fun t => t == sSoon) = true
    ∧ appliesMark eng = true ∧ rbit eng R.mtcStatus 3 = false ∧ eng.clk.bigJump = 0 ∧ mtcLow eng = 0
    ∧ after (exec .markEdge eng) (fun t => t.t.mtc == 0 && t.clk.markSeen) = true
    ∧ sEarly.Ready ∧ appliesMark sEarly = true ∧ 0xFFFFFC ≤ mtcLow sEarly
    ∧ after (exec .markEdge sEarly) (fun t => t.t.mtc == 0x1000000 && rbit t R.mtcEvents 3) = true
    ∧ (sLate 1).Ready ∧ appliesMark (sLate 1) = true ∧ mtcLow (sLate 1) = 1 ∧ mtcLow (sLate 4) = 4 ∧ rbit (sLate 4) R.mtcStatus 3 = false
    ∧ after (exec .markEdge (sLate 1)) (fun t => t.t.mtc == 1 && t.t.hold == some 1) = true
    ∧ after (exec .markEdge (sLate 4)) (fun t => t.t.mtc == 4 && t.t.hold == some 4) = true
    ∧ (sFall true).Ready ∧ appliesMark (sFall true) = true ∧ rbit (sFall true) R.mtcStatus 3 = true
    ∧ after (exec .markEdge (sFall true)) (fun t => !rbit t R.mtcStatus 3 && t.clk.markSeen) = true
    ∧ after (exec .markEdge (sFall false)) (fun t => t == sFall false) = true
    ∧ sMiss.Ready ∧ appliesMark sMiss = true ∧ 4 < mtcLow sMiss ∧ mtcLow sMiss < 0x800000
    ∧ sMiss.clk.missFor ≠ mtcN sMiss / 0x1000000 + 1
    ∧ after (exec .markMiss sMiss) (fun t => t.clk.missRun == 4 && rbit t R.mtcStatus 3) = true := by decide +kernel

def sSteer (c : Int) : State := wr R.mtcMode 0 { eng with t := { mtc := 100, ticks := 1023, corr := c } }
def sHold (k : Nat) : State := { eng with t := { mtc := 100, hold := some k } }
def sJump : State := { eng with t := { mtc := 100, jump := 7 } }

theorem witness_Steering :
    (sSteer 3).Ready ∧ steerDue (sSteer 3) = true ∧ after (exec .steerIncrement (sSteer 3)) (fun t => t.t.mtc == 102 && t.t.corr == 2) = true
    ∧ steerDue (sSteer (-3)) = true ∧ after (exec .steerIncrement (sSteer (-3))) (fun t => t.t.mtc == 100 && t.t.corr == -2) = true
    ∧ (sHold 0).Ready ∧ (sHold 0).t.hold = some 0 ∧ after (exec .holdEnd (sHold 0)) (fun t => t.t.hold == none && t.t.mtc == 100) = true
    ∧ eng.pending = [] ∧ steerDue eng = false ∧ after (step eng) (fun t => t.t.mtc == 1 && t.t.ticks == 1) = true
    ∧ after (step (sHold 2)) (fun t => t.t.mtc == 100 && t.t.hold == some 1) = true
    ∧ after (step sJump) (fun t => t.t.mtc == 107 && t.t.jump == 0) = true := by decide +kernel

def sConflict : State := { wbitAt R.mtcStatus 7 true eng with roots := { conflictAt := some 0 }, t := { ticks := 65536 } }
def sOld : State := { engPort 4 { st := .active, offer := some { heard := 0, rack := 1, rackRoot := 1, rackDist := 0, machRoot := 1, machDist := 0, flags := 0 } } with
  t := { ticks := 65536 } }
def sSelf : State := { wbitAt R.mtcStatus 0 false eng with roots := { selfSince := some 0 }, t := { ticks := 49152 } }
def sIsland : State := { wbitAt R.mtcStatus 0 false eng with roots := { step6 := some 0 }, t := { ticks := 67108864 } }
/-- A SYNC for engine 5 from engine 7, with TX_TIME 0x1122. -/
def cSync : Cell := { welt := mkWelt 5 7 0 3 8 0 0 0 0 0 0, payload := bytesBE 8 0x1122 ++ List.replicate 56 0 }
def sSync : State := { engPort 4 { st := .active, rx := [cellWire cSync] } with t := { mtc := 500 } }

theorem witness_RootsJoiningAndSync :
    sConflict.Ready ∧ conflictOver sConflict = true ∧ after (exec .modeConflictClear sConflict) (fun t => !rbit t R.mtcStatus 7) = true
    ∧ sOld.Ready ∧ syncPorts.any (offerOld sOld) = true ∧ after (exec .rootLost sOld) (fun t => (port t 4).offer == none) = true
    ∧ sSelf.Ready ∧ selfJoinDue sSelf = true ∧ after (exec .rootSelfJoin sSelf) (fun t => rbit t R.mtcStatus 0) = true
    ∧ sIsland.Ready ∧ islandDue sIsland = true ∧ after (exec .island sIsland) (fun t => rbit t R.mtcStatus 1) = true
    ∧ now sSync % 16384 = 0 ∧ 4 ∈ syncPorts ∧ (port sSync 4).st = .active ∧ 0 < queueFree sSync 4 .vc3
    ∧ after (exec .syncSend sSync) (fun t => (port t 4).qVc3.length == 1 && (port t 4).seq == 1) = true
    ∧ sSync.Ready ∧ rxOk sSync 4 (cellWire cSync) = true ∧ wType (parseCell (cellWire cSync)) = 8
    ∧ (arrive 4 (cellWire cSync) sSync).2.1 = .sync
    ∧ after (exec (.sync 4 (cellWire cSync)) sSync) (fun t => (port t 4).echo == some (0x1122, t.t.mtc)) = true := by decide +kernel

theorem witness_LatchedReads :
    sEarly.Ready ∧ after (exec (.mtcNowLoRead .ctrl) { eng with t := { mtc := 0x500000002 } })
      (fun t => (regRead .ctrl R.mtcNowHi t).2.1 == 5 && (regRead .mgt R.mtcNowHi t).2.1 == 0) = true
    ∧ after (exec (.strBaseLoRead .mgt 255) (engStr 255 { base := 0x700000003 })) (fun t => (regRead .mgt (R.strBaseHi 255) t).2.1 == 7) = true
    ∧ after (exec (.telWindowLoRead .mgt) { eng with map := { last := 0x900000000 } }) (fun t => (regRead .mgt R.telWindowHi t).2.1 == 9) = true
    ∧ after (exec .mtcSnap { eng with t := { mtc := 0x500000002 } }) (fun t => rdN t R.mtcSnapLo == 2 && rdN t R.mtcSnapHi == 5) = true
    ∧ R.ledgerWord 15 (8 * 255 + 7) ∉ eng.eccBad
    ∧ after (exec (.ledgerRead .mgt 15 255) { eng with pars := [(15, { unread := [3, 255] })] }) (fun t => (par t 15).unread == [3]) = true := by
  decide +kernel

/-! ### Registers, tables, flips -/

def isRw (a : Nat) : Bool := match regKind a with | some (.rw _) => true | _ => false

/-- Version 1 of the route table is IDLE, version 0 CURRENT. -/
theorem witness_RegisterAndTableWrites :
    eng.Ready ∧ imageAddr 0x4 = false ∧ regKind R.glbId = some .ro ∧ after (exec (.registerWrite .mgt R.glbId 1) eng) (fun t => t == eng) = true
    ∧ bootWriteOk eng = true ∧ isRw 0x24 = true ∧ after (exec (.registerWrite .ctrl 0x24 0xFFF12345) eng) (fun t => rd t 0x24 == 0x12345) = true
    ∧ regKind R.mtcEvents = some (.w1c 0xFF) ∧ touched eng R.mtcEvents = 0
    ∧ after (exec (.registerWrite .mgt R.mtcEvents 2) (wr R.mtcEvents 6 eng)) (fun t => rd t R.mtcEvents == 4) = true
    ∧ isTableWord (R.routeTbl 1 5) = true ∧ verNow eng (versionOf (R.routeTbl 1 5)) = .idle
    ∧ imageAddr (R.routeTbl 1 5) = false ∧ vccBad (R.routeTbl 1 5) 0x8001F79D = false ∧ vccBad (R.routeTbl 1 5) 0x8003F79D = true
    ∧ after (exec (.tableWrite (R.routeTbl 1 5) 0x8001F79D) eng) (fun t => rd t (R.routeTbl 1 5) == 0x8001F79D &&& tableMask (R.routeTbl 1 5)) = true
    ∧ after (exec (.tableWrite (R.routeTbl 1 5) 0x8003F79D) eng) (fun t => rfld t (R.routeTbl 1 5) 17 16 == 0 && rfld t (R.routeTbl 1 5) 4 0 == 29) = true
    ∧ isTableWord (R.routeTbl 0 5) = true ∧ verNow eng (versionOf (R.routeTbl 0 5)) ≠ .idle
    ∧ after (exec (.tableWrite (R.routeTbl 0 5) 1) eng) (fun t => rbit t R.tblFlipEvents 2 && rdN t R.tblBusyCount == 1) = true := by
  decide +kernel

def sArmed : State := { wr R.tblDrain 0x800 eng with t := { mtc := 2000 }, ep := { closed := false, armed := some 2000 } }
def sDrain : State := { eng with t := { mtc := 2000 }, ep := { closed := false, draining := true, drainF := 500, drainEnd := 1500 } }

theorem witness_Flips :
    eng.Ready ∧ 1024 ≤ rdN (wr R.tblFlipAtLo 1024 eng) R.tblFlipAtLo ∧ eng.ep.draining = false
    ∧ after (exec (.flipArm 0) (wr R.tblFlipAtLo 1024 eng)) (fun t => t.ep.armed == some 1024) = true
    ∧ after (exec (.flipArm 0) (wr R.tblFlipAtLo 1023 eng)) (fun t => t.ep.armed == none && rbit t R.tblFlipEvents 1) = true
    ∧ flipDue eng = false ∧ after (exec .flipDisarm { eng with ep := { closed := false, armed := some 9 } }) (fun t => t.ep.armed == none) = true
    ∧ sDrain.Ready ∧ drainDue sDrain = true ∧ after (exec .drainEnd sDrain) (fun t => !t.ep.draining && rbit t R.tblFlipEvents 5) = true
    ∧ sArmed.Ready ∧ sArmed.ep.armed = some 2000 ∧ flipDue sArmed = true
    ∧ after (exec .flip sArmed) (fun t => t.ep.inj == 1 && t.ep.draining && t.ep.drainEnd == 2000 + 0x800 && t.ep.flips == 1) = true := by
  decide +kernel

def sSealed : State := wbitAt R.glbSeal 0 true eng
def sStaged : State := { eng with staged := [(R.parReplay 3 - 0x1C, 1)] }

theorem witness_SealAndStagedValues :
    eng.Ready ∧ after (exec .configurationSeal eng) (fun t => rbit t R.glbSeal 0) = true
    ∧ sSealed.Ready ∧ rbit sSealed R.glbSeal 0 = true ∧ regKind 0x10 = some (.rwb [fIn 13 8 0 47, fIn 7 4 0 8, fAll 3 0]) ∧ bootWriteOk sSealed = true
    ∧ (applyFields [fIn 13 8 0 47, fIn 7 4 0 8, fAll 3 0] (rd sSealed 0x10) 7).1 ≠ rd sSealed 0x10 ∧ wholeOk 0x10 7 = true
    ∧ after (exec (.registerWrite .mgt 0x10 7) sSealed) (fun t => rd t 0x10 == 0 && rdN t R.glbSealRefusedAddr == 0x10) = true
    ∧ sStaged.Ready ∧ noSteps sStaged 3 = true ∧ boundaryReg 3 (R.parReplay 3 - 0x1C) = true ∧ ringReg 3 (R.parReplay 3 - 0x1C) = false
    ∧ mapReg 3 (R.parReplay 3 - 0x1C) = false ∧ (R.parReplay 3 - 0x1C) % 0x1000 ≠ 0x084
    ∧ after (exec (.stagedApply 3) sStaged) (fun t => rd t (R.parReplay 3 - 0x1C) == 1 && t.staged == []) = true := by decide +kernel

theorem witness_ScrubbingAndTails :
    isTblMem (R.routeTbl 0 5) = true ∧ R.routeTbl 0 5 ∉ eng.eccBad
    ∧ after (exec (.scrub (R.routeTbl 0 5) 1) eng) (fun t => rdN t R.glbTblEccCorrCount == 1 && t.eccBad == []) = true
    ∧ 2 ≤ 3 ∧ after (exec (.scrub (R.routeTbl 0 5) 0) { eng with eccBad := [R.routeTbl 0 5] }) (fun t => rbit t R.glbAlertStatus 3) = true
    ∧ (rd (wr R.glbEventHead 256 eng) R.glbEventHead - 0).toNat ≤ 256 ∧ 256 < (rd (wr R.glbEventHead 257 eng) R.glbEventHead - 0).toNat
    ∧ after (exec (.eventTailWrite 3) (wr R.glbEventHead 259 eng)) (fun t => rd t R.glbEventTail == 3) = true
    ∧ after (exec (.eventTailWrite 2) (wr R.glbEventHead 259 eng)) (fun t => rd t R.glbEventTail == 0) = true
    ∧ after (exec (.ctrlRxTailWrite 8) (wr R.glbCtrlRxHead 16 eng)) (fun t => rd t R.glbCtrlRxTail == 8) = true
    ∧ after (exec (.ctrlRxTailWrite 7) (wr R.glbCtrlRxHead 16 eng)) (fun t => rd t R.glbCtrlRxTail == 0) = true
    ∧ after (exec (.svyRxTailWrite 1) (wr R.telSvyRxHead 33 eng)) (fun t => rd t R.telSvyRxTail == 1) = true
    ∧ after (exec (.svyRxTailWrite 0xFFFFFFFF) (wr R.telSvyRxHead 33 eng)) (fun t => rd t R.telSvyRxTail == 0) = true
    ∧ (rd (wr R.rplHead 5 eng) R.rplHead - 5).toNat ≤ ringUnits eng ∧ ringUnits eng < (rd (wr R.rplHead 5 eng) R.rplHead - 4).toNat
    ∧ after (exec (.rplTailWrite 5) (wr R.rplHead 5 eng)) (fun t => rd t R.rplTail == 5) = true := by decide +kernel

def sAdopt : State := wbitAt R.glbAdopt 0 true { eng with mgr := { adoptAt := some 0 }, t := { ticks := 16777216 } }

theorem witness_ReleaseAndAdoption :
    eng.Ready ∧ rbit eng (R.parReset 15) 9 = false
    ∧ after (exec (.release 15) (wr (R.parReset 15) 0x100 eng)) (fun t => rd t (R.parReset 15) == 0) = true
    ∧ rbit (wr (R.parReset 15) 0x300 eng) (R.parReset 15) 9 = true
    ∧ wbit 0x80050000 31 = true ∧ fld 0x80050000 28 16 = ownId eng ∧ allIdle eng = true
    ∧ after (exec (.adoptOpen 0x80050000) eng) (fun t => rbit t R.glbAdopt 0 && t.mgr.adoptAt == some 0) = true
    ∧ sAdopt.Ready ∧ (4 < bootStep sAdopt) ∧ rbit sAdopt R.glbAdopt 0 = true ∧ fld 0x1FFE 12 0 ≠ 0x1FFF ∧ (∀ n < 16, ranks sAdopt n = 0)
    ∧ after (exec (.engineIdWrite 0x1FFE) sAdopt) (fun t => ownId t == 0x1FFE && !rbit t R.glbAdopt 0 && rbit t R.glbAdopt 4) = true
    ∧ adoptDue sAdopt = true ∧ after (exec .adoptionWindowClose sAdopt) (fun t => !rbit t R.glbAdopt 0) = true := by decide +kernel

def pOn : AwlPoint := { cur := { on := true, leaseEnd := 65536 } }
def sPoint : State := { eng with awl := [(0, pOn)], t := { ticks := 65536 } }

theorem witness_InjectionPoints :
    eng.Ready ∧ isSealed eng = false ∧ bootStep eng = 7 ∧ fld (Machine.awl eng 0).mode 1 0 ≠ 2 ∧ wbit (Machine.awl eng 0).mode 2 = false
    ∧ after (exec .arm eng) (fun t => (Machine.awl t 0).cur == armSettings eng (Machine.awl eng 0)) = true
    ∧ after (exec .disarm sPoint) (fun t => !(Machine.awl t 0).cur.on) = true
    ∧ leaseDue sPoint 0 = true ∧ leaseDue { sPoint with awl := [(19, pOn)] } 19 = true
    ∧ after (exec (.leaseExpired 0) sPoint) (fun t => !(Machine.awl t 0).cur.on && rbit t R.awlEvents 3) = true
    ∧ eng.Quiet ∧ eng.mgr.oppAt ≠ some (now eng) ∧ after (exec .awlTickOpportunity eng) (fun t => t.mgr.oppAt == some 0) = true := by
  decide +kernel

theorem witness_ArmActsFromTheNextTick :
    eng.Ready ∧ awlSel eng = 0 ∧ isSealed eng = false ∧ bootStep eng = 7 ∧ fld (Machine.awl eng 0).mode 1 0 ≠ 2 ∧ wbit (Machine.awl eng 0).mode 2 = false
    ∧ after (exec .arm eng) (fun t => !(awlSeen t (Machine.awl t 0)).on
      && (awlSeen { t with t := { ticks := 1 } } (Machine.awl t 0)).on) = true
    ∧ after (exec .disarm sPoint) (fun t => (awlSeen t (Machine.awl t 0)).on
      && !(awlSeen { t with t := { ticks := 65537 } } (Machine.awl t 0)).on) = true := by decide +kernel

theorem witness_SameTickWrites :
    eng.Ready ∧ bootWriteOk eng = true ∧ regKind R.mtcEvents = some (.w1c 0xFF)
    ∧ after (exec (.registerWrite .mgt R.mtcEvents 0x7F) (ev R.mtcEvents 6 eng)) (fun t => rbit t R.mtcEvents 6) = true
    ∧ regKind (R.glbDetCount 0) = some .counter
    ∧ after (exec (.registerWrite .mgt (R.glbDetCount 0) 0xFFFFFFFF) (cntBy (R.glbDetCount 0) 3 (wr (R.glbDetCount 0) 9 eng)))
      (fun t => rdN t (R.glbDetCount 0) == 3) = true := by decide +kernel

/-! ### Ports and link states -/

def fencedS : State := engPort 7 { st := .fenced }
def faultS : State := engPort 30 { st := .fault, failRun := 8 }
def actS : State := engPort 4 { st := .active }

theorem witness_PortCommands :
    eng.Ready ∧ after (exec (.fenceCommand 30) eng) (fun t => (port t 30).st == .fenced && (port t 30).reason == 1) = true
    ∧ fencedS.Ready ∧ after (exec (.unfenceCommand 7) fencedS) (fun t => (port t 7).st == .down) = true
    ∧ after (exec (.unfenceCommand 7) eng) (fun t => t.ports == eng.ports && rbit t (R.prtEvents 7) 14) = true
    ∧ faultS.Ready ∧ after (exec (.clearFault 30) faultS) (fun t => (port t 30).st == .down && (port t 30).failRun == 0) = true
    ∧ after (exec (.clearFault 0) eng) (fun t => t.ports == eng.ports && rbit t (R.prtEvents 0) 14) = true
    ∧ actS.Ready ∧ after (exec (.retrainCommand 4) actS) (fun t => (port t 4).st == .train) = true
    ∧ after (exec (.portDisable 4) actS) (fun t => (port t 4).st == .down && (port t 4).reason == 1) = true
    ∧ after (exec (.portDisable 30) faultS) (fun t => t.ports == faultS.ports && !rbit t (R.prtConfig 30) 0) = true := by decide +kernel

def sRes : State := { engPort 4 { st := .align, lite := true, resuming := true, wakeBoth := some 10 } with t := { ticks := 331 } }
def sTrain : State := { engPort 4 { st := .train } with t := { ticks := 2097152 } }
def sAlign7 : State := { engPort 4 { st := .align, failRun := 7 } with t := { ticks := 16384 } }
def pkgT : State := engPort 3 { st := .train, pkgReady := true }

theorem witness_LosingTheLink :
    actS.Ready ∧ serial 4 = true
    ∧ after (exec (.linkLoss 4) actS) (fun t => (port t 4).st == .down && (port t 4).reason == 9 && rbit t R.glbAlertStatus 4) = true
    ∧ sRes.Ready ∧ resumeOver sRes 4 = true ∧ after (exec (.resumeTimeout 4) sRes) (fun t => (port t 4).st == .down) = true
    ∧ sTrain.Ready ∧ (port sTrain 4).ovlHold = false ∧ (port sTrain 4).entered + 2 ^ 21 ≤ now sTrain
    ∧ after (exec (.trainFail 4) sTrain) (fun t => (port t 4).reason == 12 && (port t 4).failRun == 1) = true
    ∧ sAlign7.Ready ∧ (port sAlign7 4).entered + 16384 ≤ now sAlign7
    ∧ after (exec (.alignFail 4) sAlign7) (fun t => (port t 4).st == .fault && (port t 4).reason == 7) = true
    ∧ recordIs 0x30 (linkRecord actS 4 0x30 0) = true
    ∧ after (exec (.retrainRecord 4 (linkRecord actS 4 0x30 0)) actS) (fun t => (port t 4).st == .train) = true
    ∧ pkgT.Ready ∧ after (exec (.accelReadyWithdrawn 3) pkgT) (fun t => (port t 3).st == .down && (port t 3).reason == 9) = true
    ∧ after (exec (.accelReadyWithdrawn 0) eng) (fun t => !(port t 0).pkgReady && (port t 0).st == .down) = true := by decide +kernel

def sDown (n : Nat) : State := { wr (R.prtConfig n) 1 (engPort n {}) with t := { ticks := 1024 } }
def sSeek : State := { engPort 4 { st := .seek, heard := 3, nonce := 77 } with t := { ticks := 1600000 } }
def sTrn : State := engPort 4 { st := .train }

theorem witness_SeekingAPeer :
    (sDown 4).Ready ∧ (port (sDown 4) 4).entered + 1024 ≤ now (sDown 4) ∧ mayLeave (sDown 4) 4 = true
    ∧ after (exec (.portSeek 4) (sDown 4)) (fun t => (port t 4).st == .seek && (port t 4).entered == 1024) = true
    ∧ (sDown 3).Ready ∧ mayLeave (sDown 3) 3 = true ∧ after (exec (.accelReady 3) (sDown 3)) (fun t => (port t 3).st == .train) = true
    ∧ sSeek.Ready ∧ beaconOk (mkBeacon 6 22 5 true false) = true ∧ (mkBeacon 6 22 5 true false).toNat.testBit 8 = false
    ∧ (mkBeacon 6 22 5 true false).toNat.testBit 9 = true
    ∧ after (exec (.beacon 4 (mkBeacon 6 22 5 true false)) sSeek) (fun t => (port t 4).st == .train && (port t 4).leader) = true
    ∧ after (exec (.beacon 4 (mkBeacon 5 22 5 true false)) sSeek) (fun t => (port t 4).st == .train && !(port t 4).leader) = true
    ∧ nbits (mkBeacon 5 22 77 true false).toNat 47 35 = ownId sSeek ∧ nbits (mkBeacon 5 22 77 true false).toNat 29 14 = 77
    ∧ beaconOk (mkBeacon 5 22 77 true false) = true
    ∧ after (exec (.beacon 4 (mkBeacon 5 22 77 true false)) sSeek) (fun t => (port t 4).st == .seek) = true
    ∧ sTrn.Ready ∧ beaconOk (mkBeacon 6 22 5 false true) = true ∧ (mkBeacon 6 22 5 false true).toNat.testBit 8 = true
    ∧ after (exec (.beacon 4 (mkBeacon 6 22 5 false true)) sTrn) (fun t => (port t 4).st == .down && (port t 4).reason == 5) = true
    ∧ (port sSeek 4).beaconSeen = false ∧ (port sSeek 4).entered + 1600000 ≤ now sSeek
    ∧ after (exec (.portAlone 4) sSeek) (fun t => (port t 4).alone && (port t 4).st == .seek) = true := by decide +kernel

/-- A record the peer of port 29 sends: its own ID is 9. -/
def peerRec (op flags : Nat) : List Byte := linkRecord (wr R.glbEngineId 9 eng) 30 op flags
def sAl : State := engPort 29 { st := .align, alignRec := some (peerRec 1 1), alignRuns := 1 }
/-- Port 20's peer must be of kind 3. -/
def sAl20 : State := engPort 20 { st := .align, alignRec := some (peerRec 1 1), alignRuns := 1 }
/-- Port 29 in operation with that peer. -/
def sKeep : State := wrN (R.prtPeer 29) (peerWord (peerRec 2 0)) (engPort 29 { st := .active })
def act29 : State := engPort 29 { st := .active }

theorem witness_AligningAPort :
    sTrn.Ready ∧ after (exec (.trainComplete 4 0) sTrn) (fun t => (port t 4).st == .align && !(port t 4).lite) = true
    ∧ after (exec (.trainComplete 3 8) pkgT) (fun t => (port t 3).st == .active) = true
    ∧ after (exec (.trainComplete 3 9) pkgT) (fun t => (port t 3).st == .fault && (port t 3).reason == 8) = true
    ∧ sAl.Ready ∧ recordIs 0x01 (peerRec 1 1) = true ∧ sameRecord (peerRec 1 1) (peerRec 1 1) = true ∧ alignCheck sAl 29 (peerRec 1 1) = none
    ∧ (lFlags (peerRec 1 1)).testBit 0 = true
    ∧ after (exec (.align 29 (peerRec 1 1)) sAl) (fun t => (port t 29).st == .active && rdN t (R.prtPeer 29) == 30 * 2 ^ 17 + 9) = true
    ∧ sAl20.Ready ∧ alignCheck sAl20 20 (peerRec 1 1) = some 6
    ∧ after (exec (.align 20 (peerRec 1 1)) sAl20) (fun t => (port t 20).st == .fenced && (port t 20).reason == 6) = true
    ∧ act29.Ready ∧ recordIs 0x02 (peerRec 2 0) = true ∧ lPort (peerRec 2 0) ≠ rfld act29 (R.prtPeer 29) 21 17
    ∧ after (exec (.keep 29 (peerRec 2 0)) act29) (fun t => (port t 29).st == .down && (port t 29).reason == 10) = true
    ∧ sKeep.Ready ∧ lPort (peerRec 2 0) = rfld sKeep (R.prtPeer 29) 21 17 ∧ lId (peerRec 2 0) = rfld sKeep (R.prtPeer 29) 12 0
    ∧ lInc (peerRec 2 0) = rfld sKeep (R.prtPeer 29) 16 13 ∧ lKind (peerRec 2 0) = rfld sKeep (R.prtPeer 29) 23 22
    ∧ after (exec (.keep 29 (peerRec 2 0)) sKeep) (fun t => t == sKeep) = true
    ∧ after (exec (.keep 29 (peerRec 2 0)) (modPort 29 (fun p => { p with rxRec := some (peerRec 2 0) }) sKeep)) (fun t => t == sKeep) = true := by
  decide +kernel

def sIdle : State := { wr (R.prtConfig 29) 0x00010003 act29 with t := { ticks := 64 } }
def sReq (sl : Bool) : State := engPort 29 { st := .active, req := if sl then .sleep else .doze }

theorem witness_LowPower :
    act29.Ready ∧ holdsCells act29 29 = false ∧ (port act29 29).lowNext = none
    ∧ after (exec (.dozeCommand 29) act29) (fun t => (port t 29).owed == [(0x10, 4)]) = true
    ∧ after (exec (.sleepCommand 29) act29) (fun t => (port t 29).req == .sleep && (port t 29).owed == [(0x13, 4)]) = true
    ∧ sIdle.Ready ∧ rbit sIdle (R.prtConfig 29) 1 = true ∧ (port sIdle 29).lowNext = none ∧ (port sIdle 29).traffic + rfld sIdle (R.prtConfig 29) 31 16 * 64 ≤ now sIdle
    ∧ after (exec (.idleDoze 29) sIdle) (fun t => (port t 29).req == .doze && (port t 29).owed == [(0x10, 0)]) = true
    ∧ recordIs 0x10 (peerRec 0x10 0) = true ∧ recordIs 0x13 (peerRec 0x13 0) = true
    ∧ after (exec (.dozeReq 29 (peerRec 0x10 0)) act29) (fun t => (port t 29).owed == [(0x11, 0)] && (port t 29).lowNext == some false) = true
    ∧ after (exec (.sleepReq 29 (peerRec 0x13 0)) act29) (fun t => (port t 29).owed == [(0x14, 0)]) = true
    ∧ after (exec (.sleepReq 29 (peerRec 0x13 0)) { act29 with roots := { rackParent := 29 } }) (fun t => (port t 29).owed == [(0x15, 0)]) = true
    ∧ (sReq true).Ready ∧ (sReq false).Ready ∧ recordIs 0x11 (peerRec 0x11 0) = true ∧ queuedCells (port (sReq false) 29) = 0
    ∧ after (exec (.dozeAck 29 (peerRec 0x11 0)) (sReq false)) (fun t => (port t 29).st == .doze) = true
    ∧ after (exec (.sleepAck 29 (peerRec 0x14 0)) (sReq true)) (fun t => (port t 29).st == .sleep) = true
    ∧ after (exec (.dozeNak 29 (peerRec 0x12 0)) (sReq false)) (fun t => (port t 29).st == .active && rbit t (R.prtEvents 29) 8) = true
    ∧ after (exec (.sleepNak 29 (peerRec 0x15 0)) (sReq true)) (fun t => (port t 29).req == .none) = true := by decide +kernel

def lowS (p : PState) : State := engPort 29 { st := p }

theorem witness_Resuming :
    (lowS .doze).Ready ∧ (lowS .sleep).Ready
    ∧ after (exec (.resume 29) (lowS .doze)) (fun t => (port t 29).st == .align && (port t 29).lite && rbit t (R.prtEvents 29) 9
        && rdN t (R.prtResumeCount 29) == 1 && t.out == [.wake 29]) = true
    ∧ after (exec (.resume 29) (engPort 29 { st := .sleep, leader := true })) (fun t => (port t 29).st == .train && t.out == [.wake 29, .training 29]) = true
    ∧ after (exec (.wake 29) (lowS .doze)) (fun t => (port t 29).st == .align && rbit t (R.prtEvents 29) 10) = true
    ∧ after (exec (.resume 29) (lowS .sleep)) (fun t => (port t 29).st == .train && (port t 29).resuming) = true := by decide +kernel

def ovlS (o : Bool) : State :=
  { engPort 29 { st := .align, lite := true, ovlRun := true, ovl := o, ovlOn := o, ovlAt := 0, ovlClear := 1 } with t := { ticks := 16385 } }
/-- RETRAIN is due and the next codeword is the control codeword. -/
def ovlR : State := engPort 29 { st := .align, lite := true, ovlRun := true, ovl := true, ovlOn := true, retrain := true, owed := [(0x30, 0)], txCells := 160 }

theorem witness_Overloads :
    act29.Ready ∧ after (exec (.overload 29) act29) (fun t => (port t 29).st == .align && (port t 29).ovl && rbit t (R.prtEvents 29) 11) = true
    ∧ (ovlS true).Ready ∧ after (exec (.overloadClear 29) (ovlS true)) (fun t => !(port t 29).ovl && (port t 29).ovlClear == 16385) = true
    ∧ (ovlS false).Ready ∧ (port (ovlS false) 29).ovlClear + 2048 ≤ now (ovlS false) ∧ (port (ovlS false) 29).lock = false
    ∧ after (exec (.overloadLockTimeout 29) (ovlS false)) (fun t => (port t 29).st == .align && (port t 29).retrain) = true
    ∧ (port (ovlS true) 29).ovlAt + 16384 < now (ovlS true) ∧ (port (ovlS true) 29).retrain = false
    ∧ after (exec (.overloadLong 29) (ovlS true)) (fun t => (port t 29).st == .align && (port t 29).owed == [(0x30, 0)] && rbit t (R.prtEvents 29) 12) = true
    ∧ ovlR.Ready ∧ 159 ≤ (port ovlR 29).txCells ∧ pickQueue (port ovlR 29) = none
    ∧ after (exec (.cellTransmit 29) ovlR) (fun t => (port t 29).st == .train && (port t 29).ovlHold && t.out.contains (recordOut ovlR 29 0x30 0)) = true := by
  decide +kernel

/-- Header: KIND 0, POS 3, FIRST 75, the first header of a link; KIND 1 at POS 19. -/
theorem witness_Codewords :
    actS.Ready ∧ actS.Quiet ∧ headerGood (port actS 4) 0x72C0 = true ∧ nbits 0x72C0 19 18 = 0
    ∧ after (exec (.codeword 4 true 4 0x72C0 (List.replicate 640 1)) actS) (fun t => (port t 4).pos == some 3 && (port t 4).rx.length == 7
        && rdN t (R.prtFecCorrCount 4) == 4 && (port t 4).part == some (List.replicate 33 1)) = true
    ∧ headerGood (port actS 4) 0x66000 = true ∧ recordGood (peerRec 2 0) = true
    ∧ after (exec (.codeword 4 true 0 0x66000 (peerRec 2 0 ++ List.replicate 576 0)) actS) (fun t => (port t 4).rxRec == some (peerRec 2 0) && (port t 4).rx == []) = true
    ∧ after (exec (.codeword 4 true 0 0x66000 (List.replicate 640 1)) actS) (fun t => (port t 4).pos == some 19 && (port t 4).rx == []) = true
    ∧ (port actS 4).uncorrRun < 7
    ∧ after (exec (.codeword 4 false 0 0 []) actS) (fun t => (port t 4).uncorrRun == 1 && rbit t R.glbAlertStatus 5) = true := by decide +kernel

/-! ### Cells, routing, chunks -/

/-- Ports 4 and 29 ACTIVE; the route to engine 6 leaves by port 29, the one to engine 7 is a ring's. -/
def sNet : State := wr (R.routeTbl 0 6) 0x8000001D { eng with ports := [(4, { st := .active }), (29, { st := .active })] }
/-- A cell from engine 9 as it arrives. -/
def wireOf (dest vc type : Nat) (p : List Byte) : List Byte := cellWire (mkCell dest 9 vc type 20 0 0 (pad64 p))
def idleB : List Byte := cellWire (idleCell eng)
def badB : List Byte := List.replicate 76 1

theorem witness_ReceiveChecks :
    sNet.Ready ∧ sNet.Quiet ∧ rxOk sNet 4 badB = true ∧ hopOk badB = false
    ∧ after (exec (.transitCell 4 badB) sNet) (fun t => rdN t (R.prtHopchkCount 4) == 1 && rbit t (R.prtCellEvents 4) 0 && rbit t R.glbAlertStatus 0) = true
    ∧ hopOk idleB = true ∧ wType (parseCell idleB) = 0 ∧ after (exec (.idleFill 4 idleB) sNet) (fun t => t.regs == sNet.regs) = true
    ∧ hopOk (wireOf 6 0 12 []) = true ∧ wType (parseCell (wireOf 6 0 12 [])) = 12
    ∧ after (exec (.transitCell 4 (wireOf 6 0 12 [])) sNet) (fun t => rdN t (R.prtTypeRsvdCount 4) == 1 && rbit t R.glbAlertStatus 19) = true
    ∧ hopOk (wireOf 6 1 4 []) = true ∧ weltOk (parseCell (wireOf 6 1 4 [])) = false
    ∧ after (exec (.transitCell 4 (wireOf 6 1 4 [])) sNet) (fun t => rdN t (R.prtWeltBadCount 4) == 1) = true := by decide +kernel

def epochB : List Byte := cellWire (setWelt 37 37 1 (mkCell 6 9 0 4 20 0 0 (pad64 [])))

theorem witness_ReceiveChecks_epoch :
    hopOk epochB = true ∧ weltOk (parseCell epochB) = true ∧ wMcast (parseCell epochB) = false ∧ wDest (parseCell epochB) = 6
    ∧ isExplicit (parseCell epochB) = false ∧ verNow sNet (wEpoch (parseCell epochB)) = .idle ∧ sNet.ep.armed = none
    ∧ after (exec (.transitCell 4 epochB) sNet) (fun t => rdN t R.tblStaleCount == 1 && rbit t R.glbAlertStatus 7) = true := by decide +kernel

def tb : List Byte := wireOf 6 0 4 []
/-- The standard queue of port 29 is full, and no deflection is allowed. -/
def sFull : State := wr R.tblDeflectMax 0
  { sNet with ports := [(4, { st := .active }), (29, { st := .active, qVc0s := List.replicate 24 (mkCell 6 9 0 4 20 0 0 []) })] }
/-- Stream 20 arriving on port 4 has a circuit by port 29. -/
def sCirc : State := wr (R.circuitTbl 7) (0x81000000 ||| (20 <<< 14) ||| (29 <<< 9)) sNet
def db : List Byte := wireOf 6 0 1 []
/-- A cell to an engine without a route. -/
def nb : List Byte := wireOf 8 0 4 []

theorem witness_TransitCells :
    sNet.Ready ∧ rxOk sNet 4 tb = true ∧ (arrive 4 tb sNet).2.1 = .transit ∧ (arrive 4 tb sNet).1.Quiet ∧ wVc (parseCell tb) = 0
    ∧ isExplicit (parseCell tb) = false ∧ wType (parseCell tb) = 4 ∧ (arrive 4 tb sNet).1.eccBad = []
    ∧ routeOf (rdPrev (arrive 4 tb sNet).1 (R.routeTbl 0 6)) = some { ring := false, a2 := 31, a1 := 31, primary := 29 }
    ∧ usable (arrive 4 tb sNet).1 true 29 = true ∧ 0 < queueFree (arrive 4 tb sNet).1 29 (tableQueue (parseCell tb))
    ∧ after (exec (.transitCell 4 tb) sNet) (fun t => (port t 29).qVc0s == [setWelt 3 1 1 (parseCell tb)]) = true
    ∧ sFull.Ready ∧ (arrive 4 tb sFull).2.1 = .transit ∧ (arrive 4 tb sFull).1.Quiet
    ∧ routeOf (rdPrev (arrive 4 tb sFull).1 (R.routeTbl 0 6)) = some { ring := false, a2 := 31, a1 := 31, primary := 29 }
    ∧ queueFree (arrive 4 tb sFull).1 29 (tableQueue (parseCell tb)) = 0 ∧ deflectMax (arrive 4 tb sFull).1 < 1
    ∧ after (exec (.transitCell 4 tb) sFull) (fun t => rdN t (R.prtDeflectDiscardCount 29) == 1 && rbit t R.glbAlertStatus 6) = true
    ∧ (arrive 4 nb sNet).2.1 = .transit ∧ routeOf (rdPrev (arrive 4 nb sNet).1 (R.routeTbl 0 8)) = none
    ∧ after (exec (.transitCell 4 nb) sNet) (fun t => rdN t R.tblNoRouteCount == 1 && rbit t R.glbAlertStatus 19) = true := by decide +kernel

theorem witness_TransitCells_circuit :
    sCirc.Ready ∧ rxOk sCirc 4 db = true ∧ (arrive 4 db sCirc).2.1 = .transit ∧ (arrive 4 db sCirc).1.Quiet ∧ wType (parseCell db) = 1
    ∧ findCircuit (arrive 4 db sCirc).1 4 20 128 = some 7 ∧ fld (rdPrev (arrive 4 db sCirc).1 (R.circuitTbl 7)) 13 9 = 29
    ∧ after (exec (.transitCell 4 db) sCirc) (fun t => (port t 29).qCirc == [setWelt 3 1 1 (parseCell db)]) = true := by decide +kernel

def qS : State := engPort 29 { st := .active, txCells := 158, qVc2 := [mkCell 6 9 2 9 0 0 0 (pad64 [])] }

theorem witness_CellBoundary :
    act29.Ready ∧ pickQueue (port act29 29) = none ∧ (port act29 29).txCells < 159
    ∧ after (exec (.cellTransmit 29) act29) (fun t => t.out == [.cell 29 (cellWire (idleCell act29))] && (port t 29).txCells == 1 && (port t 29).txBuf.length == 76) = true
    ∧ qS.Ready ∧ pickQueue (port qS 29) = some .vc2 ∧ queue (port qS 29) .vc2 = [mkCell 6 9 2 9 0 0 0 (pad64 [])] ∧ (port qS 29).txCells < 159
    ∧ wSrc (mkCell 6 9 2 9 0 0 0 (pad64 [])) ≠ ownId qS
    ∧ after (exec (.cellTransmit 29) qS) (fun t => t.out == [.cell 29 (cellWire (mkCell 6 9 2 9 0 0 0 (pad64 [])))] && (port t 29).qVc2 == []) = true := by decide +kernel

def wCell : Waiting := { stream := 20, cell := mkCell 6 5 0 1 20 0 0 [], port := 29, cls := .vc0s }
def hCell : Held := { port := 29, cell := mkCell 3 9 0 1 20 0 0 [], since := 0 }
def sWait : State := { act29 with waiting := [wCell], hold := [hCell], t := { ticks := 70000 }, notices := [⟨1, 1, 1, 1, 9⟩, ⟨1, 1, 2, 1, 60000⟩] }
def sRcp : State := { eng with t := { ticks := 3 }, receipts := [(3, mkCell 5 5 2 3 20 0 0 [])] }

theorem witness_WaitingCells :
    sWait.Ready ∧ firstWaiting sWait 20 = some wCell ∧ usable sWait false 29 = true ∧ injectNeed 0 .vc0s ≤ queueFree sWait 29 .vc0s
    ∧ after (exec (.injectionAdmit 20) sWait) (fun t => t.waiting == [] && (port t 29).qVc0s == [wCell.cell]) = true
    ∧ sWait.pending = [] ∧ sWait.waiting = [wCell] ∧ sWait.waits = [] ∧ after (step sWait) (fun t => rdN t (R.prtInjectWaitCount 29) == 1) = true
    ∧ wCell.fresh = false ∧ firstWaiting { sWait with waiting := [{ wCell with stream := 256 }] } 256 = some { wCell with stream := 256 }
    ∧ after (exec (.injectionAdmit 256) { sWait with waiting := [{ wCell with stream := 256 }] }) (fun t => t.waiting == [] && (port t 29).qVc0s.length == 1) = true
    ∧ after (exec (.injectionAdmit 20) { sWait with waiting := [{ wCell with mc := true }] })
        (fun t => t.waiting == [] && (port t 29).qVc0s == [wCell.cell]) = true
    ∧ sWait.hold = [hCell] ∧ usable sWait true 29 = true ∧ hCell.since < now sWait ∧ hCell.since + laceHold sWait ≤ now sWait
    ∧ after (exec .heldCopyOffer sWait) (fun t => t.hold == [] && (port t 29).qVc0s == [hCell.cell]) = true
    ∧ after (exec .holdExpired sWait) (fun t => t.hold == [] && rdN t R.tblMcDropCount == 1) = true
    ∧ after (exec .noticeKeyExpire sWait) (fun t => t.notices.length == 1) = true
    ∧ sRcp.Ready ∧ 3 ≤ now sRcp ∧ wDest (setWelt 37 37 0 (mkCell 5 5 2 3 20 0 0 [])) = ownId sRcp
    ∧ after (exec .sendReceipt sRcp) (fun t => t.receipts == [] && t.localQ == [mkCell 5 5 2 3 20 0 0 []]) = true := by decide +kernel

/-- A receiving run: RECV from rank 0, engine 9, of two chunks. -/
def rcv : Run := { rid := 1, idx := 0, rc := { opcode := 2, length := 2, fmt := 1, deadline := 500 }, fired := 0, base := 0, bias := 0, peerId := 9, map := [9] }
/-- Partition 0 owns streams 0–31, with 256 blocks; stream 20 runs `rcv`. -/
def sRecv : State := wr (R.parStreamRange 0) 0x2000 (wr (R.parStageQuota 0) 1
  { sNet with streams := [(20, { st := .running, runs := [rcv], req := { step := 3 } })], t := { ticks := 100, mtc := 100 } })
/-- The same without blocks. -/
def sNoBlk : State := wr (R.parStageQuota 0) 0 sRecv
/-- A row multicast DATA cell of engine 9 on port 4, whose peer is engine 9, or is not. -/
def rowB : List Byte := cellWire { welt := mkWelt 0 9 0 0 1 20 0 0 1 0 1, payload := pad64 [] }
def sRow : State := wrN (R.prtPeer 4) 9 sRecv

theorem witness_MulticastCells :
    sRecv.Ready ∧ rxOk sRecv 4 rowB = true ∧ wMcast (parseCell rowB) = true ∧ (arrive 4 rowB sRecv).2.1 = .mcast ∧ wDefl (parseCell rowB) = 1
    ∧ peerId (arrive 4 rowB sRecv).1 4 ≠ 9
    ∧ after (exec (.multicastCell 4 rowB) sRecv) (fun t => rdN t R.tblMcKindBadCount == 1 && rbit t R.glbAlertStatus 19) = true
    ∧ sRow.Ready ∧ (arrive 4 rowB sRow).2.1 = .mcast ∧ peerId (arrive 4 rowB sRow).1 4 = 9 ∧ wSrc (parseCell rowB) = 9
    ∧ (str (arrive 4 rowB sRow).1 20).runs.any (fun r => r.expects 9) = true ∧ asmOf (arrive 4 rowB sRow).1 (parseCell rowB) = none
    ∧ blockFor (arrive 4 rowB sRow).1 20 = true
    ∧ after (exec (.multicastCell 4 rowB) sRow) (fun t => t.asms.length == 1) = true
    ∧ (str (arrive 4 rowB { sRow with streams := [] }).1 20).runs.any (fun r => r.expects 9) = false
    ∧ (arrive 4 rowB { sRow with streams := [] }).2.1 = .mcast
    ∧ after (exec (.multicastCell 4 rowB) { sRow with streams := [] }) (fun t => rdN t R.tblMcNoStepCount == 1) = true := by decide +kernel

def dataB : List Byte := wireOf 5 0 1 []
def sealB : List Byte := wireOf 5 0 2 []
def asm1 : Asm := { dest := 5, src := 9, stream := 20, seq := 0 }
def sAsm : State := { sRecv with asms := [asm1] }

theorem witness_ChunkAssembly :
    sRecv.Ready ∧ (deliveredCell 4 dataB sRecv).isSome = true ∧ wType (parseCell dataB) = 1 ∧ wMcast (parseCell dataB) = false
    ∧ after (exec (.dataCell 4 dataB) sRecv) (fun t => t.asms.length == 1 && str t 20 == (str (arrive 4 dataB sRecv).1 20).takeB) = true
    ∧ sNoBlk.Ready ∧ blockFor sNoBlk 20 = false
    ∧ after (exec (.dataCell 4 dataB) sNoBlk) (fun t => t.asms == [] && rdN t (R.strQuotaDiscardCount 20) == 1) = true
    ∧ (deliveredCell 4 sealB sRecv).isSome = true ∧ wType (parseCell sealB) = 2
    ∧ after (exec (.sealCell 4 sealB) sRecv) (fun t => t.asms.length == 1 && (str t 20).inUse + (str t 20).drawn == 1) = true
    ∧ after (exec (.sealCell 4 sealB) sNoBlk) (fun t => t.receipts.length == 1 && rdN t (R.strQuotaDiscardCount 20) == 1) = true
    ∧ sAsm.Ready ∧ asmOf sAsm (parseCell dataB) = some asm1
    ∧ after (exec (.dataCell 4 dataB) sAsm) (fun t => t.asms == [{ asm1 with cells := [(0, pad64 [])] }]) = true := by decide +kernel

/-- Sixty-four empty cells. -/
def cells64 : List (Nat × List Byte) := (List.range 64).map (fun i => (i, []))
def asmF (sealP : List Byte) : Asm := { dest := 5, src := 9, stream := 20, seq := 0, cells := cells64, sealP := some sealP, full := some 96 }
/-- A SEAL of step 3, format 1, one element; and of step 4, which no step takes. -/
def sealGood (step : Nat) : List Byte := sealBytes (crc32c []) step 0 1 1 0 1
def sLand (b : List Byte) : State := { sRecv with asms := [asmF b] }
def sDup : State := { sLand (sealGood 3) with landed := [{ stream := 20, src := 9, rid := 1, rstream := 20, step := 3, idx := 0, entries := [(0, crc32c [])] }] }
/-- RECV that runs from tick 0 and has run for 100 ticks, format register 1 being binary32. -/
def sTake : State := wr (R.rankMap 0 0) 9 (wr (R.parSelfRank 0) 1 (sLand (sealGood 3)))
/-- The assembly whose check CHUNK_LANDING completes. -/
def checkedAsm (s : State) : Option Asm := s.asms.find? (fun a => a.src == 9 && a.stream == 20 && a.seq == 0 && a.checked s)

theorem witness_ChunkLandings :
    (sLand (sealBytes 1 3 0 1 1 0 1)).Ready ∧ checkedAsm (sLand (sealBytes 1 3 0 1 1 0 1)) = some (asmF (sealBytes 1 3 0 1 1 0 1))
    ∧ 96 + 4 ≤ now (sLand (sealBytes 1 3 0 1 1 0 1)) ∧ ((List.range 64).map (fun i => tget [] i cells64)).flatten = []
    ∧ crc32c [] ≠ sCheck (sealBytes 1 3 0 1 1 0 1)
    ∧ after (exec (.chunkLanding 9 20 0) (sLand (sealBytes 1 3 0 1 1 0 1))) (fun t => t.asms == [] && rdN t (R.strChkFailCount 20) == 1
        && rbit t R.glbAlertStatus 1 && t.receipts.length == 1) = true
    ∧ crc32c [] = sCheck (sealGood 3) ∧ sStep (sealGood 3) = 3 ∧ sDup.Ready ∧ checkedAsm sDup = some (asmF (sealGood 3))
    ∧ (sDup.landed.find? (fun d => d.stream == 20 && d.src == 9 && d.step == 3 && recHeld sDup d
      && d.entries.any (fun e => e.1 == 0 && e.2 == crc32c []))).isSome = true
    ∧ after (exec (.chunkLanding 9 20 0) sDup) (fun t => rdN t (R.strDupCount 20) == 1 && t.receipts.length == 1) = true
    ∧ crc32c [] = sCheck (sealGood 4) ∧ closedFor (dropAsm (asmF (sealGood 4)) (sLand (sealGood 4))) 20 (asmF (sealGood 4)) (sealGood 4) = none
    ∧ runFor (dropAsm (asmF (sealGood 4)) (sLand (sealGood 4))) 20 (asmF (sealGood 4)) (sealGood 4) = none
    ∧ after (exec (.chunkLanding 9 20 0) (sLand (sealGood 4))) (fun t => rbit t (R.strCollEvents 20) 1 && t.receipts.length == 1) = true := by
  decide +kernel

theorem witness_ChunkLandings_taken :
    sTake.Ready ∧ checkedAsm sTake = some (asmF (sealGood 3)) ∧ sTake.landed = [] ∧ sTake.Quiet
    ∧ R.rankMap (str sTake 20).part (sRank (sealGood 3)) ∉ sTake.eccBad ∧ rfld sTake (R.rankMap (str sTake 20).part (sRank (sealGood 3))) 12 0 ≠ 0x1FFF
    ∧ (needRecord 20 9 3 rcv (dropAsm (asmF (sealGood 3)) sTake)).any (fun d => d.entries == []) = true
    ∧ closedFor (dropAsm (asmF (sealGood 3)) sTake) 20 (asmF (sealGood 3)) (sealGood 3) = none
    ∧ runFor (dropAsm (asmF (sealGood 3)) sTake) 20 (asmF (sealGood 3)) (sealGood 3) = some (rcv, 0)
    ∧ sealOk (dropAsm (asmF (sealGood 3)) sTake) rcv 9 (sealGood 3) = true ∧ mtcN sTake ≤ rcv.deadline
    ∧ after (exec (.chunkLanding 9 20 0) sTake) (fun t => (recordOf t 20 9 1).any (fun e => e.entries.contains (0, crc32c [])) && t.receipts.length == 1) = true := by
  decide +kernel

/-- NOTICEs for lace 5, sequence 0, of stream 20, which is sending it or is not. -/
def noteB : List Byte := cellWire (mkCell 5 9 2 11 20 0 0 (pad64 [0, 1, 0, 5, 29]))
def sLegs : State := { sNet with streams := [(20, { st := .running, legs := [{ step := 0, rid := 1, dest := 0, rank := 0, str := 20, mc := 1, lace := 5, len := 1, out := [{ seq := 0, sealP := [], check := 0, data := [] }] }] })] }

theorem witness_Notices :
    sNet.Ready ∧ (deliveredCell 4 noteB sNet).isSome = true ∧ wType (parseCell noteB) = 11 ∧ noticeStream (arrive 4 noteB sNet).1 20 0 0 5 = none
    ∧ after (exec (.notice 4 noteB) sNet) (fun t => rdN t R.tblNoticeStaleCount == 1 && rbit t R.tblMcEvents 4) = true
    ∧ sLegs.Ready ∧ (deliveredCell 4 noteB sLegs).isSome = true ∧ noticeStream (arrive 4 noteB sLegs).1 20 0 0 5 = some 20
    ∧ ((parseCell noteB).payload.getD 1 0).toNat = 1
    ∧ after (exec (.notice 4 noteB) sLegs) (fun t => rbit t (R.strBranchLossMap 20) 29 && rdN t (R.strBranchLossCount 20) == 1) = true := by
  decide +kernel

def sDead : State := { sRecv with t := { ticks := 500, mtc := 500 } }
def rcvX : Run := { rcv with expired := true, limit := 600 }
def sOver : State := { sRecv with streams := [(20, { st := .running, runs := [rcvX] })], t := { ticks := 600, mtc := 600 } }

theorem witness_DeadlinesAndTimeouts :
    sDead.Ready ∧ sDead.Quiet ∧ runAt sDead 20 0 = some rcv ∧ runOf sDead 20 1 = some rcv ∧ rcv.receives = true ∧ rcv.policy = 0
    ∧ noLandingDue sDead 20 = true ∧ rcv.expired = false ∧ acting sDead rcv = true ∧ rcv.deadline ≤ mtcN sDead
    ∧ after (exec (.deadlineExpiry 20 0) sDead) (fun t => (str t 20).runs == [{ rcv with expired := true, limit := 500 + 4 * retxWait sDead }]) = true
    ∧ sOver.Ready ∧ sOver.Quiet ∧ runAt sOver 20 0 = some rcvX ∧ runOf sOver 20 1 = some rcvX ∧ incomplete rcvX = true ∧ rcvX.limit ≤ mtcN sOver
    ∧ after (exec (.timeout 20 0) sOver) (fun t => (str t 20).runs == [] && (str t 20).st == .idle || (str t 20).st == .faulted) = true
    ∧ after (exec .landedRecordRelease sDup) (fun t => t.landed == sDup.landed) = true := by decide +kernel

/-! ### Board memory -/

/-- Partition 0 may reach all addresses; the staging store begins at offset 0; port 4 is ACTIVE toward engine 9. -/
def sMem : State := wr R.memStageBase 0 (wrN (R.prtPeer 4) 9 (wr (R.parWinCtrl 0 0) 0xF (wr (R.parWinLimitLo 0 0) 0xFFFFF000
  (wr (R.parWinLimitHi 0 0) 0xFFFF (engPort 4 { st := .active })))))
/-- The same with another peer. -/
def sMem8 : State := wrN (R.prtPeer 4) 8 sMem
def tailP (addr len part op pseq check operand compare : Nat) : List Byte :=
  pad64 (bytesBE 6 addr ++ bytesBE 2 len ++ bytesBE 1 part ++ bytesBE 1 op ++ bytesBE 2 0 ++ bytesBE 1 pseq ++ bytesBE 3 0 ++ bytesBE 4 check
    ++ bytesBE 4 operand ++ bytesBE 4 compare)
def osB (type seq : Nat) (p : List Byte) : List Byte := cellWire (mkCell 5 9 0 type 20 seq 0 p)
def putD : List Byte := osB 4 7 (pad64 [])
def putT : List Byte := osB 4 519 (tailP 128 64 0 0 0 0 0 0)
def getR (part : Nat) : List Byte := osB 5 519 (tailP 128 64 part 0 0 0 0 0)
def atomB : List Byte := osB 7 519 (tailP 128 4 0 1 0 0 5 0)

theorem witness_OneSidedRequests_refused :
    sMem8.Ready ∧ (deliveredCell 4 putD sMem8).isSome = true ∧ targetFrom (arrive 4 putD sMem8).1 4 (parseCell putD) = false
    ∧ wType (parseCell putD) = 4 ∧ osTail (parseCell putD) = false ∧ osTail (parseCell putT) = true ∧ wType (parseCell (getR 0)) = 5
    ∧ after (exec (.putData 4 putD) sMem8) (fun t => rdN t R.memReqRefusedCount == 1) = true
    ∧ after (exec (.putTail 4 putT) sMem8) (fun t => rdN t R.memReqRefusedCount == 1) = true
    ∧ after (exec (.getReq 4 (getR 0)) sMem8) (fun t => rdN t R.memReqRefusedCount == 1) = true
    ∧ after (exec (.atomic 4 atomB) sMem8) (fun t => rdN t R.memReqRefusedCount == 1) = true := by decide +kernel

theorem witness_OneSidedRequests :
    sMem.Ready ∧ (deliveredCell 4 putD sMem).isSome = true ∧ targetFrom (arrive 4 putD sMem).1 4 (parseCell putD) = true
    ∧ slotAt (arrive 4 putD sMem).1 4 20 7 = none ∧ putLost (arrive 4 putD sMem).1 4 20 7 = false
    ∧ putLost (targetTest 4 20 4 9 (parseCell putT).payload (arrive 4 putT sMem).1).1 4 20 7 = false ∧ after (exec (.putData 4 putD) sMem) (fun t => t.slots.length == 1) = true
    ∧ (deliveredCell 4 putT sMem).isSome = true ∧ (targetTest 4 20 4 9 (parseCell putT).payload (arrive 4 putT sMem).1).2 = none
    ∧ after (exec (.putTail 4 putT) sMem) (fun t => t.slots.length == 1) = true
    ∧ (deliveredCell 4 (getR 0) sMem).isSome = true ∧ (targetTest 4 20 5 9 (parseCell (getR 0)).payload (arrive 4 (getR 0) sMem).1).2 = none
    ∧ after (exec (.getReq 4 (getR 0)) sMem) (fun t => t.gets.length == 1) = true
    ∧ (targetTest 4 20 5 9 (parseCell (getR 1)).payload (arrive 4 (getR 1) sMem).1).2 = some 1
    ∧ usable (targetTest 4 20 5 9 (parseCell (getR 1)).payload (arrive 4 (getR 1) sMem).1).1 false 4 = true
    ∧ after (exec (.getReq 4 (getR 1)) sMem) (fun t => t.gets == [] && (port t 4).qVc0s.length == 1) = true := by decide +kernel

/-- FETCH_ADD of 5 to a word that holds 7. -/
def sAtom : State := { sMem with stg := [(128, 7)] }

theorem witness_Atomics :
    sAtom.Ready ∧ (deliveredCell 4 atomB sAtom).isSome = true ∧ wType (parseCell atomB) = 7 ∧ targetFrom (arrive 4 atomB sAtom).1 4 (parseCell atomB) = true
    ∧ (targetTest 4 20 7 9 (parseCell atomB).payload (arrive 4 atomB sAtom).1).2 = none ∧ (targetTest 4 20 7 9 (parseCell atomB).payload (arrive 4 atomB sAtom).1).1.Quiet
    ∧ (targetTest 4 20 7 9 (parseCell atomB).payload (arrive 4 atomB sAtom).1).1.slots = [] ∧ placeOf sAtom 128 4 = .store 128
    ∧ tPseq (parseCell atomB).payload = (orderOf sAtom 4 20).expect
    ∧ after (exec (.atomic 4 atomB) sAtom) (fun t => stgRead t 128 4 == bytesLE 4 12 && orderOf t 4 20 == { expect := 1, old := 7 }) = true := by
  decide +kernel

def putData64 : List Byte := List.replicate 64 3
def slotS (st : SlotSt) (pseq check : Nat) : Slot :=
  { port := 4, stream := 20, opn := 7, st := st, cells := [(0, putData64)], tail := some (tailP 128 64 0 0 pseq check 0 0), src := 9, due := 0, fullAt := some 0 }
def sSlot (x : Slot) : State := { sMem with slots := [x], t := { ticks := 4 } }

theorem witness_PutLanding :
    (sSlot (slotS .checking 0 (crc32c putData64))).Ready ∧ (sSlot (slotS .checking 0 1)).Quiet ∧ crc32c putData64 ≠ 1
    ∧ ((List.range 1).map (fun i => tget [] i (slotS .checking 0 1).cells)).flatten = putData64 ∧ tLen (tailP 128 64 0 0 0 1 0 0) = 64
    ∧ tCheck (tailP 128 64 0 0 0 1 0 0) = 1 ∧ tOp (tailP 128 64 0 0 0 1 0 0) = 0 ∧ placeOf (sSlot (slotS .checking 0 0)) 128 64 = .store 128
    ∧ after (exec (.putCheckComplete 4 20 7) (sSlot (slotS .checking 0 1))) (fun t => t.slots == [] && rbit t R.glbAlertStatus 1) = true
    ∧ after (exec (.putCheckComplete 4 20 7) (sSlot (slotS .checking 0 (crc32c putData64)))) (fun t => stgGet t 128 == 3 && stgGet t 191 == 3
        && t.slots.length == 1) = true
    ∧ (63 + 256 - (orderOf (sSlot (slotS .checking 63 0)) 4 20).expect) % 256 ≤ 63
    ∧ after (exec (.putCheckComplete 4 20 7) (sSlot (slotS .checking 63 (crc32c putData64)))) (fun t => t.slots.map (fun x => x.st) == [.held]) = true
    ∧ (sSlot (slotS .landing 0 0)).txns.any (fun g => g.owner == .put 4 20 7) = false
    ∧ after (exec (.putLanded 4 20 7) (sSlot (slotS .landing 0 0))) (fun t => t.slots == [] && (orderOf t 4 20).expect == 1) = true
    ∧ (slotS .held 5 0).skip ≤ now (sSlot (slotS .held 5 0))
    ∧ after (exec (.orderSkip 4 20) (sSlot (slotS .held 5 0))) (fun t => t.slots.map (fun x => x.st) == [.landing] && (orderOf t 4 20).expect == 5
        && rdN t R.memOrderSkipCount == 1) = true := by decide +kernel

def sGet : State := { sMem with gets := [{ port := 4, stream := 20, opn := 7, src := 9, addr := 128, len := 64, pseq := 0 }] }

theorem witness_TargetTimesAndReads :
    sMem.Ready ∧ sMem.Quiet
    ∧ after (exec .assemblySlotTimeout (sSlot { slotS .filling 0 0 with tail := none })) (fun t => t.slots == [] && rdN t R.memReqRefusedCount == 1) = true
    ∧ sGet.Ready ∧ sGet.Quiet ∧ placeOf sGet 128 64 = .store 128 ∧ usable sGet false 4 = true ∧ 64 / 64 < queueFree sGet 4 .vc0s
    ∧ after (exec (.getReadDone 4 20 7 []) sGet) (fun t => t.gets == [] && (port t 4).qVc0s.length == 2) = true := by decide +kernel

def tagS (kind : AccKind) : Tag :=
  { stream := 20, opn := 7, kind := kind, step := 0, rid := 1, slot := 1, port := 4, dest := 9, addr := 2 ^ 44 + 128, len := 64, loc := 128, part := 0, limit := 1000 }
def sTag (g : Tag) : State := { sMem with tags := [g] }
/-- A response: STATUS in byte 0, incarnation 0. -/
def rspB (tail : Bool) (status : Nat) : List Byte := osB 6 (if tail then 519 else 7) (pad64 (bytesBE 1 status))

theorem witness_Responses :
    sMem.Ready ∧ (deliveredCell 4 (rspB true 0) sMem).isSome = true ∧ wType (parseCell (rspB true 0)) = 6 ∧ tagOf (arrive 4 (rspB true 0) sMem).1 20 7 = none
    ∧ after (exec (.getRsp 4 (rspB true 0)) sMem) (fun t => rdN t R.memStaleRspCount == 1 && rbit t R.memEvents 3) = true
    ∧ after (exec (.getRspData 4 (rspB false 0)) sMem) (fun t => rdN t R.memStaleRspCount == 1) = true
    ∧ (sTag (tagS .put)).Ready ∧ tagOf (arrive 4 (rspB true 0) (sTag (tagS .put))).1 20 7 = some (tagS .put) ∧ wSrc (parseCell (rspB true 0)) = (tagS .put).dest
    ∧ fieldBE (parseCell (rspB true 0)).payload 12 1 % 16 = rfld (arrive 4 (rspB true 0) (sTag (tagS .put))).1 (R.prtPeer 4) 16 13
    ∧ after (exec (.getRsp 4 (rspB true 0)) (sTag (tagS .put))) (fun t => t.tags == []) = true
    ∧ after (exec (.getRsp 4 (rspB true 5)) (sTag (tagS .get))) (fun t => tagOf t 20 7 == some { tagS .get with busyAt := some 0 }) = true
    ∧ osTail (parseCell (rspB false 9)) = false ∧ placeOf (arrive 4 (rspB false 9) (sTag (tagS .get))).1 128 64 = .store 128
    ∧ (parseCell (rspB false 9)).payload.length = 64
    ∧ after (exec (.getRspData 4 (rspB false 9)) (sTag (tagS .get))) (fun t => tagOf t 20 7 == some { tagS .get with rx := [(0, pad64 [9])] }) = true := by
  decide +kernel

/-- A GET of 64 bytes whose data has come, for a RECV of two chunks. -/
def rDone : Run := { rid := 1, idx := 0, rc := { opcode := 2, flags := 0x40, length := 2 }, fired := 0, base := 0, bias := 0, slot := 1 }
def sDone : State := { sTag { tagS .get with rx := [(0, pad64 [9])] } with streams := [(20, { st := .running, runs := [rDone] })] }
def doneB : List Byte := osB 6 519 (pad64 (bytesBE 4 0 ++ bytesBE 4 (crc32c (pad64 [9]))))

theorem witness_Responses_done :
    sDone.Ready ∧ tagOf (arrive 4 doneB sDone).1 20 7 = some { tagS .get with rx := [(0, pad64 [9])] } ∧ osTail (parseCell doneB) = true
    ∧ fieldBE (parseCell doneB).payload 0 1 = 0 ∧ crc32c (pad64 [9]) = fieldBE (parseCell doneB).payload 4 4
    ∧ placeOf (arrive 4 doneB sDone).1 128 64 = .store 128 ∧ runOf (arrive 4 doneB sDone).1 20 1 = some rDone ∧ rDone.op = 2 ∧ rDone.kind = 4
    ∧ after (exec (.getRsp 4 doneB) sDone) (fun t => t.tags == [] && (runOf t 20 1).map (fun q => q.completed) == some 1 && stgGet t 128 == 9
        && stgGet t 129 == 0) = true := by decide +kernel

/-- A BOARD-kind RECV of one chunk from slot 1. -/
def rBrd : Run := { rid := 1, idx := 0, rc := { opcode := 2, flags := 0x40, length := 1 }, fired := 0, base := 0, bias := 0, win := winsOf sMem 0, slot := 1 }
def sBrd : State := { sMem with streams := [(20, { st := .running, runs := [rBrd] })], t := { ticks := 2 } }
/-- The same with all 512 tags of the stream held. -/
def sBrd512 : State := { sBrd with tags := (List.range 512).map (fun o => { tagS .get with opn := o }) }

theorem witness_AccessTags_issue :
    sBrd.Ready ∧ sBrd.Quiet ∧ runAt sBrd 20 0 = some rBrd ∧ runOf sBrd 20 1 = some rBrd ∧ acting sBrd rBrd = true ∧ isolated sBrd 20 = false
    ∧ rBrd.op = 2 ∧ rBrd.kind = 4 ∧ outAddr sBrd 20 rBrd 0 = 0 ∧ badShape false (withSlot 0 1) 4096 = false ∧ slotOf 0 = ownSlot sBrd ∧ 1 ≠ ownSlot sBrd
    ∧ 4 + (1 + 15 - ownSlot sBrd) % 16 = 4 ∧ localTest (some 20) rBrd.win 0 0 4096 .write sBrd = (sBrd, none)
    ∧ windowOk rBrd.win (withSlot 0 1) 4096 .read false = true ∧ usable sBrd false 4 = true ∧ tagRoom sBrd 20 1 .get = true
    ∧ after (exec (.accessIssue 20 0 []) sBrd) (fun t => t.tags.length == 1) = true := by decide +kernel

theorem witness_AccessTags_full :
    tagRoom sBrd512 20 1 .get = false ∧ sBrd512.Ready ∧ after (exec (.accessIssue 20 0 []) sBrd512) (fun t => t.waits == [.tag 20 1 0 1 .get]) = true := by
  decide +kernel

def tagD : Tag := { tagS .get with due := some 9, retries := 2 }
def tagBz : Tag := { tagS .get with busyAt := some 0 }
def sAt (g : Tag) (n : Nat) : State := { sTag g with t := { ticks := n } }

theorem witness_AccessTags :
    (sAt tagD 9).Ready ∧ tagOf (sAt tagD 9) 20 7 = some tagD ∧ tagTimer (sAt tagD 9) tagD = true ∧ tagOver (sAt tagD 9) tagD = false
    ∧ after (exec (.accessRetxTimeout 20 7) (sAt tagD 9)) (fun t => (tagOf t 20 7).map (fun u => u.retries) == some 3 && rdN t R.memRetryCount == 1) = true
    ∧ tagOver (sAt { tagBz with limit := 5000 } 2048) { tagBz with limit := 5000 } = false
    ∧ after (exec (.busyReissue 20 7) (sAt { tagBz with limit := 5000 } 2048)) (fun t => (tagOf t 20 7).map (fun u => u.busyAt) == some none
        && rdN t R.memRetryCount == 0) = true
    ∧ tagOver (sAt tagD 1000) tagD = true ∧ after (exec (.memTimeout 20 7) (sAt tagD 1000)) (fun t => t.tags == []) = true := by decide +kernel

def txnS : Txn := { id := 3, addr := 2 ^ 40, bytes := [1], owner := .signalWord 0, issued := 0 }
def sTxn : State := { sMem with txns := [txnS], t := { ticks := 0xFFFFFF } }

theorem witness_StoreAndPackage :
    sMem.Ready ∧ sMem.Quiet ∧ 0 < storeSize / 8
    ∧ after (exec (.stagingBankGrant 0 1) sMem) (fun t => rdN t R.memEccCorrCount == 1 && rbit t R.memEvents 5) = true
    ∧ after (exec (.stagingBankGrant (storeSize / 8 - 1) 2) sMem) (fun t => t.stgBad == [storeSize / 8 - 1]) = true
    ∧ sTxn.Ready ∧ sTxn.Quiet ∧ sTxn.txns.find? (fun u => u.id == 3 && u.sent) = some txnS
    ∧ after (exec (.pkgTransactionDone 3 none) sTxn) (fun t => t.txns == []) = true
    ∧ activePkg sTxn = sTxn.pkgSet ∧ activePkg { sTxn with pkgSet := [2] } ≠ [2]
    ∧ after (exec (.pkgTransactionDone 3 (some 0)) sTxn) (fun t => rdN t R.memPkgRetryCount == 1
        && t.out == [.pkgWrite 3 (2 ^ 40) [1] (beatPorts (activePkg sTxn) (2 ^ 40) 1)]) = true
    ∧ after (exec (.pkgTransactionDone 3 (some 0)) { sTxn with pkgSet := [2] }) (fun t => t.txns.map (fun g => g.sent) == [false] && t.out == []) = true
    ∧ txnS.issued + pkgTimeout sTxn ≤ now sTxn
    ∧ after (exec (.pkgTimeout 3) sTxn) (fun t => t.txns == [] && rbit t R.memEvents 7 && rbit t (R.parEvents 0) 3) = true
    ∧ placeOf sMem 128 2 = .store 128 ∧ slotOf 128 = ownSlot sMem ∧ windowOk (winsOf sMem 0) 128 2 .write false = true
    ∧ after (exec (.pkgStagingAccess 0 true 128 0 [6, 7]) sMem) (fun t => stgGet t 128 == 6 && stgGet t 129 == 7 && t.out == [.pkgRsp true []]) = true
    ∧ windowOk (winsOf sMem 0) 128 2 .read false = true
    ∧ after (exec (.pkgStagingAccess 0 false 128 2 []) sMem) (fun t => t.out == [.pkgRsp true [0, 0]]) = true
    ∧ windowOk (winsOf sMem 1) 128 2 .read false = false
    ∧ after (exec (.pkgStagingAccess 1 false 128 2 []) sMem) (fun t => t.out == [.pkgRsp false []] && rdN t R.memWindowFaultCount == 1
        && rbit t R.glbAlertStatus 8) = true := by decide +kernel

/-! ### Requests, Lasts, steps -/

def stgOf (a : Nat) (b : List Byte) : List Host.Cell := cellsFrom 0 a b

/-- Partition 0: streams 0–31, 256 blocks, rings of 16 at 0x10000 and 0x20000, Last window 0x8000–0x8FFF, own rank 0 of none. -/
def sPar : State := wr (R.parStreamRange 0) 0x2000 (wr (R.parStageQuota 0) 1 (wr (R.parReqSize 0) 4 (wr (R.parCplSize 0) 4
  (wr (R.parReqBaseLo 0) 0x10000 (wr (R.parCplBaseLo 0) 0x20000 (wr (R.parSelfRank 0) 0x80000000 (wr (R.parLastWindow 0) 0x10008 sMem)))))))
def sBell : State := { sPar with ports := [(3, { st := .active })] }

theorem witness_Doorbells :
    sBell.Ready ∧ doorbellHeard sBell 0 = true ∧ doorbellOk sBell 0 16 = true ∧ doorbellOk sBell 0 17 = false
    ∧ after (exec (.doorbell 0 16) sBell) (fun t => rd t (R.parReqTail 0) == 16) = true
    ∧ after (exec (.doorbell 0 17) sBell) (fun t => rbit t (R.parEvents 0) 0 && rd t (R.parReqTail 0) == 0) = true
    ∧ doorbellHeard sBell 15 = false ∧ after (exec (.doorbell 15 1) sBell) (fun t => t == sBell) = true
    ∧ after (exec (.pkgRegisterWrite 3 (R.parDoorbell 0) 16) sBell) (fun t => rd t (R.parReqTail 0) == 16 && t.out == [.pkgRsp true []]) = true
    ∧ tfind (R.parDoorbell 0) sBell.pkgWrote = none
    ∧ after (exec (.pkgRegisterWrite 3 (R.parDoorbell 0) 16) sBell)
        (fun t => after (exec (.doorbell 0 5) t) (fun u => rd u (R.parReqTail 0) == 16)) = true
    ∧ after (exec (.pkgRegisterWrite 3 (R.parCplHead 15) 9) sBell) (fun t => rd t (R.parCplHead 15) == 9) = true
    ∧ after (exec (.pkgRegisterWrite 3 R.glbId 9) sBell) (fun t => t.out == [.pkgRsp false []]) = true := by decide +kernel

def sTake1 : State := wr (R.parReqTail 0) 1 sPar
/-- A descriptor for stream 20, its Last at 0x8000. -/
def sRead : State := { sPar with stg := [(65541, 0x80), (65548, 20)], pars := [(0, { reading := true })] }
/-- The descriptor cannot be read: no window allows it. -/
def sNoRead : State := wr (R.parWinCtrl 0 0) 0 sRead
def reqW : Req := { stream := 20 }
def sStart : State := { sPar with pars := [(0, { starting := some reqW, outstanding := 1 })] }
/-- The state in which the descriptor is tested. -/
def sRead2 : State := wrN (R.parReqHead 0) 1 (modPar 0 (fun p => { p with reading := false, outstanding := p.outstanding + 1 }) sRead)
def descB : List Byte := stgRead sRead 0x10000 64

theorem witness_TakingARequest :
    sTake1.Ready ∧ takes sTake1 0 = true ∧ after (exec (.requestTake 0) sTake1) (fun t => (par t 0).reading) = true
    ∧ sRead.Ready ∧ (par sRead 0).reading = true
    ∧ (match (localRead none (winsOf sRead 0) 0 0x10000 64 [] sRead) with | (s1, .ok b) => s1 == sRead && b == descB | _ => false) = true
    ∧ descTest sRead2 0 descB (parseReq descB) = none ∧ freeStream sRead2 0 (parseReq descB) = some 20
    ∧ after (exec (.descriptorRead 0 []) sRead) (fun t => (str t 20).st == .starting && (par t 0).startStr == some 20 && (par t 0).outstanding == 1) = true
    ∧ freeStream { sRead2 with streams := [(20, { st := .faulted })] } 0 (parseReq descB) = none
    ∧ descTest { sRead2 with streams := [(20, { st := .faulted })] } 0 descB (parseReq descB) = none
    ∧ after (exec (.descriptorRead 0 []) { sRead with streams := [(20, { st := .faulted })] }) (fun t => (par t 0).starting == some (parseReq descB)) = true
    ∧ sStart.Ready ∧ (par sStart 0).starting = some reqW ∧ freeStream sStart 0 reqW = some 20
    ∧ after (exec (.streamAssign 0) sStart) (fun t => (str t 20).st == .starting && (par t 0).starting == none) = true := by decide +kernel

theorem witness_TakingARequest_unread :
    sNoRead.Ready ∧ (par sNoRead 0).reading = true
    ∧ after (exec (.descriptorRead 0 []) sNoRead) (fun t => rbit t (R.parEvents 0) 1 && rdN t (R.parCplTail 0) == 1 && (par t 0).outstanding == 0) = true := by
  decide +kernel

def hdr28 : List Byte := [0x4C, 0x41, 0x53, 0x54, 1, 0, 1, 0] ++ List.replicate 20 0
def hdrB : List Byte := hdr28 ++ bytesLE 4 (crc32c hdr28)
def xSt (last : Nat) : Stream := { st := .starting, req := { last := last, stream := 20 } }
def sHdr : State := { sPar with stg := stgOf 0x8000 hdrB, streams := [(20, xSt 0x8000)], pars := [(0, { startStr := some 20, outstanding := 1 })] }
def sHdrBad : State := { sHdr with streams := [(20, xSt 0x8001)] }
def xRes (need : Nat) : Stream := { xSt 0x8000 with hdrOk := true, steps := 1, need := need, rec1 := some {}, recAt := some 0 }
def sRes1 (need : Nat) : State := { sHdr with streams := [(20, xRes need)] }

theorem witness_StartingALast :
    sHdr.Ready ∧ str sHdr 20 = xSt 0x8000 ∧ (xSt 0x8000).req.last % 32 = 0 ∧ lastLo sHdr 0 ≤ 0x8000 ∧ 0x8000 + 64 ≤ lastHi sHdr 0
    ∧ (match (storeRead (some 20) 0 0x8000 64 sHdr) with | (s1, some b) => s1 == sHdr && b.take 32 == hdrB | _ => false) = true
    ∧ headerOk (stgRead sHdr 0x8000 64) = true ∧ fieldLE (stgRead sHdr 0x8000 64) 6 2 = 1
    ∧ after (exec (.lastHeaderRead 20) sHdr) (fun t => (str t 20).hdrOk && (str t 20).steps == 1 && (str t 20).rec1 == some {}) = true
    ∧ sHdrBad.Ready ∧ 0x8001 % 32 ≠ 0
    ∧ after (exec (.lastHeaderRead 20) sHdrBad) (fun t => (par t 0).startStr == none && rdN t (R.parCplTail 0) == 1) = true
    ∧ (sRes1 256).Ready ∧ 256 - (xRes 256).inUse ≤ stageFree (sRes1 256) 0
    ∧ after (exec (.stageReserveGrant 20) (sRes1 256)) (fun t => (str t 20).st == .running && (str t 20).base == 1 && (str t 20).arm == some (0, {}, 1, 0)) = true
    ∧ stageFree (sRes1 257) 0 < 257
    ∧ after (exec (.stageReserveGrant 20) (sRes1 257)) (fun t => rbit t (R.parEvents 0) 4 && t.streams == (sRes1 257).streams) = true := by decide +kernel

def xSeq : Stream := { st := .running, req := { last := 0x8000 }, steps := 2, next := 1, recAt := some 0, base := 7 }
def sSeq (x : Stream) : State := { sPar with streams := [(20, x)], stg := [(0x8040, 10)] }
def xLoop (l : List (Nat × Nat)) : Stream := { xSeq with next := 2, recAt := none, arm := some (1, { opcode := 15, aux := 2, launch := 5, inOff := 3 }, 0, 0), loops := l }

theorem witness_StepSequence :
    (sSeq xSeq).Ready ∧ storeRead (some 20) 0 0x8040 32 (sSeq xSeq) = (sSeq xSeq, some (stgRead (sSeq xSeq) 0x8040 32))
    ∧ after (exec (.stepRecordRead 20) (sSeq xSeq)) (fun t => (str t 20).rec1 == some { opcode := 10 }) = true
    ∧ mayArm (sSeq { xSeq with rec1 := some { opcode := 10, launch := 3 } }) 20 = true
    ∧ after (exec (.stepArm 20) (sSeq { xSeq with rec1 := some { opcode := 10, launch := 3 } })) (fun t => (str t 20).next == 2
        && (str t 20).arm == some (1, { opcode := 10, launch := 3 }, 10, 0)) = true
    ∧ stepTest (sSeq (xLoop [])) 20 { opcode := 15, aux := 2, launch := 5, inOff := 3 } = none
    ∧ after (exec (.loop 20) (sSeq (xLoop []))) (fun t => (str t 20).next == 0 && (str t 20).base == 12 && (str t 20).bias == 3 && (str t 20).loops == [(1, 0)]) = true
    ∧ after (exec (.loop 20) (sSeq (xLoop [(1, 0)]))) (fun t => (str t 20).next == 2 && (str t 20).base == 7 && (str t 20).loops == []) = true := by
  decide +kernel

def xArm (rc : Rec) : Stream := { xSeq with next := 1, arm := some (0, rc, 0, 0) }
def sArm1 (rc : Rec) : State := { sSeq (xArm rc) with t := { ticks := 1, mtc := 1 } }
/-- The state in which the WAIT_TIME of `sArm1` is prepared. -/
def sArm2 : State := modStr 20 (fun x => { x with arm := none, overlap := false }) (applyStaged 0 (sArm1 { opcode := 10 }))

theorem witness_LaunchAndEnd :
    (sArm1 { opcode := 10 }).Ready ∧ (str (sArm1 { opcode := 10 }) 20).lateArmed = false ∧ stepTest sArm2 20 { opcode := 10 } = none
    ∧ (match prepare 20 { rid := 0, idx := 0, rc := { opcode := 10 }, fired := 1, base := 7, bias := 0 } sArm2 with | (_, .ok _) => true | _ => false) = true
    ∧ after (exec (.launch 20) (sArm1 { opcode := 10 })) (fun t => (str t 20).runs.map (fun r => r.rc) == [{ opcode := 10 }] && (str t 20).rid == 1) = true
    ∧ (sArm1 {}).Ready ∧ stepTest (sArm1 {}) 20 {} = none ∧ earlierDone (sArm1 {}) 20 = true
    ∧ after (exec (.stepEnd 20) (sArm1 {})) (fun t => (str t 20).arm == none && (str t 20).st == .idle && rdN t (R.parCplTail 0) == 1) = true := by
  decide +kernel

def rOf (rc : Rec) : Run := { rid := 1, idx := 0, rc := rc, fired := 0, base := 0, bias := 0, win := winsOf sMem 0 }
def sRun (rc : Rec) : State := { wr (R.parCircuitQuota 0) 1 sPar with streams := [(20, { st := .running, runs := [rOf rc], req := { sigAddr := 0x30000, step := 3, buf := [0x40000, 0, 0, 0] } })], t := { ticks := 2 } }
def openR : Rec := { opcode := 8, aux := 932 }
def closeR : Rec := { opcode := 9, aux := 4 }
def sOpened : State := wr (R.circuitTbl 7) 0x81050000 (sRun closeR)

theorem witness_StepsWithoutData :
    (sRun { opcode := 10 }).Ready ∧ runAt (sRun { opcode := 10 }) 20 0 = some (rOf { opcode := 10 })
    ∧ after (exec (.waitTime 20 0) (sRun { opcode := 10 })) (fun t => (str t 20).runs == []) = true
    ∧ acting (sRun { opcode := 11 }) (rOf { opcode := 11 }) = true ∧ firstRun (sRun { opcode := 11 }) 20 (rOf { opcode := 11 }) = true
    ∧ after (exec (.barrier 20 0) (sRun { opcode := 11 })) (fun t => (str t 20).runs == []) = true
    ∧ earlierDone (sRun { opcode := 12 }) 20 = true ∧ after (exec (.fence 20 0) (sRun { opcode := 12 })) (fun t => (str t 20).runs == []) = true
    ∧ (sRun openR).Ready ∧ rdN (sRun openR) (R.parCircuitsOpen 0) < rfld (sRun openR) (R.parCircuitQuota 0) 7 0 ∧ circuitNow (sRun openR) 4 (rOf openR |>.peerStr 20) = none
    ∧ badOut 29 = false ∧ freeCircuit (sRun openR) = some 0
    ∧ after (exec (.openCircuit 20 0) (sRun openR)) (fun t => (str t 20).runs == [] && rdN t (R.circuitTbl 0) == 2 ^ 31 + 4 * 2 ^ 22 + 20 * 2 ^ 14 + 29 * 2 ^ 9 + 40) = true
    ∧ sOpened.Ready ∧ circuitNow sOpened 4 ((rOf closeR).peerStr 20) = some 7 ∧ rfld sOpened (R.circuitTbl 7) 30 27 = 0
    ∧ after (exec (.closeCircuit 20 0) sOpened) (fun t => (str t 20).runs == [] && rd t (R.circuitTbl 7) == 0) = true := by decide +kernel

def rFirst : Run := { rOf { opcode := 12 } with rid := 0, idx := 1 }
def sBehind (op : Nat) : State := { sRun { opcode := op } with streams := [(20, { st := .running, runs := [rFirst, rOf { opcode := op }] })] }

theorem witness_StepsWithoutData_wait :
    runAt (sBehind 11) 20 0 = some (rOf { opcode := 11 }) ∧ firstRun (sBehind 11) 20 (rOf { opcode := 11 }) = false
    ∧ earlierDone { sRun { opcode := 12 } with tags := [{ tagS .put with stream := 20 }] } 20 = false := by decide +kernel

def sigR : Rec := { opcode := 14, aux := 6 }
def sigB : Rec := { opcode := 14, flags := 0x40, aux := 6 }
def sSig : State := { sPar with signals := [(0, 0x30000, 5)] }

theorem witness_SignalWords :
    (sRun sigR).Ready ∧ (sRun sigR).Quiet ∧ slotOf 0x30000 = ownSlot (sRun sigR) ∧ placeOf (sRun sigR) 0x30000 8 = .store 0x30000
    ∧ windowOk (rOf sigR).win 0x30000 8 .write false = true ∧ (rOf sigR).kind ≠ 4 ∧ acting (sRun sigR) (rOf sigR) = true
    ∧ after (exec (.signal 20 0 []) (sRun sigR)) (fun t => stgRead t 0x30000 8 == bytesLE 8 (3 + 6 * 2 ^ 32 + 2 ^ 57)) = true
    ∧ (rOf sigB).kind = 4 ∧ (rOf sigB).slot = ownSlot (sRun sigB) ∧ badShape true (withSlot 0x40000 0) 4 = false
    ∧ windowOk (rOf sigB).win 0x40000 4 .atomic false = true ∧ isolated (sRun sigB) 20 = false
    ∧ after (exec (.signal 20 0 []) (sRun sigB)) (fun t => stgRead t 0x40000 4 == bytesLE 4 6) = true
    ∧ sSig.Ready ∧ sSig.signals.find? (fun e => e.1 == 0) = some (0, 0x30000, 5) ∧ windowOk (winsOf sSig 0) 0x30000 8 .write false = true
    ∧ after (exec (.signalWordWrite 0) sSig) (fun t => t.signals == [] && stgRead t 0x30000 8 == bytesLE 8 5) = true := by decide +kernel

/-! ### Data steps -/

/-- Stream 20 of partition 0 runs `r`; buffers 0–2 lie at 0x100000, 0x200000 and 0x500000 of the store, whose byte 0x100000 is 5; engine 6
is reached by port 29. -/
def xWork (r : Run) : Stream := { st := .running, reserve := 16, runs := [r], req := { buf := [0x100000, 0x200000, 0x500000, 0] } }
def sWork (r : Run) : State := { wr (R.routeTbl 0 6) 0x8000001D sPar with
  ports := [(4, { st := .active }), (29, { st := .active })], streams := [(20, xWork r)], stg := [(0x100000, 5)], t := { ticks := 9, mtc := 9 } }
def rRecv : Run := { rOf { opcode := 2, buf := 4, length := 1 } with poss := [{ j := 0, taken := [{ rank := 0, count := 1, elements := 1, data := [7, 8] }] }] }
def rComb : Run := { rOf { opcode := 3, buf := 4, length := 1 } with poss := [{ j := 0, outs := some [([7, 8], 1)] }] }
def rCopy : Run := rOf { opcode := 5, buf := 4, length := 1 }
def readOk (s : State) (r : Run) (a : Nat) (n : Nat) : Bool :=
  match localRead (some 20) r.win 0 a n [] s with
  | (s1, .ok b) => s1 == s && b.length == n
  | _ => false

theorem witness_WritingBuffers :
    (sWork rRecv).Ready ∧ (sWork rRecv).Quiet ∧ runAt (sWork rRecv) 20 0 = some rRecv ∧ acting (sWork rRecv) rRecv = true
    ∧ outAddr (sWork rRecv) 20 rRecv 0 = 0x200000 ∧ placeOf (sWork rRecv) 0x200000 2 = .store 0x200000 ∧ windowOk rRecv.win 0x200000 2 .write false = true
    ∧ after (exec (.recv 20 0) (sWork rRecv)) (fun t => stgGet t 0x200000 == 7 && stgGet t 0x200001 == 8) = true
    ∧ (sWork rComb).Ready ∧ eOut (sWork rComb) rComb ≤ eIn (sWork rComb) rComb ∧ outAddr (sWork rComb) 20 rComb (firstOut (sWork rComb) rComb 0) = 0x200000
    ∧ after (exec (.recvCombine 20 0) (sWork rComb)) (fun t => stgGet t 0x200000 == 7) = true
    ∧ (sWork rCopy).Ready ∧ gated (sWork rCopy) 20 1 0x100000 = false ∧ inAddr (sWork rCopy) 20 rCopy 0 = 0x100000
    ∧ readOk (sWork rCopy) rCopy 0x100000 4096 = true ∧ placeOf (sWork rCopy) 0x200000 4096 = .store 0x200000
    ∧ after (exec (.copy 20 0 []) (sWork rCopy)) (fun t => stgGet t 0x200000 == 5 && stgGet t 0x200001 == 0) = true := by decide +kernel

/-- NARROW from binary32 to format 1, WIDEN back. -/
def rNarrow : Run := rOf { opcode := 6, buf := 4, length := 2, fmt := 0x10 }
def rWiden : Run := rOf { opcode := 7, buf := 4, length := 1, fmt := 0x01 }
def rAdd : Run := { rOf { opcode := 3, buf := 4, length := 1 } with
  poss := [{ j := 0, comb := some 0, blk := true, taken := [{ rank := 1, count := 1, elements := 1, data := [] }] }] }
def rConv : Run := { rNarrow with done := 2, poss := [{ j := 0, loc := some ([0, 0, 0x80, 0x3F], 1) }, { j := 1, loc := some ([], 1) }] }

theorem witness_Combiners :
    (sWork rNarrow).Ready ∧ (sWork rNarrow).Quiet ∧ gated (sWork rNarrow) 20 1 0x100000 = false ∧ readOk (sWork rNarrow) rNarrow 0x100000 4096 = true
    ∧ after (exec (.narrow 20 0 []) (sWork rNarrow)) (fun t => (str t 20).runs.map (fun r => (r.done, r.poss.length)) == [(1, 1)]) = true
    ∧ readOk (sWork rWiden) rWiden 0x100000 4096 = true
    ∧ after (exec (.widen 20 0 []) (sWork rWiden)) (fun t => (str t 20).runs.map (fun r => (r.done, r.poss.length)) == [(1, 1)]) = true
    ∧ (sWork rAdd).Ready ∧ (rAdd.pos 0).isSome = true ∧ (rAdd.poss.all (fun p => orderReady rAdd p 1 && p.taken.any (fun c => c.rank == 1 && !c.added))) = true
    ∧ after (exec (.combinerOperation 20 0 0 1 []) (sWork rAdd)) (fun t => (str t 20).runs.all (fun r => r.poss.all (fun p => p.taken.all (fun c => c.added)))) = true := by
  decide +kernel

/-- The first element of the NARROW is 1.0, 0x3F80 in format 1. -/
theorem witness_Combiners_convert :
    (sWork rConv).Ready ∧ (range (firstOut (sWork rConv) rConv 1) (endOut (sWork rConv) rConv 1 - 1)).filter (fun c =>
      !rConv.acked.contains c && (posesOf (sWork rConv) rConv c).all (fun i => decide (i ≤ 1) && (rConv.pos i).isSome)) = [0]
    ∧ (convertChunk (sWork rConv) rConv 0 0).bytes.length = 4096 ∧ outAddr (sWork rConv) 20 rConv 0 = 0x200000
    ∧ after (exec (.combinerOperation 20 0 1 0 []) (sWork rConv)) (fun t => stgGet t 0x200000 == 0x80 && stgGet t 0x200001 == 0x3F && stgGet t 0x200002 == 0) = true := by
  decide +kernel

/-- An update block: scale, rate and epsilon 1, betas one half, step 1. -/
def ub60 : List Byte := bytesLE 4 0x3F800000 ++ bytesLE 4 0x3F800000 ++ bytesLE 4 0x3F000000 ++ bytesLE 4 0x3F000000 ++ bytesLE 4 0x3F800000 ++ bytesLE 4 0
  ++ bytesLE 4 1 ++ [0, 0, 0, 0] ++ bytesLE 6 0x300000 ++ bytesLE 6 0x400000 ++ List.replicate 16 0
def ubB : List Byte := ub60 ++ bytesLE 4 (crc32c ub60)
def rShard (ub : Option (List Byte)) (q : List SChunk) : Run := { rOf { opcode := 13, buf := 4, length := 1, aux := 2, fmt := 0x10 } with ub := ub, shards := q, nextShard := q.length }
def sShard (b : List Byte) (ub : Option (List Byte)) (q : List SChunk) : State := { sWork (rShard ub q) with stg := stgOf 0x500000 b }

theorem witness_Combiners_shard :
    (sShard ubB (some ubB) [{ j := 0 }]).Ready ∧ ubSkip ubB = false ∧ (rShard (some ubB) [{ j := 0 }]).op = 13
    ∧ runAt (sShard ubB (some ubB) [{ j := 0 }]) 20 0 = some (rShard (some ubB) [{ j := 0 }]) := by decide +kernel

theorem witness_ShardUpdates :
    (sShard ubB none []).Ready ∧ readOk (sShard ubB none []) (rShard none []) 0x500000 64 = true ∧ stgRead (sShard ubB none []) 0x500000 64 = ubB
    ∧ ubOk ubB = true ∧ constsOk (constsOf ubB) = true
    ∧ (rangesTest (some 20) (rShard none []).win 0 (shardRanges (sShard ubB none []) 20 (rShard none []) ubB) (sShard ubB none [])).2 = none
    ∧ after (exec (.updateBlockRead 20 0 []) (sShard ubB none [])) (fun t => (runOf t 20 1).bind (fun q => q.ub) == some ubB) = true
    ∧ ubOk (0 :: ubB) = false ∧ stgRead (sShard (0 :: ubB) none []) 0x500000 64 = (0 :: ubB).take 64 ∧ ubOk ((0 :: ubB).take 64) = false
    ∧ after (exec (.updateBlockRead 20 0 []) (sShard (0 :: ubB) none [])) (fun t => (str t 20).runs == []) = true := by decide +kernel
def rSend : Run := { rOf { opcode := 1, length := 2 } with peerId := 6 }
def leg6 : Leg := { step := 0, rid := 1, dest := 6, rank := 0, str := 20, len := 1 }
def sLeg : State := { sNet with streams := [(20, { st := .running, legs := [leg6] })] }

/-- No read of these states is held for the package: all lie in the store. -/
theorem witness_ReadsNotHeld :
    readHeld (sWork rCopy) (some 20) 0x100000 4096 = false ∧ readHeld (sWork rNarrow) (some 20) 0x100000 4096 = false
    ∧ readHeld (sWork rWiden) (some 20) 0x100000 4096 = false ∧ readHeld (sWork rSend) (some 20) 0x100000 4096 = false
    ∧ readHeld (sShard ubB none []) (some 20) 0x500000 64 = false ∧ readHeld (sShard (0 :: ubB) none []) (some 20) 0x500000 64 = false
    ∧ readHeld (sShard ubB (some ubB) []) (some 20) 0x100000 4096 = false ∧ readHeld (sShard ubB (some ubB) []) (some 20) 0x300000 4096 = false
    ∧ readHeld (sShard ubB (some ubB) []) (some 20) 0x400000 2112 = false ∧ leadCount 1 [] = 0 ∧ (str sLeg 20).gaps = [] := by decide +kernel

/-- A computed chunk, its writes all in the store. -/
def sShd : State := sShard ubB (some ubB) [{ j := 0, computed := true }]
def rShd : Run := rShard (some ubB) [{ j := 0, computed := true }]

theorem witness_ShardUpdates_done :
    sShd.Ready ∧ runAt sShd 20 0 = some rShd ∧ ubSkip ubB = false ∧ eIn sShd rShd = 1024
    ∧ 0 < perChunk (fmtAt sShd 1) ∧ (fmtAt sShd 1).width * perChunk (fmtAt sShd 1) ≤ 32768 ∧ (fmtAt sShd 1).scale = false
    ∧ placeOf sShd (offOf (momentAddr rShd ubB 0)) 0 = .store 0x400000 ∧ placeOf sShd (offOf (masterAddr rShd ubB 0)) 0 = .store 0x300000
    ∧ outAddr sShd 20 rShd 0 = 0x200000 ∧ firstOut sShd rShd 0 = 0 ∧ endOut sShd rShd 0 = 1 ∧ sShd.txns = []
    ∧ rShd.rc.outOff = 0 ∧ rShd.rc.outFmt = 1 ∧ leadCount 1 [0] = 1
    ∧ after (exec (.shardUpdate 20 0) sShd) (fun t => rdN t (R.strShdDone 20) == 1 && t.txns == []) = true := by decide +kernel

/-- Every part of the chunk's place in the output buffer lies in the store. -/
theorem witness_ShardUpdates_place (b n : Nat) (h : b + n ≤ 4096) :
    ∃ o, placeOf sShd (offOf (outAddr sShd 20 rShd (rShd.rc.outOff + 0) + b)) n = .store o := by
  have h1 : outAddr sShd 20 rShd (rShd.rc.outOff + 0) = 0x200000 := by decide +kernel
  have h2 : stageBase sShd = 0 := by decide +kernel
  refine ⟨0x200000 + b, ?_⟩
  have h3 : offOf (0x200000 + b) = 0x200000 + b := by unfold offOf; omega
  have h4 : 0 ≤ 0x200000 + b ∧ 0x200000 + b + n ≤ 0 + storeSize := by simp only [storeSize]; omega
  unfold placeOf
  rw [h1, h3, h2, if_pos h4, Nat.sub_zero]

theorem witness_ShardUpdates_chunk :
    (sShard ubB (some ubB) []).Ready ∧ gated (sShard ubB (some ubB) []) 20 1 0x100000 = false ∧ 3 ≤ blocksFree (sShard ubB (some ubB) []) 20
    ∧ pickCombiner (sShard ubB (some ubB) []) 1 = some 0 ∧ readOk (sShard ubB (some ubB) []) (rShard (some ubB) []) 0x100000 4096 = true
    ∧ masterAddr (rShard (some ubB) []) ubB 0 = 0x300000 ∧ momentAddr (rShard (some ubB) []) ubB 0 = 0x400000
    ∧ readOk (sShard ubB (some ubB) []) (rShard (some ubB) []) 0x300000 4096 = true
    ∧ after (exec (.shardChunkBegin 20 0 [] [] []) (sShard ubB (some ubB) [])) (fun t => (str t 20).inUse == 3
        && (runOf t 20 1).map (fun q => q.shards.length) == some 1) = true
    ∧ after (exec (.shardUpdate 20 0) (sShard ubB (some ubB) [{ j := 0, computed := true }])) (fun t =>
        match runOf t 20 1 with | some r => r.shards.all (fun p => p.written) | none => true) = true := by decide +kernel

def rCSend : Run := { rOf { opcode := 4, length := 2 } with peerId := 6, poss := [{ j := 0, outs := some [([1], 1)] }] }
def rPut : Run := { rBrd with rc := { opcode := 1, flags := 0x40, length := 1 } }

theorem witness_SendingLegs :
    (sWork rSend).Ready ∧ (legsReady 20 rSend (makeLegs 20 rSend (sWork rSend))).2 = true ∧ (legsReady 20 rSend (makeLegs 20 rSend (sWork rSend))).1.Quiet
    ∧ readOk (legsReady 20 rSend (makeLegs 20 rSend (sWork rSend))).1 rSend 0x100000 4096 = true
    ∧ (sWork rCSend).Ready ∧ (legsReady 20 rCSend (makeLegs 20 rCSend (sWork rCSend))).2 = true
    ∧ sLeg.Ready ∧ after (exec (.legStart 20 6) sLeg) (fun t => (str t 20).legs == [{ leg6 with started := true }]) = true
    ∧ runAt sBrd 20 0 = some rBrd ∧ after (exec (.recv 20 0) sBrd) (fun t => t.tags.length == 1) = true
    ∧ after (exec (.send 20 0 []) { sBrd with streams := [(20, { st := .running, runs := [rPut] })] }) (fun t => t.tags.length == 1) = true := by
  decide +kernel

def out0 : LegChunk := { seq := 0, sealP := [], check := 0, data := [1], due := some 5, limit := some 1000 }
def leg9 (o : LegChunk) : Leg := { leg6 with dest := 9, out := [o], sent := 1, started := true }
def sOut (o : LegChunk) : State := { sNet with streams := [(20, { st := .running, legs := [leg9 o], runs := [rSend] })], t := { ticks := 9 } }
def rcptB : List Byte := cellWire (mkCell 5 9 2 3 20 0 0 (pad64 []))

theorem witness_Retransmission :
    (sOut out0).Ready ∧ (deliveredCell 4 rcptB sNet).isSome = true ∧ wType (parseCell rcptB) = 3 ∧ receiptFor (arrive 4 rcptB sNet).1 (parseCell rcptB) = none
    ∧ after (exec (.receipt 4 rcptB []) sNet) (fun t => rdN t R.strStaleReceiptCount == 1) = true
    ∧ receiptFor (arrive 4 rcptB (sOut out0)).1 (parseCell rcptB) = some (leg9 out0, out0) ∧ fieldBE (parseCell rcptB).payload 0 4 = out0.check
    ∧ after (exec (.receipt 4 rcptB []) (sOut out0)) (fun t => (str t 20).legs.all (fun g => g.out.isEmpty)) = true
    ∧ chunkAt (sOut out0) 20 9 0 = some (leg9 out0, out0) ∧ (sOut out0).Quiet ∧ timeUp (sOut out0) out0.due = true ∧ timeUp (sOut out0) out0.limit = false
    ∧ timeUp (sOut { out0 with limit := some 9 }) (some 9) = true
    ∧ after (exec (.retxExhausted 20 9 0) (sOut { out0 with limit := some 9 })) (fun t => (str t 20).runs == [] && (str t 20).legs == []) = true := by decide +kernel

def rSlot (q : List SChunk) : Run := { rOf { opcode := 3, length := 1 } with poss := [{ j := 0, slotWait := true }], shards := q }
def full4 : List SChunk := (List.range 256).map (fun i => { j := i, comb := i % 4 })
def rBlk : Run := { rOf { opcode := 3, length := 1 } with poss := [{ j := 0 }], blockWait := some (9, false) }
/-- A SHARD_UPDATE that waits for its three blocks; no block is left. -/
def rBlkS : Run := { rOf { opcode := 13, length := 1 } with poss := [{ j := 0 }], blockWait := some (9, false) }
def sNoB (r : Run) : State := wr (R.parStageQuota 0) 0 { sWork r with streams := [(20, { xWork r with reserve := 0 })] }

theorem witness_WaitingForRoom :
    (sWork (rSlot [])).Ready ∧ str (sWork (rSlot [])) 20 = xWork (rSlot []) ∧ pickCombiner (sWork (rSlot [])) (slotNeed (sWork (rSlot [])) (rSlot [])) = some 0
    ∧ after (exec .slotGrant (sWork (rSlot []))) (fun t => (str t 20).runs.all (fun r => r.poss.all (fun p => p.comb == some 0))) = true
    ∧ pickCombiner (sWork (rSlot full4)) (slotNeed (sWork (rSlot full4)) (rSlot full4)) = none
    ∧ after (exec .slotGrant (sWork (rSlot full4))) (fun t => t.regs == (sWork (rSlot full4)).regs) = true
    ∧ (sWork (rSlot full4)).pending = [] ∧ (sWork (rSlot full4)).waits = []
    ∧ after (step (sWork (rSlot full4))) (fun t => rdN t R.cmbSlotWaitCount == 1 && rbit t R.cmbEvents 4) = true
    ∧ (sWork rBlk).Ready ∧ rBlk.combines = true ∧ blockFor (sWork rBlk) 20 = true
    ∧ after (exec (.stagingBlockGrant 20 0) (sWork rBlk)) (fun t => (str t 20).inUse == 1 && (str t 20).runs.all (fun r => r.poss.all (fun p => p.blk))) = true
    ∧ blockOver (sWork rBlk) rBlk = true ∧ (xWork rBlk).st = .running ∧ (xWork rBlk).finished = false
    ∧ rBlk.poss.all (fun p => !p.blk && p.outs.isNone) = true ∧ blockFor (sNoB rBlk) 20 = false ∧ blockOver (sNoB rBlk) rBlk = true
    ∧ after (exec (.stagingQuotaTimeout 20 0) (sNoB rBlk)) (fun t => (str t 20).runs == []) = true
    ∧ blocksFree (sNoB rBlkS) 20 < 3 ∧ blockOver (sNoB rBlkS) rBlkS = true ∧ rBlkS.op = 13
    ∧ after (exec (.stagingQuotaTimeout 20 0) (sNoB rBlkS)) (fun t => (str t 20).runs == []) = true := by decide +kernel

/-! ### CTRL cells -/

def ctrl60 (op count addr data : Nat) : List Byte :=
  bytesLE 8 0 ++ bytesLE 2 op ++ bytesBE 2 77 ++ [0, BitVec.ofNat 8 count, 0, 0] ++ bytesLE 8 0 ++ bytesBE 4 addr ++ bytesBE 4 data ++ List.replicate 28 0
/-- A CTRL cell from engine 9, tag 77. -/
def ctrlB (op count addr data : Nat) : List Byte := cellWire (mkCell 5 9 2 9 0 0 0 (ctrl60 op count addr data ++ bytesBE 4 (crc32c (ctrl60 op count addr data))))
def ctrlBad : List Byte := cellWire (mkCell 5 9 2 9 0 0 0 (ctrl60 1 1 0 0 ++ [1, 2, 3, 4]))
/-- Engine 9, reached by port 29, is the manager, or is not. -/
def sCtrl (m : Word) : State := wr (R.routeTbl 0 9) 0x8000001D (wr R.glbMgrId m sNet)
def entC : CacheEnt := { src := 9, tag := 77, at_ := 0, cell := mkCell 9 5 2 9 0 0 0 (pad64 [7]) }
def sCache : State := { sCtrl 9 with mgr := { cache := [entC] } }

theorem witness_CtrlRequests :
    (sCtrl 9).Ready ∧ (deliveredCell 4 ctrlBad (sCtrl 9)).isSome = true ∧ payloadOk (parseCell ctrlBad) = false ∧ ctrlOp (parseCell ctrlBad) = 1
    ∧ after (exec (.regRead 4 ctrlBad) (sCtrl 9)) (fun t => rdN t R.glbCtrlBadCount == 1 && rbit t R.glbCtrlEvents 2) = true
    ∧ (deliveredCell 4 (ctrlB 5 1 0 6) (sCtrl 9)).isSome = true ∧ payloadOk (parseCell (ctrlB 5 1 0 6)) = true ∧ ctrlOp (parseCell (ctrlB 5 1 0 6)) = 5
    ∧ after (exec (.echo 4 (ctrlB 5 1 0 6)) (sCtrl 9)) (fun t => t.mgr.cache == [] && (port t 29).qVc2.map (fun c => (ctrlOp c, ctrlWord c 0)) == [(6, 6)]) = true
    ∧ (deliveredCell 4 (ctrlB 1 1 0 0) sCache).isSome = true ∧ payloadOk (parseCell (ctrlB 1 1 0 0)) = true ∧ wType (parseCell (ctrlB 1 1 0 0)) = 9
    ∧ (arrive 4 (ctrlB 1 1 0 0) sCache).1.mgr.cache.find? (fun e => e.src == 9 && e.tag == 77) = some entC ∧ ctrlTag (parseCell (ctrlB 1 1 0 0)) = 77
    ∧ after (exec (.regRead 4 (ctrlB 1 1 0 0)) sCache) (fun t => (port t 29).qVc2 == [rspAgain (arrive 4 (ctrlB 1 1 0 0) sCache).1 (parseCell (ctrlB 1 1 0 0)) entC]) = true
    ∧ trusted (arrive 4 (ctrlB 1 1 0 0) (sCtrl 8)).1 4 (parseCell (ctrlB 1 1 0 0)) = false
    ∧ after (exec (.regRead 4 (ctrlB 1 1 0 0)) (sCtrl 8)) (fun t => rbit t R.glbCtrlEvents 3 && t.mgr.cache.length == 1) = true := by decide +kernel

theorem witness_CtrlRequests_run :
    trusted (arrive 4 (ctrlB 1 1 0 0) (sCtrl 9)).1 4 (parseCell (ctrlB 1 1 0 0)) = true ∧ ctrlCount (parseCell (ctrlB 1 1 0 0)) = 1
    ∧ ctrlAddr (parseCell (ctrlB 1 1 R.glbEngineId 0)) = R.glbEngineId
    ∧ after (exec (.regRead 4 (ctrlB 1 1 R.glbEngineId 0)) (sCtrl 9)) (fun t => (port t 29).qVc2.map (fun c => (ctrlOp c, ctrlWord c 0)) == [(3, 5)]) = true
    ∧ ctrlOp (parseCell (ctrlB 2 1 0x24 9)) = 2 ∧ trusted (arrive 4 (ctrlB 2 1 0x24 9) (sCtrl 9)).1 4 (parseCell (ctrlB 2 1 0x24 9)) = true
    ∧ (ctrlWrites 0x24 [9] (arrive 4 (ctrlB 2 1 0x24 9) (sCtrl 9)).1).1.mgr.cache = [] ∧ (ctrlWrites 0x24 [9] (arrive 4 (ctrlB 2 1 0x24 9) (sCtrl 9)).1).2.2 = []
    ∧ trusted (arrive 4 (ctrlB 2 1 (R.prtReset 4) 1) (sCtrl 9)).1 4 (parseCell (ctrlB 2 1 (R.prtReset 4) 1)) = true
    ∧ (ctrlWrites (R.prtReset 4) [1] (arrive 4 (ctrlB 2 1 (R.prtReset 4) 1) (sCtrl 9)).1).2.2 = [4]
    ∧ after (exec (.regWrite 4 (ctrlB 2 1 (R.prtReset 4) 1)) (sCtrl 9)) (fun t => (port t 4).st == .down && (port t 29).qVc2.length == 1) = true
    ∧ after (exec (.regWrite 4 (ctrlB 2 1 0x24 9)) (sCtrl 9)) (fun t => rdN t 0x24 == 9 && t.mgr.cache.length == 1) = true := by decide +kernel

def sRxFull : State := wr R.glbCtrlRxHead 8 (sCtrl 9)
/-- The cell last sent still waits in a queue. -/
def sSent (ctl : Bool) : State :=
  { sNet with ports := [(29, { st := .active, qVc2 := [entC.cell] })], mgr := if ctl then { ctrlSent := some entC.cell } else { svySent := some entC.cell } }
/-- GLB_CTRL_TX holds an explicit path by port 29. -/
def sTx : State := wr (R.glbCtrlTx 0) 0x811D0000 sNet

theorem witness_CtrlResponsesAndSends :
    (deliveredCell 4 (ctrlB 3 1 0 6) (sCtrl 9)).isSome = true ∧ payloadOk (parseCell (ctrlB 3 1 0 6)) = true ∧ ctrlOp (parseCell (ctrlB 4 1 0 6)) = 4
    ∧ after (exec (.readRsp 4 (ctrlB 3 1 0 6)) (sCtrl 9)) (fun t => rdN t R.glbCtrlRxHead == 1 && rdN t (R.glbCtrlRx 0 16) == 9 && rdN t (R.glbCtrlRx 0 7) == 6) = true
    ∧ after (exec (.writeRsp 4 (ctrlB 4 1 0 6)) (sCtrl 9)) (fun t => rdN t R.glbCtrlRxHead == 1) = true
    ∧ after (exec (.echoRsp 4 (ctrlB 6 1 0 6)) (sCtrl 9)) (fun t => rdN t R.glbCtrlRxHead == 1) = true
    ∧ sRxFull.Ready ∧ (rd sRxFull R.glbCtrlRxHead - rd sRxFull R.glbCtrlRxTail).toNat = 8
    ∧ after (exec (.readRsp 4 (ctrlB 3 1 0 6)) sRxFull) (fun t => rbit t R.glbCtrlEvents 1 && rdN t R.glbCtrlRxHead == 8) = true
    ∧ (sSent true).Ready ∧ sendPending (sSent true) (sSent true).mgr.ctrlSent = true ∧ after (exec .ctrlSend (sSent true)) (fun t => rbit t R.glbCtrlEvents 0) = true
    ∧ sendPending (sSent false) (sSent false).mgr.svySent = true ∧ after (exec .surveySend (sSent false)) (fun t => rbit t R.telSvyEvents 0) = true
    ∧ sendPending sTx sTx.mgr.ctrlSent = false
    ∧ isExplicit (mkCell 0 5 2 9 0 0 0 (txPayload sTx (R.glbCtrlTx 0))) = true
    ∧ after (exec .ctrlSend sTx) (fun t => (port t 29).qVc2.length == 1 && t.mgr.ctrlSent.isSome) = true
    ∧ after (exec .surveySend sTx) (fun t => t.mgr.svySent.isSome) = true
    ∧ after (exec .replayCacheExpire { sCache with t := { ticks := 4 * retxWait sCache } }) (fun t => t.mgr.cache == []) = true := by decide +kernel

/-! ### Resets -/

def sSoft (reload : Bool) : State := { eng with rst := { cold := false, pin := false, soft := [(9, 2, reload)] }, t := { ticks := 9, mtc := 9 }, boot := { entered5 := true }, stg := [(0, 5)], flash := [(0, 5)] }
/-- WARM# was asserted on tick 0 and still is. -/
def sWarm (n : Nat) : State := { wr R.glbBootStatus 0xC000 eng with rst := { cold := false, pin := false, warmPin := true, warmAt := some 0, prog := true }, t := { ticks := n } }

theorem witness_WarmResetsAndReloads :
    eng.Ready ∧ after (exec (.warm .mgt) eng) (fun t => t.rst.soft == [(1024, 2, false)]) = true
    ∧ after (exec (.reload .ctrl) eng) (fun t => t.rst.soft == [(1024, 5, true)]) = true
    ∧ (sSoft false).Ready ∧ softDue (sSoft false) false = some (9, 2, false) ∧ (sSoft false).rst.prog = false
    ∧ after (exec .warmReset (sSoft false)) (fun t => incarnation t == 1 && rdN t R.glbResetCause == 2 && t.t.mtc == 0 && t.stg == [(0, 5)] && !rbit t R.mtcStatus 0) = true
    ∧ (sSoft true).Ready ∧ softDue (sSoft true) true = some (9, 2, true)
    ∧ after (exec .reloadStart (sSoft true)) (fun t => incarnation t == 1 && rdN t R.glbResetCause == 2 && t.ep.closed && t.flash == [(0, 5)]) = true
    ∧ softDue eng false = none ∧ softDue eng true = none
    ∧ after (exec (.warmPinAssert 160) eng) (fun t => t.rst.warmPin && rfld t R.glbResetCause 3 0 == 1 && bootStep t == 0) = true
    ∧ after (exec (.warmPinAssert 15) eng) (fun t => t == eng) = true
    ∧ (sWarm 16383).Ready ∧ after (exec .warmPinRelease (sWarm 16383)) (fun t => !t.rst.warmPin && t.rst.prog) = true
    ∧ (sWarm 16384).Ready ∧ bootStep (sWarm 16384) = 0 ∧ rbit (sWarm 16384) R.glbTemp 12 = false
    ∧ after (exec .warmPinRelease (sWarm 16384)) (fun t => !t.rst.prog && decide (5 ≤ bootStep t)) = true
    ∧ after (exec .rootPllLoss eng) (fun t => rfld t R.glbResetCause 3 0 == 6 && !rbit t R.clkStatus 0) = true := by decide +kernel

def sCold (p e : Bool) : State := { wbitAt R.clkStatus 0 true State.reset with rst := { cold := true, pin := p, ended := e }, t := { ticks := 16000 } }
def sHot : State := wr R.glbTempWarn 700 eng

theorem witness_ColdResetAndPins :
    eng.writes = [] ∧ after (exec (.porst 160) { eng with flash := [(0, 5)] }) (fun t => t.rst.cold && t.rst.pin && t.flash == [(0, 5)]) = true
    ∧ after (exec (.porst 15) eng) (fun t => t == eng) = true
    ∧ after (exec (.supplyDip 160 true) (wr R.glbTemp 0x1000 eng)) (fun t => t.rst.cold && t.rst.dip && !rbit t R.glbTemp 12) = true
    ∧ after (exec (.supplyDip 160 false) (wr R.glbTemp 0x1000 eng)) (fun t => rbit t R.glbTemp 12) = true
    ∧ after (exec .coldResetEnd (sCold true false)) (fun t => t.rst.ended && t.rst.cold) = true
    ∧ jtagHolds (sCold true true).rst.jtag = false ∧ rbit (sCold true true) R.clkStatus 0 = true ∧ rbit (sCold true true) R.glbTemp 12 = false
    ∧ after (exec (.porstRelease 21) (sCold true true)) (fun t => !t.rst.cold) = true
    ∧ after (exec (.pllLock true) State.reset) (fun t => rbit t R.clkStatus 0 && !rbit t R.clkStatus 1 && rbit t R.clkStatus 2) = true
    ∧ jtagHolds 4 = true ∧ jtagHolds eng.rst.jtag = false ∧ after (exec (.instructionUpdate 4) eng) (fun t => t.rst.cold && t.rst.jtag == 4) = true
    ∧ after (exec .tapReset eng) (fun t => t.rst.jtag == 1) = true
    ∧ sHot.rst.cold = false ∧ rfld sHot R.glbTempWarn 11 0 ≤ 715
    ∧ after (exec (.thermalSample 715 7) sHot) (fun t => rfld t R.glbTemp 11 0 == 715 && rfld t R.glbTemp 18 16 == 7 && rbit t R.glbPwrEvents 0 && t.out == []) = true
    ∧ rbit sHot R.glbTemp 12 = false
    ∧ after (exec (.thermalSample 716 0) sHot) (fun t => rbit t R.glbTemp 12 && t.out == [.thermtrip] && rfld t R.glbResetCause 3 0 == 7) = true := by decide +kernel

def sQuench : State := { sPar with streams := [(20, { st := .quenching })] }

theorem witness_QuenchAndResets :
    (sWork rCopy).Ready ∧ (str (sWork rCopy) 20).st = .running ∧ (sWork rCopy).replay = none
    ∧ after (exec (.quench 20) (sWork rCopy)) (fun t => (str t 20).runs == [] && ((str t 20).st == .quenching || (str t 20).st == .idle)) = true
    ∧ (str eng 20).st = .idle ∧ sQuench.Ready ∧ quenchDue sQuench 20 = true
    ∧ after (exec (.quenchComplete 20) sQuench) (fun t => (str t 20).st == .idle) = true ∧ quenchDue eng 20 = false
    ∧ (∀ k ∈ strsOf sTake1 0, (str sTake1 k).st = .idle) ∧ (par sTake1 0).starting = none ∧ (par sTake1 0).anneal = []
    ∧ (∀ i < 128, rbit sTake1 (R.circuitTbl i) 31 = false)
    ∧ after (exec (.partitionReset 0 true) sTake1) (fun t => rbit t (R.parReset 0) 8 && rdN t (R.parReqHead 0) == 1) = true
    ∧ after (exec (.partitionReset 0 false) sTake1) (fun t => rdN t (R.parReqHead 0) == 0) = true
    ∧ after (exec (.portReset 29) sNet) (fun t => (port t 29).st == .down && (port t 29).reason == 1) = true := by decide +kernel

/-! ### Boot and flash -/

def flOf (a : Nat) (b : List Byte) : List Host.Cell := cellsFrom 0xFF a b
/-- An engine at boot step `n`, with a flash. -/
def sBoot (n : Word) (fl : List Host.Cell) : State :=
  { wr R.glbBootStatus (0xC000 + n) (wr R.mtcMode 0 eng) with flash := fl, ep := { closed := true } }
/-- A boot descriptor with the journal (2) or without it (0). -/
def desc60 (j : Nat) : List Byte := bytesLE 4 0x44424B48 ++ [1, BitVec.ofNat 8 j, 0, 0, 0, 0, 3, 0, 0, 1, 0, 0] ++ List.replicate 16 0
  ++ [6, 0x12, 0xDC, 16, 5, 8, 0, 0, 1, 0, 1, 0] ++ List.replicate 16 0
def descOk1 (j : Nat) : List Byte := desc60 j ++ bytesLE 4 (crc32c (desc60 j))
def noSfdp : Sfdp := { sig := false, four := false, table := false, r114 := false, r112 := false, r111 := false, d114 := 0, d112 := 0 }
def sScan : State := { wr R.jnlStatus 1 (sBoot 3 []) with boot := { desc := { deflt := false, eraseLog := 20 } } }
/-- A body of one empty section; an image header of sequence 1, length 272 and body check `chk`, with its own check, and its commit word. -/
def body16 : List Byte := 1 :: List.replicate 15 0
def imgFl (base chk own : Nat) : List Host.Cell :=
  flOf (base + 0x2000) (bytesLE 4 0x4D494B48 ++ bytesLE 2 1 ++ bytesLE 2 256 ++ bytesLE 4 1 ++ bytesLE 4 272 ++ bytesLE 4 chk ++ bytesLE 4 0
    ++ bytesLE 4 1330530311 ++ List.replicate 224 0 ++ bytesLE 4 own ++ body16) ++ flOf (base + 0xFFFFFC) (bytesLE 4 0xA5A55A5B)
/-- The header with the body check 0, and with the right one. -/
def imgBad (base : Nat) : List Host.Cell := imgFl base 0 980316071
def imgGood : List Host.Cell := imgFl 0 2960955156 1375323956
def sSlotA : State := sBoot 4 (imgBad 0)
def sSlotAB : State := sBoot 4 (imgBad 0 ++ imgBad 0x1000000)

theorem witness_BootReads :
    (sBoot 2 []).Ready ∧ bootPort (sBoot 2 []) = true ∧ bootStep (sBoot 2 []) = 2 ∧ descValid (strapLanes (sBoot 2 [])) (flashRead (sBoot 2 []) 0 64) = false
    ∧ after (exec (.bootDescriptorRead noSfdp) (sBoot 2 [])) (fun t => rbit t R.glbBootStatus 7 && bootStep t == 4 && rdN t R.nvmReadCmd == 0x13) = true
    ∧ descValid 1 (flashRead (sBoot 2 (flOf 0 (descOk1 0))) 0 64) = true ∧ descValid 1 (flashRead (sBoot 2 (flOf 0 (descOk1 0))) 0x1000 64) = false
    ∧ after (exec (.bootDescriptorRead noSfdp) (sBoot 2 (flOf 0 (descOk1 0)))) (fun t => bootStep t == 4 && rdN t R.nvmReadCmd == 3 && t.boot.desc.prog == 0x12) = true
    ∧ descValid 1 (descOk1 2) = true
    ∧ after (exec (.bootDescriptorRead noSfdp) (sBoot 2 (flOf 0 (descOk1 2)))) (fun t => bootStep t == 3 && rbit t R.jnlStatus 0) = true
    ∧ (sBoot 4 []).Ready ∧ bootSrc (sBoot 4 []) ≠ 1 ∧ hostState (sBoot 4 []) = false ∧ slotEmpty (sBoot 4 []) 0 = true ∧ slotEmpty (sBoot 4 []) 1 = true
    ∧ after (exec .slotCheck (sBoot 4 [])) (fun t => rbit t R.glbBootStatus 5 && rbit t R.glbAlertStatus 14 && rfld t R.glbBootStatus 23 16 == 0x0D) = true := by
  decide +kernel

theorem witness_BootReads_slots :
    sSlotA.Ready ∧ slotEmpty sSlotA 0 = false ∧ slotTest sSlotA 0 = none ∧ slotEmpty sSlotA 1 = true
    ∧ slotTest sSlotAB 1 = none ∧ slotBFirst sSlotAB = false
    ∧ sScan.Ready ∧ bootPort sScan = true ∧ journalOn sScan = true ∧ bootStep sScan = 3
    ∧ validSlots sScan ((List.range (sectorCount sScan)).map (fun k => k * slotsPer sScan)) = []
    ∧ after (exec .journalScan sScan) (fun t => bootStep t == 4 && rdN t R.jnlHeadAddr == jnlBase) = true := by decide +kernel

def sLoad (good : Bool) : State := { sBoot 4 (if good then imgGood else imgBad 0) with boot := { cands := some [0] } }
def sHost : State := wr R.glbBootStatus 0xC044 (wr R.mtcMode 0 eng)
def sStep5 : State := { wr R.glbBootStatus 0xC005 eng with boot := { recordOut := some 0 }, t := { ticks := 4194304 } }

theorem witness_BootConfiguration :
    (sLoad false).Ready ∧ loadDue (sLoad false) = some (0, []) ∧ crc32c (flashRead (sLoad false) 0x2100 16) ≠ fieldLE (slotHeader (sLoad false) 0) 16 4
    ∧ after (exec .imageLoad (sLoad false)) (fun t => rbit t R.glbAlertStatus 14 && rbit t R.glbBootStatus 5 && bootStep t == 4) = true
    ∧ (sLoad true).Ready ∧ (sLoad true).Quiet ∧ loadDue (sLoad true) = some (0, [])
    ∧ crc32c (flashRead (sLoad true) 0x2100 16) = fieldLE (slotHeader (sLoad true) 0) 16 4
    ∧ (imageSections 16 0 0x2100 body16 { s := readFrame 0x2100 16 (bootPortFree (readFrame 0x2100 16 (sLoad true))) }).2 = none
    ∧ crossFails (rd (sLoad true)) = [] ∧ (sLoad true).bootPend = []
    ∧ after (exec .imageLoad (sLoad true)) (fun t => decide (5 ≤ bootStep t) && rdN t R.glbImageSeq == 1 && !t.ep.closed) = true
    ∧ sHost.Ready ∧ bootStep sHost = 4 ∧ hostState sHost = true ∧ rfld sHost R.cmbFmtStatus 15 8 = 0
    ∧ crossFails (rd (wr R.mtcMode 2 (wr R.mtcRackRoot 0x1FFF sHost))) ≠ []
    ∧ after (exec .bootContinue (wr R.mtcMode 2 (wr R.mtcRackRoot 0x1FFF sHost))) (fun t => bootStep t == 4 && rbit t R.glbAlertStatus 14) = true
    ∧ crossFails (rd sHost) = [] ∧ after (exec .bootContinue sHost) (fun t => decide (5 ≤ bootStep t) && rfld t R.glbBootStatus 15 14 == 2) = true
    ∧ rfld (wr R.cmbFmtStatus 0x100 sHost) R.cmbFmtStatus 15 8 ≠ 0
    ∧ after (exec .bootContinue (wr R.cmbFmtStatus 0x100 sHost)) (fun t => bootStep t == 4 && hostState t && rbit t R.glbBootStatus 11) = true
    ∧ bootStep eng ≠ 4 ∧ sStep5.Ready ∧ portLimitDue sStep5 = true ∧ after (exec .bootPortLimit sStep5) (fun t => bootStep t == 7) = true := by decide +kernel

def sFl (f : FlashS) : State := { eng with fl := f }
/-- The journal is on, with a record to write at its base. -/
def recJ : JRec := { kind := 2, body := [] }
def sJnl (f : FlashS) : State :=
  { wr R.jnlHeadAddr 0x2000000 (wr R.jnlStatus 1 eng) with
    jq := [recJ], fl := f, boot := { desc := { deflt := false, eraseLog := 16, prog := 2, erase := 0xDC, wren := 6 } }, t := { ticks := 4194304 } }
def rcd64 : List Byte := List.replicate 64 7
def fJ (second : Bool) (busy : Bool) : FlashS := { owner := .journal, busy := busy, second := second, rcd := rcd64, polling := busy }
/-- Sector 1 of the journal is to be erased; a byte of it is programmed. -/
def sErase : State := { sJnl { owner := .journal, erasing := true } with
  flash := [(0x200FFFF, 1), (0x2010000, 2)], boot := { eraseDue := [1], desc := { deflt := false, eraseLog := 16 } } }
/-- The erase of a sector is still busy at its timeout. -/
def sEraseOver : State := { sErase with fl := { owner := .journal, erasing := true, busy := true, polling := true, long := true }, t := { ticks := 1073741824 } }
/-- The sequence GO takes. -/
def goSq (s : State) : SwSeq := { cmd := rd s R.nvmFcmd, addr := rd s R.nvmFaddr, ctrl := rd s R.nvmFctrl }
def sq : SwSeq := { cmd := 0, addr := 0, ctrl := 0 }
/-- One whose frame has been sent and whose status is to be polled; one that receives two bytes. -/
def sqPoll (ended : Bool) : SwSeq := { sq with ctrl := 0x20000, sent := true, ended := ended }
def sqRecv : SwSeq := { sq with ctrl := 2, sent := true }
def sSw (q : SwSeq) : State := { sFl { owner := .software, sw := some q, busy := true } with t := { ticks := 4194304 } }
def jnlPoll : Out := .flash (pollFrame (sJnl {}) false (sJnl {}).boot.desc.status)

theorem witness_FlashPortAndJournal :
    (sBoot 2 []).Quiet ∧ bootReads (sBoot 2 []) = true ∧ after (exec .flashPortServe (sBoot 2 [])) (fun t => t.fl.owner == .boot) = true
    ∧ (sJnl {}).Ready ∧ bootReads (sJnl {}) = false ∧ jnlWaits (sJnl {}) = true ∧ (sJnl {}).boot.eraseDue = []
    ∧ after (exec .flashPortServe (sJnl {})) (fun t => t.fl.owner == .journal && t.fl.rcd == recordBytes (sJnl {}) recJ
        && t.out == jnlUnit (sJnl {}) 2 0x2000000 (slice (recordBytes (sJnl {}) recJ) 0 63)) = true
    ∧ after (exec .flashPortServe (sJnl { second := true, rcd := rcd64 })) (fun t => t.fl.owner == .journal && t.out == jnlUnit (sJnl {}) 2 0x200003F [7]) = true
    ∧ jnlWaits { sErase with fl := {} } = true ∧ after (exec .flashPortServe { sErase with fl := {} }) (fun t => t.fl.erasing && t.out.length == 2) = true
    ∧ jnlWaits eng = false ∧ bootReads eng = false
    ∧ after (exec .flashPortServe (sFl { window := some (0, 1) })) (fun t => t.fl.owner == .window && t.out == [.flash (readFrameOf eng 0 4)]) = true
    ∧ after (exec .flashPortServe (sFl { sw := some sq })) (fun t => t.fl.owner == .software && t.fl.sw == some { sq with sent := true }
        && t.out == [.flash (swFrameOf eng sq)]) = true
    ∧ after (exec .flashPortServe (sFl { owner := .software })) (fun t => t == sFl { owner := .software }) = true
    ∧ after (exec (.flashFrameDone []) (sFl { owner := .window, window := some (0, 1) })) (fun t => t.fl.owner == .none && t.mgt.reply == [0, 0xFFFFFFFF]) = true
    ∧ after (exec (.flashFrameDone []) (sJnl { fJ false true with polling := false })) (fun t => t.fl.polling && t.fl.since == 4194304 && t.out == [jnlPoll]) = true
    ∧ saysBusy (sJnl {}) 1 = true ∧ after (exec (.flashFrameDone [1]) (sJnl (fJ false true))) (fun t => t.fl == fJ false true && t.out == [jnlPoll]) = true
    ∧ after (exec (.flashFrameDone [0]) (sJnl { fJ false true with erasing := true })) (fun t => !t.fl.busy && t.flash == []) = true
    ∧ saysBusy (sJnl {}) 0 = false ∧ (fJ false true).rcd.length = 64
    ∧ after (exec (.flashFrameDone [0]) (sJnl (fJ false true))) (fun t => t.fl.second && flashGet t 0x2000000 == 7 && flashGet t 0x200003F == 0xFF) = true
    ∧ after (exec (.flashFrameDone [0]) (sJnl (fJ true true))) (fun t => !t.fl.busy && flashGet t 0x200003F == 7) = true
    ∧ saysBusy (sFl {}) 0 = false
    ∧ after (exec (.flashFrameDone [0]) (sSw (sqPoll true))) (fun t => t.fl.sw == none && !t.fl.busy && rbit t R.nvmEvents 0) = true := by
  decide +kernel

theorem witness_FlashPortAndJournal_software :
    after (exec (.flashFrameDone []) (sSw (sqPoll false))) (fun t => t.fl.sw == some (sqPoll true) && t.out.length == 1) = true
    ∧ after (exec (.flashFrameDone [5, 6]) (sSw sqRecv)) (fun t => t.fl.sw == none && rfld t (R.nvmFbuf 0) 7 0 == 5 && rfld t (R.nvmFbuf 0) 15 8 == 6) = true
    ∧ wbit sqRecv.ctrl 17 = false ∧ wbit sqRecv.cmd 30 = false ∧ fld sqRecv.ctrl 8 0 = 2
    ∧ saysBusy (sSw (sqPoll true)) 1 = true
    ∧ after (exec (.flashFrameDone [1]) (sSw (sqPoll true))) (fun t => t.fl.sw == some (sqPoll true) && rfld t R.nvmFstatus 15 8 == 1 && t.out.length == 1) = true
    ∧ after (exec (.flashFrameDone []) (sFl { owner := .software, stopped := some (sqPoll false), busy := true }))
        (fun t => t.fl.owner == .none && t.fl.stopped == none && t.fl.busy && t.regs == eng.regs) = true := by decide +kernel

theorem witness_FlashPortAndJournal_ends :
    busyDue (sSw (sqPoll true)) = true
    ∧ after (exec .flashBusyTimeout (sSw (sqPoll true))) (fun t =>
        t.fl.sw == none && rfld t R.nvmFstatus 3 1 == 1) = true
    ∧ busyDue (sJnl (fJ true true)) = true
    ∧ (sJnl (fJ true false)).Ready ∧ (sJnl (fJ true false)).Quiet
    ∧ after (exec (.journalWrite rcd64) (sJnl (fJ true false))) (fun t => t.jq == [] && rdN t R.jnlWriteCount == 1 && rdN t R.jnlNextSeq == 1) = true
    ∧ after (exec (.journalWrite (0 :: rcd64.tail)) (sJnl (fJ true false))) (fun t => rdN t R.jnlFailCount == 1 && rbit t R.glbAlertStatus 18) = true
    ∧ sErase.Ready ∧ after (exec .journalErase sErase) (fun t => t.boot.eraseDue == [] && flashGet t 0x200FFFF == 1 && flashGet t 0x2010000 == 0xFF) = true
    ∧ swTest eng (goSq eng) = none ∧ after (exec .softwareSequence eng) (fun t => t.fl.sw == some (goSq eng)) = true
    ∧ swTest (sBoot 5 []) (goSq (sBoot 5 [])) = some 3 ∧ after (exec .softwareSequence (sBoot 5 [])) (fun t => rfld t R.nvmFstatus 3 1 == 3 && t.fl.sw == none) = true
    ∧ swBusy (sFl { sw := some sq }) = true ∧ after (exec .softwareSequence (sFl { sw := some sq })) (fun t => rbit t R.nvmEvents 1) = true := by decide +kernel

/-- A journal program still busy at its timeout has failed; what the flash holds then nobody states. -/
theorem witness_FlashPortAndJournal_timeout :
    (sJnl (fJ true true)).fl.erasing = false ∧ (sJnl (fJ true true)).jq = [recJ] ∧ (sJnl (fJ true true)).fl.owner = .journal
    ∧ after (exec .flashBusyTimeout (sJnl (fJ true true))) (fun t => t.jq == [] && rbit t R.glbAlertStatus 18) = true
    ∧ busyDue sEraseOver = true ∧ sEraseOver.boot.eraseDue = [1] ∧ sectorCount sEraseOver = 64
    ∧ after (exec .flashBusyTimeout sEraseOver) (fun t => t.boot.skip == [1] && t.boot.eraseDue == [2] && rbit t R.glbAlertStatus 18) = true := by decide +kernel

/-! ### The management port -/

def fr (op : Nat) (l : List Word) : Frame := { words := BitVec.ofNat 32 (op * 2 ^ 24) :: l }
/-- A frame to the register at byte `a`. -/
def frAt (op a : Nat) (l : List Word) : Frame := { words := BitVec.ofNat 32 (op * 2 ^ 24 + a / 4) :: l }
def bigF (op : Nat) : Frame := fr op (List.replicate 64 0)
def replyIs (t : State) (code count : Nat) : Bool := nbits (t.mgt.reply.headD 0).toNat 7 0 == code && nbits (t.mgt.reply.headD 0).toNat 15 8 == count

theorem witness_ManagementFrames :
    eng.Ready ∧ eng.Quiet ∧ mgtListens eng = true ∧ eng.mgt.wait = false ∧ frameAny (fr 0 []) = true ∧ frameOpcode (fr 0x0F []) = 0x0F ∧ frameOpcode (fr 0x13 []) = 0x13
    ∧ after (exec (.nop (fr 0x0F [])) eng) (fun t => replyIs t 0 0 && t.mgt.fseq == 1) = true
    ∧ after (exec (.badOp (fr 0x13 [])) eng) (fun t => replyIs t 2 0) = true
    ∧ frameSizeOk (bigF 0x10) = false ∧ after (exec (.read (bigF 0x10)) eng) (fun t => replyIs t 8 0) = true
    ∧ frameSizeOk (bigF 0x11) = false ∧ after (exec (.readWindow (bigF 0x11)) eng) (fun t => replyIs t 8 0) = true
    ∧ frameSizeOk (fr 0x12 []) = false ∧ after (exec (.write (fr 0x12 [])) eng) (fun t => replyIs t 8 0) = true
    ∧ after (exec (.nop (bigF 0)) eng) (fun t => replyIs t 8 0) = true ∧ after (exec (.badOp (bigF 0xFF)) eng) (fun t => replyIs t 8 0) = true
    ∧ frameSizeOk (frAt 0x10 0x24 []) = true ∧ after (exec (.read (frAt 0x10 0x24 [])) (wr 0x24 7 eng)) (fun t => replyIs t 0 1 && t.mgt.reply.getD 1 0 == 7) = true
    ∧ isRw 0x24 = true ∧ frameSizeOk (fr 0x11 []) = true ∧ eng.fl.busy = false
    ∧ after (exec (.readWindow (fr 0x11 [])) eng) (fun t => t.mgt.wait && t.fl.window == some (0, 1)) = true
    ∧ after (exec (.readWindow (fr 0x11 [])) (sFl { busy := true })) (fun t => replyIs t 7 0 && rdN t R.nvmWindowBusyCount == 1 && rbit t R.nvmEvents 2) = true
    ∧ frameSizeOk (frAt 0x12 0x24 [9]) = true ∧ after (exec (.write (frAt 0x12 0x24 [9])) eng) (fun t => replyIs t 0 1 && rdN t 0x24 == 9) = true := by decide +kernel

def sMgt (m : MgtS) : State := { eng with mgt := m }
def recP (tries : Nat) : PRec := { kind := 2, bytes := [1, 2, 3, 4], pseq := 7, tries := tries }
def sPush (tries : Nat) : State := { wr R.mgtConfig 1 eng with pushq := [recP tries] }

theorem witness_ManagementFaults :
    (sMgt { wait := true }).Ready ∧ (sMgt { wait := true }).Quiet ∧ mgtListens (sMgt { wait := true }) = true
    ∧ after (exec (.underrun 2) (sMgt { wait := true })) (fun t => t.mgt.lost && rdN t R.mgtUnderrunCount == 1 && rbit t R.glbAlertStatus 15) = true
    ∧ now (sMgt { lateAt := 1 }) < (sMgt { lateAt := 1 }).mgt.lateAt ∧ after (exec (.underrun 2) (sMgt { lateAt := 1 })) (fun t => t.mgt.lost) = true
    ∧ frameOpcode (fr 0x10 []) = 0x10 ∧ after (exec (.read (fr 0x10 [])) (sMgt { wait := true })) (fun t => t.mgt.lost && rdN t R.mgtUnderrunCount == 1) = true
    ∧ after (exec (.csWatchdog 3) eng) (fun t => t.mgt.tripped && rbit t R.mgtEvents 3 && rbit t R.glbAlertStatus 17) = true
    ∧ mgtListens (sMgt { tripped := true }) = false ∧ after (exec (.nop (fr 0 [])) (sMgt { tripped := true })) (fun t => t.mgt.lost && t.out == []) = true
    ∧ (sPush 0).Ready ∧ (sPush 0).Quiet ∧ pushDue (sPush 0) = true
    ∧ after (exec (.pushAttempt 0x5A5A0007) (sPush 0)) (fun t => t.pushq == [] && rdN t R.mgtPushCount == 1) = true
    ∧ after (exec (.pushAttempt 0) (sPush 1)) (fun t => t.pushq == [recP 2]) = true
    ∧ after (exec (.pushAttempt 0) (sPush 2)) (fun t => t.pushq == [] && rdN t R.mgtPushDropCount == 1 && rbit t R.mgtEvents 5) = true
    ∧ after (exec (.multiMasterFault true) (sPush 0)) (fun t => t.mgt.lost && rbit t R.glbAlertStatus 16 && rdN t R.mgtMmfaultCount == 1) = true := by decide +kernel

/-! ### Telemetry, replay, the whole machine -/

def sMapW : State := { wr R.telConfig 1 eng with t := { mtc := 4096 }, tel := [(4, { sent := 3 })] }
def svy60 (op first count : Nat) : List Byte := bytesBE 1 op ++ bytesBE 3 0 ++ bytesBE 1 first ++ bytesBE 1 count ++ List.replicate 54 0
def svyB (op first count : Nat) : List Byte := cellWire (mkCell 5 9 2 10 0 0 0 (svy60 op first count ++ bytesBE 4 (crc32c (svy60 op first count))))
def svyBad : List Byte := cellWire (mkCell 5 9 2 10 0 0 0 (svy60 1 4 1 ++ [1, 2, 3, 4]))
/-- The history of port 4 holds window 0. -/
def sSvy : State := wr (R.mapHistory 4 0 2) 4 (sCtrl 9)
def itemC : CopyItem := { cap := 1, entry := none, stream := 20, part := 0, step := 0, target := 0, place := 0, off := some 0, bytes := List.replicate 64 1 }
def sCopy (tags : List Tag) : State := { sPar with ports := [(20, { st := .active })], copyBuf := [itemC], tags := tags }

theorem witness_MapsAndCopies :
    sMapW.Ready ∧ mapDue sMapW = true ∧ telOn sMapW = true ∧ (tget {} 4 sMapW.tel).hist.length = 8
    ∧ after (exec .mapWindowEnd sMapW) (fun t => t.map.window == 4096 && t.tel == [] && mapRead t 4 0 == mapRecord sMapW 4) = true
    ∧ (sCtrl 9).Ready ∧ (deliveredCell 4 svyBad (sCtrl 9)).isSome = true ∧ payloadOk (parseCell svyBad) = false
    ∧ after (exec (.mapReq 4 svyBad) (sCtrl 9)) (fun t => rdN t R.telSvyBadCount == 1 && rbit t R.telSvyEvents 2) = true
    ∧ payloadOk (parseCell (svyB 1 4 1)) = true ∧ trusted (arrive 4 (svyB 1 4 1) (sCtrl 8)).1 4 (parseCell (svyB 1 4 1)) = false
    ∧ after (exec (.mapReq 4 (svyB 1 4 1)) (sCtrl 8)) (fun t => (port t 29).qVc2.map (fun c => (fieldBE c.payload 0 1, fieldBE c.payload 1 1)) == [(2, 1)]) = true
    ∧ trusted (arrive 4 (svyB 1 4 1) sSvy).1 4 (parseCell (svyB 1 4 1)) = true ∧ mapReqOk (parseCell (svyB 1 4 1)).payload = true
    ∧ fieldLE (mapRead (arrive 4 (svyB 1 4 1) sSvy).1 4 0) 0 8 = 0 ∧ fieldLE (mapRead (arrive 4 (svyB 1 4 1) sSvy).1 4 0) 8 1 = 4
    ∧ after (exec (.mapReq 4 (svyB 1 4 1)) sSvy) (fun t => (port t 29).qVc2.map (fun c => (fieldBE c.payload 0 1, fieldBE c.payload 1 1, fieldBE c.payload 20 1)) == [(2, 0, 4)]) = true := by
  decide +kernel

theorem witness_MapsAndCopies_store :
    fieldBE (parseCell (svyB 2 4 1)).payload 0 1 = 2 ∧ payloadOk (parseCell (svyB 2 4 1)) = true
    ∧ after (exec (.mapRsp 4 (svyB 2 4 1)) (sCtrl 9)) (fun t => rdN t R.telSvyRxHead == 1 && rdN t (R.telSvyRx 0 16) == 9) = true
    ∧ (rd (wr R.telSvyRxHead 32 (sCtrl 9)) R.telSvyRxHead - 0).toNat = 32
    ∧ after (exec (.mapRsp 4 (svyB 2 4 1)) (wr R.telSvyRxHead 32 (sCtrl 9))) (fun t => rbit t R.telSvyEvents 1) = true
    ∧ (sCopy []).Ready ∧ (sCopy []).Quiet ∧ (sCopy []).copyBuf.find? (fun i => i.off.isSome) = some itemC ∧ usable (sCopy []) false 20 = true
    ∧ tagRoom (sCopy []) 20 16 .put = true ∧ after (exec .dataCopy (sCopy [])) (fun t => t.copyBuf == [] && t.tags.length == 1) = true
    ∧ tagRoom (sCopy (List.replicate 64 { tagS .put with slot := 16 })) 20 16 .put = false
    ∧ after (exec .dataCopy (sCopy (List.replicate 64 { tagS .put with slot := 16 }))) (fun t => t.waits == [.copy]) = true := by decide +kernel

def sIso : State := wr (R.parReplay 0) 4 (wr R.rplRunStream 20 sPar)
def rp (ready : Bool) : Replay := { stream := 20, cap := 9, ready := ready }
def sRp (ready : Bool) : State := { sIso with replay := some (rp ready), streams := [(20, { st := .running })] }

theorem witness_Replays :
    sPar.Ready ∧ isolated sPar 0 = false ∧ after (exec (.replayStart []) sPar) (fun t => t.replay == none) = true
    ∧ sIso.Ready ∧ isolated sIso 20 = true ∧ rfld sIso R.rplRunStream 7 0 = 20 ∧ ownerOf sIso 20 = some 0 ∧ ringUnits sIso = 0
    ∧ after (exec (.replayStart []) sIso) (fun t => t.replay == none) = true
    ∧ after (exec (.replayStart []) (sRp false)) (fun t => rbit t R.rplEvents 4 && t.replay == some (rp false)) = true
    ∧ (sRp true).Ready ∧ after (exec (.replayStart []) (sRp true)) (fun t => t.replay.map (fun r => (r.ready, r.stream)) == some (false, 20)) = true
    ∧ replayOver (sRp false) = true
    ∧ after (exec .replayDone (sRp false)) (fun t => t.replay == none && (str t 20).st == .idle && rfld t R.rplResult 31 16 == 9 && rfld t R.rplResult 7 4 == 0) = true := by
  decide +kernel

/-- The hypotheses of the statements about every command. -/
theorem witness_WholeMachine :
    State.reset.Inv ∧ eng.Inv ∧ after (step { eng with pending := [.mtcSnap] }) (fun t => decide t.Inv && t.pending == []) = true
    ∧ after (step eng) (fun t => t.t.ticks == 1 && t.regs == eng.regs) = true
    ∧ eng.writes = [] ∧ Machine.Instr.storesNothing .mtcSnap = true ∧ after (exec .mtcSnap eng) (fun t => stgGet t 0 == stgGet eng 0) = true
    ∧ State.reset.rst.cold = true ∧ State.reset.writes = [] ∧ Machine.Instr.actsInReset .mtcSnap = false
    ∧ after (exec .mtcSnap State.reset) (fun t => t == State.reset) = true
    ∧ Machine.Instr.movesTime .mtcSnap = false ∧ after (exec .mtcSnap eng) (fun t => t.t == eng.t) = true := by decide +kernel

/-- A cell of 76 zero bytes, a record of 64, a body of 640. -/
def zeros (n : Nat) : List Byte := List.replicate n 0

theorem test_ports_are_0_to_31 : wellFormed (.portSeek 31) = true ∧ wellFormed (.portSeek 32) = false := by decide +kernel
theorem test_cells_have_76_bytes :
    wellFormed (.putData 0 (zeros 76)) = true ∧ wellFormed (.putData 0 (zeros 75)) = false := by decide +kernel
theorem test_records_have_64_bytes :
    wellFormed (.keep 0 (zeros 64)) = true ∧ wellFormed (.keep 0 (zeros 65)) = false ∧ wellFormed (.journalWrite (zeros 63)) = false := by
  decide +kernel
theorem test_codeword_bodies_have_640_bytes : wellFormed (.codeword 0 false 0 0 (zeros 639)) = false := by decide +kernel
theorem test_streams_are_0_to_255 : wellFormed (.launch 255) = true ∧ wellFormed (.launch 256) = false := by decide +kernel
theorem test_sources_are_0_to_256 : wellFormed (.injectionAdmit 256) = true ∧ wellFormed (.injectionAdmit 257) = false := by decide +kernel
theorem test_steps_are_0_to_4095 : wellFormed (.barrier 0 4095) = true ∧ wellFormed (.barrier 0 4096) = false := by decide +kernel
theorem test_partitions_are_0_to_15 : wellFormed (.release 15) = true ∧ wellFormed (.release 16) = false := by decide +kernel
theorem test_pkg_ports_are_0_to_3 : wellFormed (.pkgRegisterWrite 3 0 0) = true ∧ wellFormed (.pkgRegisterWrite 4 0 0) = false := by
  decide +kernel
theorem test_engine_ids_have_13_bits : wellFormed (.legStart 0 8191) = true ∧ wellFormed (.legStart 0 8192) = false := by decide +kernel
theorem test_opn_is_below_512 : wellFormed (.memTimeout 0 511) = true ∧ wellFormed (.memTimeout 0 512) = false := by decide +kernel
theorem test_seq_has_10_bits : wellFormed (.retxExhausted 0 0 1023) = true ∧ wellFormed (.retxExhausted 0 0 1024) = false := by
  decide +kernel
theorem test_ledger_entries_are_0_to_255 :
    wellFormed (.ledgerRead .mgt 0 255) = true ∧ wellFormed (.ledgerRead .mgt 0 256) = false := by decide +kernel
theorem test_points_are_0_to_19 : wellFormed (.leaseExpired 19) = true ∧ wellFormed (.leaseExpired 20) = false := by decide +kernel
theorem test_ranks_have_13_bits : wellFormed (.combinerOperation 0 0 0 8192 []) = false := by decide +kernel
theorem test_straps_have_5_bits : wellFormed (.porstRelease 31) = true ∧ wellFormed (.porstRelease 32) = false := by decide +kernel
theorem test_jtag_instructions_have_8_bits :
    wellFormed (.instructionUpdate 255) = true ∧ wellFormed (.instructionUpdate 256) = false := by decide +kernel
theorem test_readings_have_12_bits : wellFormed (.thermalSample 4096 0) = false := by decide +kernel
theorem test_addresses_are_aligned :
    wellFormed (.registerWrite .mgt 8 0) = true ∧ wellFormed (.registerWrite .mgt 6 0) = false
    ∧ wellFormed (.registerWrite .mgt 0x4000000 0) = false := by decide +kernel
theorem test_staging_has_96_MiB :
    wellFormed (.stagingBankGrant 12582911 0) = true ∧ wellFormed (.stagingBankGrant 12582912 0) = false := by decide +kernel
theorem test_frames_have_bits :
    wellFormed (.nop { words := [], bits := 1 }) = true ∧ wellFormed (.nop { words := [] }) = false
    ∧ wellFormed (.nop { words := [0], bits := 32 }) = false ∧ wellFormed (.nop { words := [0], bits := 3, tail := 8 }) = false := by decide +kernel

end Sys2Proof.Tests
end

section
/-! SUPPORT. Register writes that meet an engine event on their tick (R451): what a write-1-to-clear write and a counter
write make of the bits and increments noted in this tick. -/
namespace Sys2Proof.Machine

/-! ### What the engine notes on a tick -/

theorem touched_touch_self (a n : Nat) (s : State) : touched (touch a n s) a = n := tget_tset_self _ _ _ _

/-- A set event bit is noted. -/
theorem touched_ev_testBit (a i : Nat) (s : State) : (touched (ev a i s) a).testBit i = true := by
  rw [ev, touched_touch_self, Nat.testBit_or, Nat.testBit_two_pow_self, Bool.or_true]

/-- Increments add up. -/
theorem touched_cntBy_self (a k : Nat) (s : State) : touched (cntBy a k s) a = touched s a + k :=
  touched_touch_self _ _ _

/-- Setting an event bit outside GLB_BOOT_STATUS leaves R461's refusal as it was. -/
theorem bootWriteOk_ev {a : Nat} (h : a ≠ R.glbBootStatus) (i : Nat) (s : State) :
    bootWriteOk (ev a i s) = bootWriteOk s := by
  simp only [bootWriteOk, bootStep, rfld, rbit, rd_ev_ne h.symm]

theorem imageAddr_ne_bootStatus {a : Nat} (h : imageAddr a = true) : a ≠ R.glbBootStatus := by
  rintro rfl
  exact absurd h (by decide)

/-! ### Writes by access code -/

theorem exec_registerWrite {s : State} (h : s.Ready) (p : Path) (a : Nat) (v : Word) :
    exec (.registerWrite p a v) s = .next (commit false s (regWrite (viaOf p) a v s).1) :=
  h.run _

/-- Event bits outside the image, or in it where R461 does not refuse the write, take it by their access code (R8). -/
theorem regWrite_w1c {s : State} {a m : Nat} (hk : regKind a = some (.w1c m))
    (hb : imageAddr a = false ∨ bootWriteOk s = true) (via : Via) (v : Word) :
    regWrite via a v s = (w1cWrite a m v s, .ok) := by
  rcases hb with hb | hb <;> simp [regWrite, hk, hb]

/-- The same of a counter. -/
theorem regWrite_counter {s : State} {a : Nat} (hk : regKind a = some .counter)
    (hb : imageAddr a = false ∨ bootWriteOk s = true) (via : Via) (v : Word) :
    regWrite via a v s = (counterWrite a v s, .ok) := by
  rcases hb with hb | hb <;> simp [regWrite, hk, hb]

theorem wbit_eq_getLsbD (w : Word) (i : Nat) : wbit w i = w.getLsbD i := rfl

/-- A set bit that is noted for this tick survives any value written to its register. -/
theorem rbit_w1cWrite_touched {s : State} {a i : Nat} (hr : rbit s a i = true) (ht : (touched s a).testBit i = true)
    (hi : i < 32) (m : Nat) (v : Word) : rbit (w1cWrite a m v s) a i = true := by
  have hreg : (rd s a).getLsbD i = true := hr
  have hnoted : (BitVec.ofNat 32 (touched s a)).getLsbD i = true := by rw [BitVec.getLsbD_ofNat, ht, decide_eq_true hi]; rfl
  rw [rbit, w1cWrite, rd_wr_self, wbit_eq_getLsbD, BitVec.getLsbD_and, hreg, BitVec.getLsbD_not, BitVec.getLsbD_and,
    BitVec.getLsbD_not, hnoted]
  simp [hi]

/-- The register a value was stored in reads that value, in the selected injection point too (R548). -/
theorem regGet_regPut_self (a : Nat) (v : Word) (s : State) : regGet (regPut a v s) a = v := by
  have sel (x : Tbl AwlPoint) : awlSel { s with awl := x } = awlSel s := rfl
  unfold regPut
  split
  case h_8 => simp [regGet, rd_wr_self]
  all_goals simp [regGet, awl, sel]

/-- Clearing a whole counter leaves the increments of this tick. -/
theorem regGet_counterWrite_allOnes {s : State} {a : Nat} (h : touched s (touchKey s a) ≤ (regGet s a).toNat) :
    (regGet (counterWrite a 0xFFFFFFFF s) a).toNat = touched s (touchKey s a) := by
  have hlt := (regGet s a).isLt
  have hclear (x : Word) : x &&& ~~~(0xFFFFFFFF : Word) = 0#32 := by simp
  rw [counterWrite, regGet_regPut_self, hclear, Nat.min_eq_left h, BitVec.toNat_zero, BitVec.toNat_ofNat]
  omega

/-- Settles O7 (R451), from what the engine notes of a tick: a write keeps the bits noted at its address, and a clearing of
a counter keeps the increments noted there. -/
theorem sameTickWrites : Obligations.SameTickWrites := by
  intro s p a v hs hb
  refine ⟨fun m i hk hi => ⟨?bitThenWrite, ?writeThenBit⟩, fun k hk ht hle => ?counter, fun k => touched_cntBy_self a k s⟩
  case bitThenWrite =>
    have hs' : (ev a i s).Ready := hs
    have hb' : imageAddr a = false ∨ bootWriteOk (ev a i s) = true := by
      rcases Bool.eq_false_or_eq_true (imageAddr a) with himg | himg
      · exact .inr ((bootWriteOk_ev (imageAddr_ne_bootStatus himg) i s).trans (hb.resolve_left (by simp [himg])))
      · exact .inl himg
    refine ⟨_, exec_registerWrite hs' p a v, ?_⟩
    rw [commit_rbit, regWrite_w1c hk hb']
    exact rbit_w1cWrite_touched (rbit_ev a i s hi) (touched_ev_testBit a i s) hi m v
  case writeThenBit => exact ⟨_, exec_registerWrite hs p a v, rbit_ev a i _ hi⟩
  case counter =>
    subst ht
    refine ⟨_, exec_registerWrite hs p a _, ?_⟩
    rw [regWrite_counter hk hb]
    exact regGet_counterWrite_allOnes hle

end Sys2Proof.Machine
end

section
/-! SUPPORT. Writes to AWL_ARM (R551–R553): what the written point shows to opportunities on the tick of the write and on any
other tick. -/
namespace Sys2Proof.Machine

/-! ### The written point -/

@[simp] theorem awl_awlStore_self (i : Nat) (p : AwlPoint) (s : State) : awl (awlStore i p s) i = p :=
  tget_tset_self _ _ _ _

/-- The write keeps the point's registers and what is seen of it on this tick, and notes the tick. -/
theorem awl_awlSet_self (i : Nat) (x : ArmS) (s : State) :
    awl (awlSet i x s) i = { awl s i with old := awlSeen s (awl s i), cur := x, wrote := some (now s) } :=
  awl_awlStore_self _ _ _

/-- A point is a matter of the table of points alone. -/
theorem awl_congr {s t : State} (h : t.awl = s.awl) (i : Nat) : awl t i = awl s i :=
  congrArg (tget ({} : AwlPoint) i) h

/-- A point written on this tick is seen as it was before (R552). -/
theorem awlSeen_of_wrote {s : State} {p : AwlPoint} (h : p.wrote = some (now s)) : awlSeen s p = p.old := if_pos h

/-- A point not written on this tick is seen as it is. -/
theorem awlSeen_of_not_wrote {s : State} {p : AwlPoint} (h : p.wrote ≠ some (now s)) : awlSeen s p = p.cur := if_neg h

/-- On the tick of a write the point is seen as it was, also where it has been written on that tick before (R552). -/
theorem awlSeen_awlSet_sameTick {s t : State} {i : Nat} {x : ArmS} (ht : t.awl = (awlSet i x s).awl) (hn : now t = now s) :
    awlSeen t (awl t i) = awlSeen s (awl s i) := by
  rw [awl_congr ht, awl_awlSet_self, awlSeen_of_wrote (by rw [hn])]

/-- On any other tick it is seen as the write leaves it (R552). -/
theorem awlSeen_awlSet_otherTick {s u : State} {i : Nat} {x : ArmS} (hu : u.awl = (awlSet i x s).awl) (hn : now u ≠ now s) :
    awlSeen u (awl u i) = x := by
  rw [awl_congr hu, awl_awlSet_self, awlSeen_of_not_wrote (by simpa using hn.symm)]

/-! ### The two commands -/

/-- A command that leaves the points as a write of point `i` does takes effect from the next tick (R552). -/
theorem actsFromTheNextTick_of_awlSet {s s' : State} {i : Nat} {x : ArmS} (h : s'.awl = (awlSet i x s).awl) :
    awlSeen (commit false s s') (awl (commit false s s') i) = awlSeen s (awl s i)
    ∧ ∀ u : State, u.awl = (commit false s s').awl → now u ≠ now s → awlSeen u (awl u i) = x :=
  ⟨awlSeen_awlSet_sameTick h rfl, fun _ hu hn => awlSeen_awlSet_otherTick (hu.trans h) hn⟩

/-- An arming that passes the seal, the boot step and the time of AWL_AT (R551) gives the point its settings and counts. -/
theorem accepted_arm {s : State} (hseal : isSealed s = false ∨ rbit s R.glbSeal 1 = true) (hboot : bootStep s = 7)
    (hat : ¬ ((fld (awl s (awlSel s)).mode 1 0 = 2 ∨ wbit (awl s (awlSel s)).mode 2 = true) ∧ (awl s (awlSel s)).at_ ≤ mtcN s)) :
    arm s = (cnt R.awlArmCount (awlSet (awlSel s) (armSettings s (awl s (awlSel s))) s), .ok) := by
  have hopen : ¬ (isSealed s = true ∧ (!rbit s R.glbSeal 1) = true) := by
    rcases hseal with h | h <;> simp [h]
  rw [arm, if_neg hopen, if_neg (not_not_intro hboot), if_neg hat]

/-- Settles O8 (R552): both commands store the point by one write, which keeps what is seen of it on its own tick. -/
theorem armActsFromTheNextTick : Obligations.ArmActsFromTheNextTick := by
  rintro s _ _ hs rfl rfl hseal hboot hat
  constructor
  case left =>
    have harm : (arm s).1.awl = (awlSet (awlSel s) (armSettings s (awl s (awlSel s))) s).awl := by
      rw [accepted_arm hseal hboot hat, cnt_awl]
    exact ⟨_, hs.run _, actsFromTheNextTick_of_awlSet harm⟩
  case right =>
    obtain ⟨hsame, hother⟩ := actsFromTheNextTick_of_awlSet (s' := disarm s) rfl
    exact ⟨_, hs.run _, hsame, fun u hu hn => by rw [hother u hu hn]⟩

end Sys2Proof.Machine
end

section
/-! SUPPORT. What every command has in common: its result is committed to the state it found, so the queue stands, no write
waits, both memories keep their canonical form, and machine time moves only in the commands of R51, R54, R61, R63 and R50. -/
namespace Sys2Proof.Machine

/-! ### The shape of every command's answer -/

/-- The command answers a result committed to `s` or to a state that differs from it in no queue, time or memory; machine time is
taken from the result only where the command is one of time. -/
def Commits (i : Instr) (s : State) : Prop :=
  ∃ (b : Bool) (s0 s1 : State), exec i s = .next (commit b s0 s1) ∧ s0.pending = s.pending ∧ s0.t = s.t
    ∧ s0.stg = s.stg ∧ s0.flash = s.flash ∧ (b = true → Instr.movesTime i = true)

theorem Commits.of_run {i : Instr} {s : State} {f : State → State} (h : exec i s = run f s) : Commits i s :=
  ⟨false, s, _, h, rfl, rfl, rfl, rfl, nofun⟩

theorem Commits.of_runT {i : Instr} {s : State} {f : State → State} (h : exec i s = runT f s) (ht : Instr.movesTime i = true) :
    Commits i s :=
  ⟨true, s, _, h, rfl, rfl, rfl, rfl, fun _ => ht⟩

theorem Commits.of_runPin {i : Instr} {s : State} {f : State → State} (h : exec i s = runPin f s)
    (ht : Instr.movesTime i = true) : Commits i s :=
  ⟨true, s, _, h, rfl, rfl, rfl, rfl, fun _ => ht⟩

@[simp] theorem recTaken_pending (n : Nat) (b : List Byte) (s : State) : (recTaken n b s).pending = s.pending := by
  unfold recTaken; split <;> rfl
@[simp] theorem recTaken_t (n : Nat) (b : List Byte) (s : State) : (recTaken n b s).t = s.t := by
  unfold recTaken; split <;> rfl
@[simp] theorem recTaken_stg (n : Nat) (b : List Byte) (s : State) : (recTaken n b s).stg = s.stg := by
  unfold recTaken; split <;> rfl
@[simp] theorem recTaken_flash (n : Nat) (b : List Byte) (s : State) : (recTaken n b s).flash = s.flash := by
  unfold recTaken; split <;> rfl

/-- Every command commits (R51). RETRAIN is the one that takes its record from the port before its meaning runs. -/
theorem exec_commits (i : Instr) (s : State) : Commits i s := by
  cases i
  case retrainRecord n b =>
    exact ⟨false, recTaken n b s, _, rfl, recTaken_pending n b s, recTaken_t n b s, recTaken_stg n b s, recTaken_flash n b s, nofun⟩
  case markEdge | sync | steerIncrement | holdEnd | rootPllLoss | warmReset | reloadStart | thermalSample => exact .of_runT rfl rfl
  case porst | coldResetEnd | porstRelease | pllLock | warmPinAssert | warmPinRelease | supplyDip | instructionUpdate | tapReset =>
    exact .of_runPin rfl rfl
  all_goals exact .of_run rfl

/-! ### The invariant -/

/-- A committed result has the memories in canonical form, if the state it is committed to has. -/
theorem commit_inv {b : Bool} {s0 s1 : State} (h1 : Memory.wf stgFill s0.stg = true) (h2 : Memory.wf flashFill s0.flash = true) :
    (commit b s0 s1).Inv :=
  ⟨(commit_wf b s0 s1 h1 h2).1, (commit_wf b s0 s1 h1 h2).2, rfl⟩

theorem exec_inv {i : Instr} {s t : State} (h : s.Inv) (e : exec i s = .next t) : t.Inv := by
  obtain ⟨hstg, hflash, -⟩ := h
  obtain ⟨b, s0, s1, he, -, -, h1, h2, -⟩ := exec_commits i s
  obtain rfl : commit b s0 s1 = t := Host.Outcome.next.inj (he.symm.trans e)
  exact commit_inv (h1 ▸ hstg) (h2 ▸ hflash)

theorem idle_inv {s t : State} (h : s.Inv) (e : idle s = .next t) : t.Inv := by
  obtain ⟨hstg, hflash, -⟩ := h
  obtain rfl := Host.Outcome.next.inj e
  exact commit_inv hstg hflash

/-- Settles O1: `step` on a queue with a command in front is `exec` of it by definition. -/
theorem stepRunsTheCommand : Obligations.StepRunsTheCommand := fun _ _ _ => rfl

/-- Settles O2: both memories are empty after reset, and an empty memory is in canonical form. -/
theorem resetHoldsTheInvariant : Obligations.ResetHoldsTheInvariant :=
  ⟨Memory.wf_nil stgFill, Memory.wf_nil flashFill, rfl⟩

/-- Settles O3: a tick and every command alike answer a committed result. -/
theorem everyStepKeepsTheInvariant : Obligations.EveryStepKeepsTheInvariant := by
  intro s t hs hstep
  unfold step at hstep
  split at hstep
  case h_1 => exact idle_inv hs hstep
  case h_2 c rest _ =>
    exact exec_inv (s := { s with pending := rest }) hs hstep

/-- Settles O4: the committed result of a command keeps the queue and, but for the commands of time, machine time. -/
theorem commandFrame : Obligations.CommandFrame := by
  intro i s
  obtain ⟨b, s0, s1, he, hp, ht, -, -, hb⟩ := exec_commits i s
  refine ⟨_, he, hp, rfl, fun hm => ?_⟩
  cases b with
  | false => exact ht
  | true => exact absurd (hb rfl) (by simp [hm])

/-! ### Cold reset -/

/-- An engine in cold reset whose port 0 holds a link record: RETRAIN takes the record from the port all the same. -/
def coldWithRecord : State := modPort 0 (fun p => { p with rxRec := some [] }) State.reset

/-- Refutes O6: RETRAIN takes its record from the port before cold reset is looked at. -/
theorem not_coldResetHoldsStill : ¬ Obligations.ColdResetHoldsStill := by
  intro h
  have hsame : exec (.retrainRecord 0 []) coldWithRecord = .next coldWithRecord := h _ _ rfl rfl rfl
  have htaken : exec (.retrainRecord 0 []) coldWithRecord = .next (recTaken 0 [] coldWithRecord) := by rfl
  have hrec : (port (recTaken 0 [] coldWithRecord) 0).rxRec = (port coldWithRecord 0).rxRec := by
    rw [Host.Outcome.next.inj (htaken.symm.trans hsame)]
  exact absurd hrec (by decide)

end Sys2Proof.Machine
end

section
/-! SUPPORT. What a register, a field, a bit or another part of the state reads after the operations that change registers: the
rules by which the effects of a command are read off its meaning. -/
namespace Sys2Proof.Machine

/-! ### Raising a detector -/

/-- Registers between the detectors' counters and the management port's are written by no raising. -/
theorem raiseReg_of_mid {a : Nat} (h1 : 0x180 ≤ a) (h2 : a < 0x13000C) : raiseReg a = false := by
  unfold raiseReg
  rw [decide_eq_false_iff_not]
  simp only [R.glbAlertStatus, R.glbAlertInjected, R.glbEventHead, R.glbEventLostCount, R.mgtEvents, R.mgtPushDropCount, R.jnlLostCount]
  omega

variable {i : Nat} {inj : Bool} {p k n e c a : Nat}

/-- `raise_rdR` of a detector written out, whose number is then in sight. -/
theorem raise_mk_rdR {b : Nat} (hi : i < 32) (hb : raiseReg b = false) (s : State) :
    rdR (raise ⟨i, inj, p, k, n, e, c, a⟩ s).regs b = rdR s.regs b := raise_rdR hb _ hi s

theorem rd_raise_mk {b : Nat} (hi : i < 32) (hb : raiseReg b = false) (s : State) :
    rd (raise ⟨i, inj, p, k, n, e, c, a⟩ s) b = rd s b := raise_rdR hb _ hi s

theorem rdN_raise_mk {b : Nat} (hi : i < 32) (hb : raiseReg b = false) (s : State) :
    rdN (raise ⟨i, inj, p, k, n, e, c, a⟩ s) b = rdN s b := congrArg BitVec.toNat (raise_rdR hb _ hi s)

theorem rbit_raise_mk {b : Nat} (hi : i < 32) (hb : raiseReg b = false) (j : Nat) (s : State) :
    rbit (raise ⟨i, inj, p, k, n, e, c, a⟩ s) b j = rbit s b j := congrArg (wbit · j) (raise_rdR hb _ hi s)

theorem rfld_raise_mk {b : Nat} (hi : i < 32) (hb : raiseReg b = false) (hi' lo : Nat) (s : State) :
    rfld (raise ⟨i, inj, p, k, n, e, c, a⟩ s) b hi' lo = rfld s b hi' lo := congrArg (fld · hi' lo) (raise_rdR hb _ hi s)

/-- A reading that no raising changes, of a detector written out. -/
theorem RaiseStable.raise_mk {α : Type} {g : State → α} (h : RaiseStable g) (hi : i < 32) (s : State) :
    g (Machine.raise ⟨i, inj, p, k, n, e, c, a⟩ s) = g s := h.raise _ hi s

/-! ### The alert a raising leaves (R408) -/

theorem rd_tblWrites_ne {b : Nat} (l : List Word) (a : Nat) (s : State) (h : b < a) : rd (tblWrites a l s) b = rd s b := by
  induction l generalizing a s with
  | nil => rfl
  | cons v l ih =>
    have hv : rd (tblWrite a v s) b = rd s b := rd_wr_ne (by omega) v s
    rw [tblWrites, ih _ _ (by omega), hv]

theorem rd_pushQueue_ne {b : Nat} (h1 : b ≠ R.mgtEvents) (h2 : b ≠ R.mgtPushDropCount) (k : Nat) (r : List Byte) (s : State) :
    rd (pushQueue k r s) b = rd s b := by
  unfold pushQueue
  split
  · split
    · rfl
    · rw [rd_ev_ne h1, rd_cnt_ne h2]
  · rfl

/-- After the marking, nothing of a raising writes the alert register. -/
theorem rd_raiseCore_alert (d : Det) (s : State) :
    rd (raiseCore d s).1 R.glbAlertStatus = rd (raiseMark d s) R.glbAlertStatus := by
  have ring (r : List Byte) (s : State) : rd (raiseRing d r s) R.glbAlertStatus = rd s R.glbAlertStatus := by
    unfold raiseRing
    split
    · exact rd_cnt_ne (by decide) s
    · exact (rd_wr_ne (by decide) _ _).trans (rd_tblWrites_ne _ _ _ (by unfold R.eventWord R.glbAlertStatus; omega))
  unfold raiseCore
  generalize raiseMark d s = x
  dsimp only
  split
  · split
    · rfl
    · rw [ring]
      split
      · exact rd_pushQueue_ne (by decide) (by decide) _ _ _
      · rfl
  · rfl

theorem rd_raiseMark_alert (d : Det) (hd : d.i < 32) (s : State) :
    rd (raiseMark d s) R.glbAlertStatus = rd (ev R.glbAlertStatus d.i s) R.glbAlertStatus := by
  have hcnt : R.glbAlertStatus ≠ R.glbDetCount d.i := by unfold R.glbAlertStatus R.glbDetCount; omega
  unfold raiseMark
  split
  · rw [rd_ev_ne (by decide), rd_cnt_ne hcnt]
  · rw [rd_wbitAt_ne (by decide), rd_cnt_ne hcnt]

/-- An alert bit that stands is not cleared by a raising. -/
theorem rbit_raiseCore_alert_of {d : Det} (hd : d.i < 32) {j : Nat} {s : State} (h : rbit s R.glbAlertStatus j = true) :
    rbit (raiseCore d s).1 R.glbAlertStatus j = true := by
  rw [rbit, rd_raiseCore_alert, rd_raiseMark_alert d hd, ← rbit]
  by_cases e : j = d.i
  · rw [e, rbit_ev _ _ _ hd]
  · rw [rbit_ev_other _ _ _ _ _ hd (.inr e), h]

theorem rbit_raiseCore_alert (d : Det) (hd : d.i < 32) (s : State) : rbit (raiseCore d s).1 R.glbAlertStatus d.i = true := by
  rw [rbit, rd_raiseCore_alert, rd_raiseMark_alert d hd, ← rbit, rbit_ev _ _ _ hd]

theorem rbit_jnlQueue_alert_of {r : JRec} {j : Nat} {s : State} (h : rbit s R.glbAlertStatus j = true) :
    rbit (jnlQueue r s) R.glbAlertStatus j = true := by
  unfold jnlQueue
  split
  · split
    · exact h
    · refine rbit_raiseCore_alert_of (d := { i := 18 }) (by decide) ?_
      rw [rbit, rd_cnt_ne (by decide), ← rbit, h]
  · exact h

/-- A raising goes through `raiseCore`, and may queue a journal record after it. -/
theorem raise_eq (d : Det) (s : State) :
    raise d s = (raiseCore d s).1 ∨ ∃ r, raise d s = jnlQueue r (raiseCore d s).1 := by
  unfold raise
  dsimp only
  split
  · split
    · exact .inr ⟨_, rfl⟩
    · exact .inl rfl
  · exact .inl rfl

/-- A raised detector shows in GLB_ALERT_STATUS (R408). -/
theorem rbit_raise_alert (d : Det) (hd : d.i < 32) (s : State) : rbit (raise d s) R.glbAlertStatus d.i = true := by
  rcases raise_eq d s with h | ⟨r, h⟩ <;> rw [h]
  · exact rbit_raiseCore_alert d hd s
  · exact rbit_jnlQueue_alert_of (rbit_raiseCore_alert d hd s)

theorem rbit_raise_alert_of {d : Det} (hd : d.i < 32) {j : Nat} {s : State} (h : rbit s R.glbAlertStatus j = true) :
    rbit (raise d s) R.glbAlertStatus j = true := by
  rcases raise_eq d s with e | ⟨r, e⟩ <;> rw [e]
  · exact rbit_raiseCore_alert_of hd h
  · exact rbit_jnlQueue_alert_of (rbit_raiseCore_alert_of hd h)

theorem rbit_raise_alert_mk (hi : i < 32) (s : State) : rbit (raise ⟨i, inj, p, k, n, e, c, a⟩ s) R.glbAlertStatus i = true :=
  rbit_raise_alert _ hi s

/-! ### Registers after the operations that write them -/

theorem rdN_eq_toNat_rd (s : State) (a : Nat) : rdN s a = (rd s a).toNat := rfl

theorem rdN_lt (s : State) (a : Nat) : rdN s a < 2 ^ 32 := (rd s a).isLt

theorem rdN_wr_ne {a b : Nat} (h : b ≠ a) (v : Word) (s : State) : rdN (wr a v s) b = rdN s b := by
  rw [rdN, rd_wr_ne h, rdN]
theorem rdN_ev_ne {a b : Nat} (h : b ≠ a) (i : Nat) (s : State) : rdN (ev a i s) b = rdN s b := by rw [rdN, rd_ev_ne h, rdN]
theorem rdN_cnt_ne {a b : Nat} (h : b ≠ a) (s : State) : rdN (cnt a s) b = rdN s b := by rw [rdN, rd_cnt_ne h, rdN]
theorem rdN_cntBy_ne {a b : Nat} (h : b ≠ a) (k : Nat) (s : State) : rdN (cntBy a k s) b = rdN s b := by
  rw [rdN, rd_cntBy_ne h, rdN]
theorem rdN_wbitAt_ne {a b : Nat} (h : b ≠ a) (i : Nat) (v : Bool) (s : State) : rdN (wbitAt a i v s) b = rdN s b := by
  rw [rdN, rd_wbitAt_ne h, rdN]
theorem rdN_wfld_ne {a b : Nat} (h : b ≠ a) (hi lo v : Nat) (s : State) : rdN (wfld a hi lo v s) b = rdN s b := by
  rw [rdN, rd_wfld_ne h, rdN]
theorem rd_wrN_ne {a b : Nat} (h : b ≠ a) (v : Nat) (s : State) : rd (wrN a v s) b = rd s b := rd_wr_ne h _ s
theorem rdN_wrN_ne {a b : Nat} (h : b ≠ a) (v : Nat) (s : State) : rdN (wrN a v s) b = rdN s b := rdN_wr_ne h _ s
theorem rbit_wr_ne {a b : Nat} (h : b ≠ a) (v : Word) (i : Nat) (s : State) : rbit (wr a v s) b i = rbit s b i := by
  rw [rbit, rd_wr_ne h, rbit]
theorem rbit_wrN_ne {a b : Nat} (h : b ≠ a) (v i : Nat) (s : State) : rbit (wrN a v s) b i = rbit s b i := rbit_wr_ne h _ i s
theorem rbit_cnt_ne {a b : Nat} (h : b ≠ a) (i : Nat) (s : State) : rbit (cnt a s) b i = rbit s b i := by
  rw [rbit, rd_cnt_ne h, rbit]
theorem rbit_cntBy_ne {a b : Nat} (h : b ≠ a) (k i : Nat) (s : State) : rbit (cntBy a k s) b i = rbit s b i := by
  rw [rbit, rd_cntBy_ne h, rbit]
theorem rbit_wfld_ne {a b : Nat} (h : b ≠ a) (hi lo v i : Nat) (s : State) : rbit (wfld a hi lo v s) b i = rbit s b i := by
  rw [rbit, rd_wfld_ne h, rbit]
theorem rfld_wr_ne {a b : Nat} (h : b ≠ a) (v : Word) (hi lo : Nat) (s : State) : rfld (wr a v s) b hi lo = rfld s b hi lo := by
  rw [rfld, rd_wr_ne h, rfld]
theorem rfld_wrN_ne {a b : Nat} (h : b ≠ a) (v hi lo : Nat) (s : State) : rfld (wrN a v s) b hi lo = rfld s b hi lo :=
  rfld_wr_ne h _ hi lo s
theorem rfld_ev_ne {a b : Nat} (h : b ≠ a) (i hi lo : Nat) (s : State) : rfld (ev a i s) b hi lo = rfld s b hi lo := by
  rw [rfld, rd_ev_ne h, rfld]
theorem rfld_cnt_ne {a b : Nat} (h : b ≠ a) (hi lo : Nat) (s : State) : rfld (cnt a s) b hi lo = rfld s b hi lo := by
  rw [rfld, rd_cnt_ne h, rfld]
theorem rfld_wbitAt_ne {a b : Nat} (h : b ≠ a) (i : Nat) (v : Bool) (hi lo : Nat) (s : State) :
    rfld (wbitAt a i v s) b hi lo = rfld s b hi lo := by rw [rfld, rd_wbitAt_ne h, rfld]
theorem rfld_wfld_ne {a b : Nat} (h : b ≠ a) (hi lo v hi' lo' : Nat) (s : State) :
    rfld (wfld a hi lo v s) b hi' lo' = rfld s b hi' lo' := by rw [rfld, rd_wfld_ne h, rfld]

/-- A field keeps its value when another of the same register is replaced. -/
theorem rfld_wfld_disjoint (a hi lo v h l : Nat) (s : State) (hh : hi < 32) (d : h < lo ∨ hi < l) :
    rfld (wfld a hi lo v s) a h l = rfld s a h l := by
  rw [rfld, wfld, rd_wr_self, fld_putFld_disjoint _ _ _ _ _ _ hh d, rfld]

/-- A field keeps its value when a bit outside it is set or cleared. -/
theorem rfld_wbitAt_disjoint (a i : Nat) (b : Bool) (h l : Nat) (s : State) (hi : i < 32) (d : h < i ∨ i < l) :
    rfld (wbitAt a i b s) a h l = rfld s a h l := rfld_wfld_disjoint _ _ _ _ _ _ _ hi d

/-- A bit keeps its value when a field it does not lie in is replaced. -/
theorem rbit_wfld_disjoint (a hi lo v i : Nat) (s : State) (hh : hi < 32) (d : i < lo ∨ hi < i) :
    rbit (wfld a hi lo v s) a i = rbit s a i := by
  rw [rbit, wfld, rd_wr_self, wbit_putFld_out _ _ _ _ _ hh d, rbit]

/-- A counter has gone up by `k`, to its ceiling. -/
theorem rdN_cntBy (a k : Nat) (s : State) : rdN (cntBy a k s) a = min (rdN s a + k) 0xFFFFFFFF := by
  rw [cntBy, rdN, rd_touch, wrN, rd_wr_self, BitVec.toNat_ofNat]
  omega

/-- The event bit is set whether or not an injection is noted with it (R564). -/
theorem rbit_evI (a i ib : Nat) (inj : Bool) (s : State) (hi : i < 32) (hib : ib < 32) (h : i ≠ ib) :
    rbit (evI a i ib inj s) a i = true := by
  unfold evI
  split
  · rw [rbit_ev_other _ _ _ _ _ hib (.inr h), rbit_ev _ _ _ hi]
  · rw [rbit_wbitAt_other _ _ _ _ _ _ hib (.inr h), rbit_ev _ _ _ hi]

theorem rd_evI_ne {a b : Nat} (h : b ≠ a) (i ib : Nat) (inj : Bool) (s : State) : rd (evI a i ib inj s) b = rd s b := by
  unfold evI
  split
  · rw [rd_ev_ne h, rd_ev_ne h]
  · rw [rd_wbitAt_ne h, rd_ev_ne h]

theorem rdN_evI_ne {a b : Nat} (h : b ≠ a) (i ib : Nat) (inj : Bool) (s : State) : rdN (evI a i ib inj s) b = rdN s b := by
  rw [rdN, rd_evI_ne h, rdN]

theorem rbit_evI_ne {a b : Nat} (h : b ≠ a) (i ib : Nat) (inj : Bool) (j : Nat) (s : State) :
    rbit (evI a i ib inj s) b j = rbit s b j := by
  rw [rbit, rd_evI_ne h, rbit]

/-- Registers are all a register reading depends on. -/
theorem rd_congr {s t : State} (h : t.regs = s.regs) (a : Nat) : rd t a = rd s a := by rw [rd_eq, h, rd_eq]
theorem rdN_congr {s t : State} (h : t.regs = s.regs) (a : Nat) : rdN t a = rdN s a := by rw [rdN_eq, h, rdN_eq]
theorem rbit_congr {s t : State} (h : t.regs = s.regs) (a i : Nat) : rbit t a i = rbit s a i := by rw [rbit_eq, h, rbit_eq]
theorem rfld_congr {s t : State} (h : t.regs = s.regs) (a hi lo : Nat) : rfld t a hi lo = rfld s a hi lo := by
  rw [rfld_eq, h, rfld_eq]

/-! ### A command that is not due -/

theorem whenB_false {c : Bool} (h : c = false) (f : State → State) (s : State) : whenB c f s = s := by simp [whenB, h]

/-- Committing what was there changes nothing. -/
theorem commit_self {s : State} (h : s.writes = []) (b : Bool) : commit b s s = s := by
  cases b <;> simp [commit, h] <;> rw [← h]

theorem run_whenB_false {c : Bool} {s : State} (hs : s.Ready) (h : c = false) (f : State → State) :
    run (whenB c f) s = .next s := by
  rw [hs.run, whenB_false h, commit_self hs.2]

theorem runT_whenB_false {c : Bool} {s : State} (hs : s.Ready) (h : c = false) (f : State → State) :
    runT (whenB c f) s = .next s := by
  rw [hs.runT, whenB_false h, commit_self hs.2]

theorem State.Ready.run_whenB {c : Bool} {s : State} (hs : s.Ready) (h : c = true) (f : State → State) :
    Machine.run (whenB c f) s = .next (commit false s (f s)) := by
  rw [hs.run, whenB_true h]

theorem State.Ready.runT_whenB {c : Bool} {s : State} (hs : s.Ready) (h : c = true) (f : State → State) :
    Machine.runT (whenB c f) s = .next (commit true s (f s)) := by
  rw [hs.runT, whenB_true h]

/-- A meaning that leaves the state as it was. -/
theorem State.Ready.run_self {s : State} (hs : s.Ready) {f : State → State} (h : f s = s) : Machine.run f s = .next s := by
  rw [hs.run, h, commit_self hs.2]

theorem State.Ready.runT_self {s : State} (hs : s.Ready) {f : State → State} (h : f s = s) : Machine.runT f s = .next s := by
  rw [hs.runT, h, commit_self hs.2]

end Sys2Proof.Machine
end

section
/-! SUPPORT. Clocks, MARK edges and the counter of machine time: what each command of time leaves (R46–R48, R51–R58, R63). -/
namespace Sys2Proof.Machine

/-! ### REFCLK lost and back -/

theorem opRefLost_regs (s : State) : rbit (opRefLost s) R.clkStatus 3 = true ∧ rbit (opRefLost s) R.clkStatus 1 = false
    ∧ rbit (opRefLost s) R.clkEvents 0 = true ∧ rbit (opRefLost s) R.mtcStatus 3 = true := by
  simp (disch := decide) [opRefLost, lossOfLock, rbit_eq, wbitAt_regs, ev_regs, evI_false_regs, cnt_regs, rdR_set_self, rdR_set_ne,
    raise_mk_rdR, wbit_putFld, wbit_putFld_out]

theorem opRefLost_lostAt (s : State) : (opRefLost s).clk.lostAt = some (now s) := by
  simp [opRefLost, lossOfLock, raise_clk, now]

theorem opSwitchToLocalOsc_regs (s : State) :
    rbit (opSwitchToLocalOsc s) R.clkStatus 2 = true ∧ rbit (opSwitchToLocalOsc s) R.clkStatus 3 = false := by
  simp (disch := decide) [opSwitchToLocalOsc, rbit_wbitAt, rbit_wbitAt_other]

theorem opRefRestored_regs (s : State) : rbit (opRefRestored s) R.clkStatus 1 = true ∧ rbit (opRefRestored s) R.clkStatus 2 = false
    ∧ rbit (opRefRestored s) R.clkStatus 3 = false ∧ rbit (opRefRestored s) R.clkEvents 1 = true := by
  simp (disch := decide) [opRefRestored, rbit_eq, wbitAt_regs, ev_regs, rdR_set_self, rdR_set_ne, wbit_putFld, wbit_putFld_out]

theorem refValid_of_lostAt {s : State} {l : Nat} (h : s.clk.lostAt = some l) : refValid s = decide (l + 2 ^ 24 ≤ now s) := by
  simp [refValid, h]

/-! ### MARK -/

/-- No jump of no ticks. -/
@[simp] theorem jumpNow_zero (s : State) : jumpNow 0 s = s := rfl

theorem jumpNow_mtc (k : Nat) (s : State) : (jumpNow k s).t.mtc = s.t.mtc + BitVec.ofNat 64 k := by
  unfold jumpNow
  split
  case isTrue h => simp [h]
  case isFalse => rfl

@[simp] theorem jumpNow_clk (k : Nat) (s : State) : (jumpNow k s).clk = s.clk := by
  unfold jumpNow; split <;> rfl

@[simp] theorem jumpNow_hold (k : Nat) (s : State) : (jumpNow k s).t.hold = s.t.hold := by
  unfold jumpNow; split <;> rfl

theorem jumpNow_regs {k : Nat} (h : k ≠ 0) (s : State) : (jumpNow k s).regs = (ev R.mtcEvents 3 s).regs := by
  rw [jumpNow, if_neg h]
  rfl

theorem rbit_jumpNow_event {k : Nat} (h : k ≠ 0) (s : State) : rbit (jumpNow k s) R.mtcEvents 3 = true := by
  rw [rbit_congr (jumpNow_regs h s), rbit_ev _ _ _ (by decide)]

@[simp] theorem setJoined_clk (s : State) : (setJoined s).clk = s.clk := by
  unfold setJoined; dsimp only; split <;> simp [enterStep7]

/-- What a MARK edge changes before the MTC follows it: the notes of edges and misses (R55–R57). -/
def markNoted (s : State) : State :=
  { s with clk := { s.clk with strays := [], missRun := 0, markSeen := true, bigJump := 0, refBack := false } }

@[simp] theorem markNoted_t (s : State) : (markNoted s).t = s.t := rfl

/-- The jump or hold an accepted edge makes (R54, R58). -/
def markMoved (s : State) : State :=
  if mtcLow s = 0 then jumpNow s.clk.bigJump (markNoted s)
  else if 0x800000 ≤ mtcLow s then jumpNow (0x1000000 - mtcLow s + s.clk.bigJump) (markNoted s)
  else startHold (mtcLow s) (jumpNow s.clk.bigJump (markNoted s))

/-- The expected tick of this edge is no missed one (R56). -/
def markExpected (s : State) : State := { s with clk := { s.clk with missFor := mtcN s / 0x1000000 + 1 } }

theorem applyMark_eq (s : State) :
    applyMark s = if (markExpected (markMoved s)).t.hold.isNone && joinReady (markExpected (markMoved s))
      then setJoined (markExpected (markMoved s)) else markExpected (markMoved s) := rfl

theorem applyMark_t (s : State) : (applyMark s).t = (markMoved s).t := by
  rw [applyMark_eq]
  split
  · rw [setJoined_t]; rfl
  · rfl

theorem markMoved_clk (s : State) : (markMoved s).clk = (markNoted s).clk := by
  unfold markMoved startHold
  split
  · exact jumpNow_clk _ _
  · split <;> exact jumpNow_clk _ _

theorem applyMark_clk (s : State) : (applyMark s).clk.missRun = 0 ∧ (applyMark s).clk.markSeen = true := by
  have h : (markExpected (markMoved s)).clk.missRun = 0 ∧ (markExpected (markMoved s)).clk.markSeen = true := by
    simp [markExpected, markMoved_clk, markNoted]
  rw [applyMark_eq]
  split
  · rwa [setJoined_clk]
  · exact h

/-- The edge's own bits apart, joining is all that a register of time shows of it. -/
theorem rbit_applyMark (s : State) {a i : Nat} (h1 : a ≠ R.glbBootStatus) (h2 : a ≠ R.mtcStatus ∨ i ≠ 0) :
    rbit (applyMark s) a i = rbit (markMoved s) a i := by
  rw [applyMark_eq]
  split
  · rw [setJoined_other _ _ _ h1 h2]; rfl
  · rfl

theorem rbit_jumpNow_ne (k : Nat) {a : Nat} (h : a ≠ R.mtcEvents) (i : Nat) (s : State) :
    rbit (jumpNow k s) a i = rbit s a i := by
  by_cases hk : k = 0
  · rw [hk, jumpNow_zero]
  · rw [rbit_congr (jumpNow_regs hk s), rbit_ev_other _ _ _ _ _ (by decide) (.inl h)]

theorem rbit_markMoved_ne {a : Nat} (h : a ≠ R.mtcEvents) (i : Nat) (s : State) : rbit (markMoved s) a i = rbit s a i := by
  unfold markMoved
  split
  · rw [rbit_jumpNow_ne _ h]; rfl
  · split
    · rw [rbit_jumpNow_ne _ h]; rfl
    · exact rbit_jumpNow_ne _ h _ _

/-- An edge near its expected tick is accepted while no fallback stands (R54). -/
theorem markEdge_near {s : State} (hf : rbit s R.mtcStatus 3 = false) (hl : mtcLow s ≤ 4 ∨ 0xFFFFFC ≤ mtcLow s) :
    markEdge s = applyMark s := by
  simp [markEdge, hf, hl]

theorem markEdge_fallback {s : State} (hf : rbit s R.mtcStatus 3 = true) :
    markEdge s = if s.clk.refBack then applyMark (wbitAt R.mtcStatus 3 false s) else s := by
  simp [markEdge, hf]

theorem markMoved_onTime {s : State} (hl : mtcLow s = 0) (hb : s.clk.bigJump = 0) : (markMoved s).t.mtc = s.t.mtc := by
  simp [markMoved, hl, hb, markNoted]

theorem markMoved_early {s : State} (hl : 0xFFFFFC ≤ mtcLow s) (hb : s.clk.bigJump = 0) :
    markMoved s = jumpNow (0x1000000 - mtcLow s) (markNoted s) := by
  rw [markMoved, if_neg (by omega), if_pos (by omega), hb, Nat.add_zero]

theorem markMoved_late {s : State} (h1 : 1 ≤ mtcLow s) (h4 : mtcLow s ≤ 4) (hb : s.clk.bigJump = 0) :
    markMoved s = startHold (mtcLow s) (markNoted s) := by
  rw [markMoved, if_neg (by omega), if_neg (by omega), hb, jumpNow_zero]

theorem markDue_of {s : State} (ha : appliesMark s = true) (h1 : 4 < mtcLow s) (h2 : mtcLow s < 0x800000)
    (h3 : s.clk.missFor ≠ mtcN s / 0x1000000 + 1) : markDue s = true := by
  simp [markDue, ha, h1, h2, h3]

theorem lossOfLock_clk (inj : Bool) (s : State) : (lossOfLock inj s).clk = s.clk := by
  simp only [lossOfLock, raise_clk, evI_clk, cnt_clk, Nat.reduceLT]

theorem rbit_lossOfLock_missed (s : State) : rbit (lossOfLock false s) R.mtcEvents 5 = rbit s R.mtcEvents 5 := by
  simp (disch := decide) [lossOfLock, rbit_eq, evI_false_regs, wbitAt_regs, ev_regs, cnt_regs, rdR_set_self, rdR_set_ne,
    raise_mk_rdR, wbit_putFld_out]

/-- A missed MARK is counted and noted; the fourth in a row falls back (R56). -/
theorem markMiss_effect (s : State) : (markMiss s).clk.missCount = s.clk.missCount + 1
    ∧ (markMiss s).clk.missRun = s.clk.missRun + 1 ∧ rbit (markMiss s) R.mtcEvents 5 = true
    ∧ (s.clk.missRun = 3 → rbit (markMiss s) R.mtcStatus 3 = true) := by
  unfold markMiss
  dsimp only
  split
  case isTrue =>
    refine ⟨?_, ?_, ?_, fun _ => rbit_wbitAt _ _ _ _ (by decide)⟩
    · rw [wbitAt_clk, lossOfLock_clk]; rfl
    · rw [wbitAt_clk, lossOfLock_clk]; rfl
    · rw [rbit_wbitAt_other _ _ _ _ _ _ (by decide) (by decide), rbit_lossOfLock_missed, rbit_ev _ _ _ (by decide)]
  case isFalse h =>
    exact ⟨rfl, rfl, rbit_ev _ _ _ (by decide), fun h3 => absurd (by simp [h3]) h⟩

theorem exec_markEdge {s : State} (hs : s.Ready) (ha : appliesMark s = true) :
    exec .markEdge s = .next (commit true s (markEdge s)) :=
  hs.runT_whenB (by simp [ha]) _

/-- Settles O9: the commands of REFCLK by the bits they write; a MARK edge by the jump or hold it makes. -/
theorem clockAndMarks : Obligations.ClockAndMarks := by
  constructor
  case left =>
    intro s hs
    refine ⟨fun hn => ?_, fun hl hc => ?_, fun l hl hd => ?_, fun l hl hd => ?_⟩
    case refine_1 =>
      obtain ⟨h1, h2, h3, h4⟩ := opRefLost_regs s
      exact ⟨_, hs.run_whenB (by simp [hn]) _, h1, h2, h3, opRefLost_lostAt s, h4⟩
    case refine_2 => exact ⟨_, hs.run_whenB (by simp [hl, hc]) _, opSwitchToLocalOsc_regs s⟩
    case refine_3 =>
      obtain ⟨h1, h2, h3, h4⟩ := opRefRestored_regs s
      refine ⟨_, hs.run_whenB ((refValid_of_lostAt hl).trans (decide_eq_true hd)) _, ?_⟩
      simp only [commit_rbit]
      exact ⟨h1, h2, h3, h4, rfl, rfl⟩
    case refine_4 => exact run_whenB_false hs ((refValid_of_lostAt hl).trans (decide_eq_false (by omega))) _
  case right =>
    intro s hs ha
    have hexec := exec_markEdge hs ha
    refine ⟨fun hf hb hl => ?onTime, fun hf hb hl => ?early, fun hf hb h1 h4 => ?late, fun hf hr => ?back, fun hf hr => ?ignored,
      fun h1 h2 h3 => ?miss⟩
    case onTime =>
      rw [markEdge_near hf (by omega)] at hexec
      exact ⟨_, hexec, (congrArg _ (applyMark_t s)).trans (markMoved_onTime hl hb), applyMark_clk s⟩
    case early =>
      have hlt : mtcLow s < 0x1000000 := Nat.mod_lt _ (by decide)
      rw [markEdge_near hf (by omega)] at hexec
      refine ⟨_, hexec, ?_, (applyMark_clk s).1, ?_⟩
      · rw [commit_t_true, applyMark_t, markMoved_early hl hb, jumpNow_mtc, markNoted_t]
      · rw [commit_rbit, rbit_applyMark s (by decide) (by decide), markMoved_early hl hb]
        exact rbit_jumpNow_event (by omega) _
    case late =>
      rw [markEdge_near hf (by omega)] at hexec
      have ht : (applyMark s).t = (startHold (mtcLow s) (markNoted s)).t := by rw [applyMark_t, markMoved_late h1 h4 hb]
      refine ⟨_, hexec, ?_, ?_, (applyMark_clk s).1⟩ <;> rw [commit_t_true, ht] <;> rfl
    case back =>
      rw [markEdge_fallback hf, if_pos hr] at hexec
      refine ⟨_, hexec, ?_, applyMark_clk _⟩
      rw [commit_rbit, rbit_applyMark _ (by decide) (by decide), rbit_markMoved_ne (by decide), rbit_wbitAt _ _ _ _ (by decide)]
    case ignored =>
      rw [markEdge_fallback hf, hr, if_neg (by decide), commit_self hs.2] at hexec
      exact hexec
    case miss => exact ⟨_, hs.run_whenB (markDue_of ha h1 h2 h3) _, markMiss_effect s⟩

end Sys2Proof.Machine
end

section
/-! SUPPORT. What marking an event can change, said once: registers, detectors, injection points and the congestion map; no
port, no queue, nothing that waits and nothing on the pins. -/
namespace Sys2Proof.Machine

/-- A reading of the state that depends on nothing that counts, events, detectors and injection points change. -/
structure MarkStable {α : Type} (g : State → α) : Prop where
  regs : ∀ x s, g { s with regs := x } = g s
  touch : ∀ a v s, g (touch a v s) = g s
  dets : ∀ x s, g { s with dets := x } = g s
  jq : ∀ x s, g { s with jq := x } = g s
  push : ∀ x n s, g { s with pushq := x, pseq := n } = g s
  tbl : ∀ x y s, g { s with eccBad := x, tblOld := y } = g s
  awl : ∀ x s, g { s with awl := x } = g s
  tel : ∀ x s, g { s with tel := x } = g s

variable {α : Type} {g : State → α}

theorem SwitchStable.markStable (h : SwitchStable g) : MarkStable g :=
  ⟨h.regs, h.touch, h.dets, h.jq, h.push, h.tbl, h.awl, h.tel⟩

namespace MarkStable

theorem raiseStable (h : MarkStable g) : RaiseStable g where
  wr _ _ s _ := h.regs _ s
  touch := h.touch
  dets := h.dets
  jq := h.jq
  push := h.push
  tbl := h.tbl

theorem wr (h : MarkStable g) (a : Nat) (v : Word) (s : State) : g (wr a v s) = g s := h.regs _ s
theorem wrN (h : MarkStable g) (a n : Nat) (s : State) : g (wrN a n s) = g s := h.regs _ s
theorem wfld (h : MarkStable g) (a hi lo v : Nat) (s : State) : g (wfld a hi lo v s) = g s := h.regs _ s
theorem wbitAt (h : MarkStable g) (a i : Nat) (b : Bool) (s : State) : g (wbitAt a i b s) = g s := h.regs _ s
theorem ev (h : MarkStable g) (a i : Nat) (s : State) : g (ev a i s) = g s := by rw [Machine.ev, h.touch, h.wbitAt]
theorem cntBy (h : MarkStable g) (a k : Nat) (s : State) : g (cntBy a k s) = g s := by rw [Machine.cntBy, h.touch, h.wrN]
theorem cnt (h : MarkStable g) (a : Nat) (s : State) : g (cnt a s) = g s := h.cntBy a 1 s
theorem evI (h : MarkStable g) (a i b : Nat) (inj : Bool) (s : State) : g (evI a i b inj s) = g s := by
  unfold Machine.evI; split
  · rw [h.ev, h.ev]
  · rw [h.wbitAt, h.ev]
theorem modTel (h : MarkStable g) (n : Nat) (f : TelPort → TelPort) (s : State) : g (modTel n f s) = g s := h.tel _ s
theorem tblWrite (h : MarkStable g) (a : Nat) (v : Word) (s : State) : g (tblWrite a v s) = g s := by
  unfold Machine.tblWrite; rw [h.tbl, h.wr]
theorem raise (h : MarkStable g) (d : Det) (hd : d.i < 32) (s : State) : g (raise d s) = g s := h.raiseStable.raise d hd s
theorem raise_mk (h : MarkStable g) {i : Nat} {inj : Bool} {p k n e c a : Nat} (hi : i < 32) (s : State) :
    g (Machine.raise ⟨i, inj, p, k, n, e, c, a⟩ s) = g s := h.raise _ hi s

theorem awlStore (h : MarkStable g) (i : Nat) (p : AwlPoint) (s : State) : g (awlStore i p s) = g s := by
  unfold Machine.awlStore; rw [h.wbitAt, h.awl]

theorem awlFire (h : MarkStable g) (i : Nat) (p q r : Option Nat) (s : State) : g (awlFire i p q r s).1 = g s := by
  unfold Machine.awlFire
  dsimp only
  split
  · split
    · split
      · rw [h.ev, h.touch, h.awlStore]
      · rw [h.touch, h.awlStore]
    · exact h.awlStore _ _ _
  · rfl

theorem tblEccHit (h : MarkStable g) (p a : Nat) (inj : Bool) (s : State) : g (tblEccHit p a inj s) = g s := by
  unfold Machine.tblEccHit; rw [h.raise_mk (by decide), h.wrN, h.cnt]

theorem tblLookup (h : MarkStable g) (a n : Nat) (s : State) : g (tblLookup a n s).1 = g s := by
  unfold Machine.tblLookup
  dsimp only
  split
  · exact h.tblEccHit _ _ _ _
  · split
    · dsimp only
      rw [h.tblEccHit, h.awlFire]
    · exact h.awlFire _ _ _ _ _

theorem routeLookup (h : MarkStable g) (v d n : Nat) (s : State) : g (routeLookup v d n s).1 = g s := by
  unfold Machine.routeLookup
  split
  · rfl
  · exact h.tblLookup _ _ _

theorem noRoute (h : MarkStable g) (n : Nat) (c : Cell) (s : State) : g (noRoute n c s) = g s := by
  unfold Machine.noRoute; rw [h.raise_mk (by decide), h.evI, h.cnt]

theorem routeDrop (h : MarkStable g) (n k b : Nat) (inj : Bool) (c : Cell) (s : State) : g (routeDrop n k b inj c s) = g s := by
  unfold Machine.routeDrop telDisc; rw [h.raise_mk (by decide), h.modTel, h.evI, h.cnt]

theorem recountCircuits (h : MarkStable g) (s : State) : g (recountCircuits s) = g s :=
  forEach_field g _ _ (fun _ _ s => h.wrN _ _ s) s

theorem circuitLookup (h : MarkStable g) (n : Nat) (c : Cell) (s : State) : g (circuitLookup n c s).1 = g s := by
  unfold Machine.circuitLookup
  split
  · split
    · rfl
    · dsimp only
      split
      · exact h.tblLookup _ _ _
      · rw [h.recountCircuits, h.tblWrite, h.tblLookup]
  · rfl

theorem circuitFallback (h : MarkStable g) (o : Nat) (s : State) : g (circuitFallback o s) = g s := by
  unfold Machine.circuitFallback; rw [h.evI, h.cnt]

theorem cellDrop (h : MarkStable g) (n k b : Nat) (inj : Bool) (s : State) : g (cellDrop n k b inj s) = g s := by
  unfold Machine.cellDrop; rw [h.evI, h.cnt]

theorem epochTest (h : MarkStable g) (n : Nat) (c : Cell) (s : State) : g (epochTest n c s).1 = g s := by
  unfold Machine.epochTest
  have stale (inj : Bool) (s : State) : g (Machine.raise { i := 7, inj := inj, port := n, engine := wSrc c, code := wEpoch c }
      (Machine.evI R.tblFlipEvents 3 6 inj (Machine.cnt R.tblStaleCount s))) = g s := by
    rw [h.raise_mk (by decide), h.evI, h.cnt]
  have fire (s : State) : g (if (Machine.awlFire 7 (some n) none none s).2 = true then
      (Machine.raise { i := 7, inj := true, port := n, engine := wSrc c, code := wEpoch c }
        (Machine.evI R.tblFlipEvents 3 6 true (Machine.cnt R.tblStaleCount (Machine.awlFire 7 (some n) none none s).1)), false)
      else ((Machine.awlFire 7 (some n) none none s).1, true)).1 = g s := by
    split
    · exact (stale _ _).trans (h.awlFire _ _ _ _ _)
    · exact h.awlFire _ _ _ _ _
  split
  · rfl
  · dsimp only
    cases verNow s (wEpoch c) <;> dsimp only
    · exact fire s
    · exact fire s
    · split
      · split
        · rw [if_pos rfl]
          exact (fire _).trans ((h.ev _ _ _).trans (h.cnt _ _))
        · rw [if_neg Bool.false_ne_true]
          exact stale false s
      · rw [if_neg Bool.false_ne_true]
        exact stale false s

theorem branchLoss (h : MarkStable g) (st n prt r : Nat) (inj : Bool) (c : Cell) (s : State) :
    g (branchLoss st n prt r inj c s) = g s := by
  have e1 (s : State) : g (if r = rHoldFull then Machine.ev R.tblMcEvents 1 s else s) = g s := by
    split
    · exact h.ev _ _ s
    · rfl
  have e2 (s : State) : g (if 4 ≤ prt ∧ prt ≤ 30 then telDisc prt 1 inj s else s) = g s := by
    split
    · exact h.modTel _ _ s
    · rfl
  unfold Machine.branchLoss
  extract_lets s1 s2 s3 s4
  rw [h.raise _ (by dsimp only; decide)]
  exact (e2 s3).trans ((h.ev _ _ s2).trans ((e1 s1).trans ((h.evI _ _ _ _ _).trans (h.cnt _ s))))

theorem lossRecord (h : MarkStable g) (k e prt peer : Nat) (s : State) : g (lossRecord k e prt peer s) = g s := by
  unfold Machine.lossRecord
  dsimp only
  split
  · rw [h.cnt, h.wbitAt]
  · rw [h.wrN, h.cnt, h.wbitAt]

theorem laceLookup (h : MarkStable g) (v l n : Nat) (s : State) : g (laceLookup v l n s).1 = g s := by
  unfold Machine.laceLookup
  dsimp only
  split
  · exact h.tblLookup _ _ s
  · split
    · exact (h.tblLookup _ _ _).trans (h.tblLookup _ _ s)
    · exact (h.tblLookup _ _ _).trans (h.tblLookup _ _ s)

end MarkStable

theorem markStable_ports : MarkStable State.ports := by constructor <;> intros <;> rfl
theorem markStable_waiting : MarkStable State.waiting := by constructor <;> intros <;> rfl
theorem markStable_localQ : MarkStable State.localQ := by constructor <;> intros <;> rfl
theorem markStable_out : MarkStable State.out := by constructor <;> intros <;> rfl
theorem markStable_stg : MarkStable State.stg := by constructor <;> intros <;> rfl
theorem markStable_t : MarkStable State.t := switchStable_t.markStable
theorem markStable_port (n : Nat) : MarkStable (port · n) := by constructor <;> intros <;> rfl

/-- Ports are all a port reading depends on. -/
theorem port_congr {s t : State} (h : t.ports = s.ports) (n : Nat) : port t n = port s n := by rw [port, h, port]

end Sys2Proof.Machine
end

section
/-! SUPPORT. What the accesses, ends and faults of steps can change, said once: everything of the switch, streams, partitions,
chunks, accesses, captures and the store, and nothing of time, resets, boot or the serial ports. -/
namespace Sys2Proof.Machine

/-- A reading of the state that depends on nothing a write to the staging store changes. -/
structure StoreStable {α : Type} (g : State → α) : Prop extends MarkStable g where
  writes : ∀ x s, g { s with writes := x } = g s
  stgBad : ∀ x s, g { s with stgBad := x } = g s

/-- Nor on what captures change. -/
structure CaptureStable {α : Type} (g : State → α) : Prop extends StoreStable g where
  caps : ∀ x y s, g { s with caps := x, copyBuf := y } = g s

/-- A reading of the state that depends on nothing the writes of steps change, their marks on streams apart. -/
structure WriteStable {α : Type} (g : State → α) : Prop extends StoreStable g where
  out : ∀ o s, g (emit o s) = g s
  txns : ∀ x n s, g { s with txns := x, txnId := n } = g s
  pkgSet : ∀ x s, g { s with pkgSet := x } = g s

/-- Nor on what ledger entries change. -/
structure LedgerStable {α : Type} (g : State → α) : Prop extends WriteStable g where
  pars : ∀ x s, g { s with pars := x } = g s

/-- Nor on what the completion of requests changes. -/
structure AccessStable {α : Type} (g : State → α) : Prop extends LedgerStable g where
  streams : ∀ x s, g { s with streams := x } = g s
  signals : ∀ x s, g { s with signals := x } = g s

/-- A reading of the state that depends on nothing the ends of steps change. -/
structure EndStable {α : Type} (g : State → α) : Prop extends CaptureStable g where
  streams : ∀ x s, g { s with streams := x } = g s
  asms : ∀ x s, g { s with asms := x } = g s
  landed : ∀ x s, g { s with landed := x } = g s

/-- Nor on what faults of steps change; the ports are not among it. -/
structure RunStable {α : Type} (g : State → α) : Prop extends AccessStable g, EndStable g where
  stopped : ∀ w l t s, g { s with waiting := w, landed := l, tags := t } = g s
  replay : ∀ x s, g { s with replay := x } = g s

/-- A reading of the state that depends on nothing the steps of streams change. -/
structure StepStable {α : Type} (g : State → α) : Prop extends SwitchStable g, RunStable g where
  slots : ∀ x s, g { s with slots := x } = g s
  orders : ∀ x s, g { s with orders := x } = g s

variable {α : Type} {g : State → α}

/-- Settling a run leaves it, or ends it (R283). -/
theorem settleRun_eq (k rid : Nat) (s : State) : settleRun k rid s = s ∨ settleRun k rid s = endRun k rid s := by
  unfold settleRun
  split
  · exact .inl rfl
  · exact (ite_eq_or_eq _ _ _).symm

/-- The runs of check items a capture still holds are written, and its END unit is. -/
def capFlushRuns (i : Nat) (s : State) : State :=
  match capOf s i with
  | some c => forEach c.runs (capFlushRun i) s
  | none => s
def capEndUnit (i : Nat) (s : State) : State :=
  match capOf s i with
  | some c => unitWrite c.endUnit (capEndBytes c) s
  | none => s

/-- A capture that is open ends: its entries and runs are flushed and its END unit is written (R532, R537). -/
theorem capEnd_eq (c : Option Nat) (st : Nat) (inj : Bool) (s : State) : capEnd c st inj s = s ∨ ∃ i, capEnd c st inj s =
    capDrop i (capEndUnit i (modCap i (fun c => { c with
        ended := true, status := st, endedAt := mtcN (capFlushRuns i (capFlushEntries i s)), inj := c.inj || inj })
      (capFlushRuns i (capFlushEntries i s)))) := by
  unfold capEnd
  split
  · exact .inl rfl
  · split
    · exact .inl rfl
    · split
      · exact .inl rfl
      · exact .inr ⟨_, rfl⟩

/-- The anneal entries that the end of a request leaves out of range go (R395). -/
def completionExpire (n : Nat) (k : Option Nat) (q : Req) (s : State) : State :=
  match k with
  | some i => annealExpire n i q.step s
  | none => s

/-- The state in which a completion record is written: the ring's tail has advanced and the claim has ended (R296). -/
def completionTail (n : Nat) (k : Option Nat) (q : Req) (s : State) : State :=
  wrN (R.parCplTail n) ((rdN s (R.parCplTail n) + 1) % 2 ^ 32)
    (modPar n (fun p => { p with outstanding := p.outstanding - 1 }) (completionExpire n k q s))

/-- Where the completion record goes, and the signal word that follows it (R296, R298). -/
def completionAddr (s : State) (n : Nat) : Nat :=
  ringBase s (R.parCplBaseLo n) (R.parCplBaseHi n) + 32 * (rdN s (R.parCplTail n) % 2 ^ rfld s (R.parCplSize n) 4 0)
def completionSig (q : Req) (st : Nat) : Option (Nat × Nat) :=
  if q.flags.testBit 0 then some (q.sigAddr, signalValue q st) else none

/-- The write of the completion record. -/
def completionWrite (n : Nat) (k : Option Nat) (q : Req) (st : Nat) (s : State) : State × Acc :=
  localWrite none (winsOf (completionTail n k q s) n) n (completionAddr s n) (completionRecord s n k q st)
    (.completion n k (completionSig q st)) (completionTail n k q s)

/-- What follows the write: at once where it is done or has failed, at its acknowledgement where it was issued. -/
def completionAfter (n : Nat) (k : Option Nat) (q : Req) (st : Nat) (w : State × Acc) : State :=
  match w.2 with
  | .done => completionDone true n k (completionSig q st) w.1
  | .issued => w.1
  | .err _ => completionDone false n k (completionSig q st) w.1

section
variable {n : Nat} {k : Option Nat} {q : Req} {st : Nat} {w : State × Acc}

theorem completionAfter_done (h : w.2 = .done) :
    completionAfter n k q st w = completionDone true n k (completionSig q st) w.1 := by
  unfold completionAfter; rw [h]

theorem completionAfter_issued (h : w.2 = .issued) : completionAfter n k q st w = w.1 := by
  unfold completionAfter; rw [h]

theorem completionAfter_err {e : Nat} (h : w.2 = .err e) :
    completionAfter n k q st w = completionDone false n k (completionSig q st) w.1 := by
  unfold completionAfter; rw [h]
end

/-- A completion writes its record and goes on from there. `complete` is unfolded in an equation of functions: between its
application and its body the kernel would unfold the body's `match` first, and evaluate the window checks. -/
theorem complete_eq (n : Nat) (k : Option Nat) (q : Req) (st : Nat) (s : State) :
    complete n k q st s = completionAfter n k q st (completionWrite n k q st s) := by
  have unfolded : ∀ f, f = complete → f n k q st s = completionAfter n k q st (completionWrite n k q st s) := by
    intro f hf
    delta complete at hf
    subst hf
    beta_reduce
    extract_lets tail size a sig b s1 s2 r
    have hr : completionWrite n k q st s = r := rfl
    rw [hr]
    generalize r = w
    obtain ⟨s', _ | _ | e⟩ := w <;> rfl
  exact unfolded _ rfl

namespace MarkStable

theorem tblWrites (h : MarkStable g) (l : List Word) (a : Nat) (s : State) : g (tblWrites a l s) = g s := by
  induction l generalizing a s with
  | nil => rfl
  | cons v l ih => rw [Machine.tblWrites, ih, h.tblWrite]

theorem closeCircuits (h : MarkStable g) (p : Word → Bool) (s : State) : g (closeCircuits p s) = g s := by
  unfold Machine.closeCircuits
  rw [h.recountCircuits]
  apply forEach_field g
  intro _ _ s
  dsimp only
  split
  · rw [h.ev, h.tblWrite]
  · rfl

theorem closeOwned (h : MarkStable g) (k : Nat) (s : State) : g (closeOwned k s) = g s := by
  unfold Machine.closeOwned; split
  · exact h.closeCircuits _ s
  · rfl

end MarkStable

theorem StoreStable.storeWrite (h : StoreStable g) (o : Nat) (b : List Byte) (s : State) : g (storeWrite o b s) = g s := by
  rw [Machine.storeWrite, stgWrite, h.writes, h.stgBad]

namespace CaptureStable

/-! ### Captures -/

theorem modCap (h : CaptureStable g) (i : Nat) (f : Cap → Cap) (s : State) : g (modCap i f s) = g s := h.caps _ _ s

theorem unitWrite (h : CaptureStable g) (u : Nat) (b : List Byte) (s : State) : g (unitWrite u b s) = g s := h.storeWrite _ _ s

theorem capUnit (h : CaptureStable g) (i k n : Nat) (b : List Byte) (s : State) : g (capUnit i k n b s).1 = g s := by
  unfold Machine.capUnit
  dsimp only
  split
  · rw [h.modCap, h.ev, h.cnt, h.modCap]
  · rw [h.wrN, h.unitWrite, h.modCap]

theorem numberItems (h : CaptureStable g) (i t n : Nat) (skip : Nat → Bool) (s : State) : g (numberItems i t n skip s) = g s := by
  unfold Machine.numberItems
  apply forEach_field g
  intro _ _ s
  split
  · rfl
  · split
    · rfl
    · exact (h.modCap _ _ _).trans (h.caps _ _ s)

theorem capFlushEntries (h : CaptureStable g) (i : Nat) (s : State) : g (capFlushEntries i s) = g s := by
  unfold Machine.capFlushEntries
  split
  · rfl
  · split
    · rfl
    · dsimp only
      rw [h.modCap, h.numberItems, h.capUnit]

theorem capFlushRun (h : CaptureStable g) (i : Nat) (r : CapRun) (s : State) : g (capFlushRun i r s) = g s := by
  unfold Machine.capFlushRun
  dsimp only
  rw [h.numberItems, h.modCap, h.capUnit]

theorem capDrop (h : CaptureStable g) (i : Nat) (s : State) : g (capDrop i s) = g s := by
  unfold Machine.capDrop; split
  · rfl
  · exact h.caps _ _ s

theorem capFlushRuns (h : CaptureStable g) (i : Nat) (s : State) : g (capFlushRuns i s) = g s := by
  unfold Machine.capFlushRuns; split
  · exact forEach_field g _ _ (fun _ _ s => h.capFlushRun _ _ s) s
  · rfl

theorem capEndUnit (h : CaptureStable g) (i : Nat) (s : State) : g (capEndUnit i s) = g s := by
  unfold Machine.capEndUnit; split
  · exact h.unitWrite _ _ s
  · rfl

theorem capEnd (h : CaptureStable g) (c : Option Nat) (st : Nat) (inj : Bool) (s : State) : g (capEnd c st inj s) = g s := by
  rcases capEnd_eq c st inj s with e | ⟨i, e⟩ <;> rw [e]
  rw [h.capDrop, h.capEndUnit, h.modCap, h.capFlushRuns, h.capFlushEntries]

end CaptureStable

namespace WriteStable

/-! ### The store and the package -/

theorem windowFault (h : WriteStable g) (inj : Bool) (p k n o c a : Nat) (s : State) : g (windowFault inj p k n o c a s) = g s := by
  unfold Machine.windowFault; rw [h.raise _ (by dsimp only; decide), h.evI, h.cnt]

theorem badAccess (h : WriteStable g) (s : State) : g (badAccess s) = g s := by rw [Machine.badAccess, h.ev, h.cnt]

theorem txnSend (h : WriteStable g) (t : Txn) (s : State) : g (txnSend t s) = g s := by
  unfold Machine.txnSend; rw [h.out, h.pkgSet]

theorem putTxn (h : WriteStable g) (t : Txn) (s : State) : g (putTxn t s) = g s := h.txns _ _ s

theorem pkgIssue (h : WriteStable g) (a : Nat) (b : List Byte) (o : Owner) (s : State) : g (pkgIssue a b o s) = g s := by
  unfold Machine.pkgIssue
  dsimp only
  split
  · rw [h.txnSend]; exact h.txns _ _ s
  · exact h.txns _ _ s

theorem stgEccHit (h : WriteStable g) (inj : Bool) (p k n w : Nat) (s : State) : g (stgEccHit inj p k n w s) = g s := by
  unfold Machine.stgEccHit; rw [h.raise _ (by dsimp only; decide), h.wrN, h.evI, h.cnt]

end WriteStable

namespace LedgerStable

theorem modPar (h : LedgerStable g) (n : Nat) (f : Par → Par) (s : State) : g (modPar n f s) = g s := h.pars _ s

theorem ledger (h : LedgerStable g) (e : Entry) (s : State) : g (ledger e s) = g s := by
  unfold Machine.ledger
  dsimp only
  repeat' split
  all_goals simp only [h.ev, h.wrN, h.modPar, h.tblWrites]

end LedgerStable

namespace AccessStable

/-! ### Accesses and completions -/

theorem modStr (h : AccessStable g) (n : Nat) (f : Stream → Stream) (s : State) : g (modStr n f s) = g s := h.streams _ s

theorem markInj (h : AccessStable g) (k : Nat) (inj : Bool) (s : State) : g (markInj k inj s) = g s := by
  unfold Machine.markInj; split
  · exact h.modStr _ _ _
  · rfl

theorem markWho (h : AccessStable g) (x : Option Nat) (s : State) : g (markWho x s) = g s := by
  unfold Machine.markWho; split
  · exact h.markInj _ _ _
  · rfl

theorem windowCheckAt (h : AccessStable g) (p st : Nat) (x : Option Nat) (ws : List Win) (n a len : Nat) (k : WKind) (b : Bool)
    (o c : Nat) (s : State) : g (windowCheckAt p st x ws n a len k b o c s).1 = g s := by
  unfold Machine.windowCheckAt
  split
  · dsimp only
    split
    · rw [h.windowFault, h.markWho, h.awlFire]
    · exact h.awlFire _ _ _ _ _
  · exact h.windowFault _ _ _ _ _ _ _ _

theorem windowCheck (h : AccessStable g) (x : Option Nat) (ws : List Win) (n a len : Nat) (k : WKind) (b : Bool) (o c : Nat)
    (s : State) : g (windowCheck x ws n a len k b o c s).1 = g s := h.windowCheckAt _ _ _ _ _ _ _ _ _ _ _ s

theorem localWrite (h : AccessStable g) (x : Option Nat) (ws : List Win) (n a : Nat) (b : List Byte) (o : Owner) (s : State) :
    g (localWrite x ws n a b o s).1 = g s := by
  unfold Machine.localWrite
  split
  · exact h.badAccess s
  · split
    · exact h.badAccess s
    · dsimp only
      split
      · exact h.windowCheck _ _ _ _ _ _ _ _ _ s
      · split
        · rw [h.storeWrite, h.windowCheck]
        · split
          · rw [h.pkgIssue, h.windowCheck]
          · exact h.windowCheck _ _ _ _ _ _ _ _ _ s

theorem storeReadAt (h : AccessStable g) (p st : Nat) (x : Option Nat) (n o len : Nat) (s : State) :
    g (storeReadAt p st x n o len s).1 = g s := by
  unfold Machine.storeReadAt
  split
  · exact h.stgEccHit _ _ _ _ _ s
  · dsimp only
    split
    · rw [h.stgEccHit, h.markWho, h.awlFire]
    · exact h.awlFire _ _ _ _ s

theorem atomicDo (h : AccessStable g) (p st : Nat) (x : Option Nat) (n o op a c : Nat) (s : State) :
    g (atomicDo p st x n o op a c s).1 = g s := by
  unfold Machine.atomicDo
  dsimp only
  split
  · exact h.storeReadAt _ _ _ _ _ _ s
  · rw [h.storeWrite, h.storeReadAt]

theorem annealDrop (h : AccessStable g) (n d a : Nat) (x : Anneal) (s : State) : g (annealDrop n d a x s) = g s := by
  unfold Machine.annealDrop
  rw [h.ledger, h.modPar]
  split
  · exact h.modStr _ _ _
  · rfl

theorem annealExpire (h : AccessStable g) (n k st : Nat) (s : State) : g (annealExpire n k st s) = g s :=
  forEach_field g _ _ (fun _ _ s => h.annealDrop _ _ _ _ s) s

theorem completionDone (h : AccessStable g) (ok : Bool) (n : Nat) (k : Option Nat) (sig : Option (Nat × Nat)) (s : State) :
    g (completionDone ok n k sig s) = g s := by
  have idle (i : Nat) (s : State) : g (toIdle i s) = g s := h.modStr _ _ s
  unfold Machine.completionDone
  dsimp only
  cases ok <;> cases k <;> cases sig <;> simp only [if_true, if_false, Bool.false_eq_true]
  all_goals repeat' split
  all_goals simp only [idle, h.ev, h.signals]

theorem completionTail (h : AccessStable g) (n : Nat) (k : Option Nat) (q : Req) (s : State) :
    g (completionTail n k q s) = g s := by
  unfold Machine.completionTail completionExpire
  rw [h.wrN, h.modPar]
  split
  · exact h.annealExpire _ _ _ s
  · rfl

theorem completionWrite (h : AccessStable g) (n : Nat) (k : Option Nat) (q : Req) (st : Nat) (s : State) :
    g (completionWrite n k q st s).1 = g s := by
  unfold Machine.completionWrite; rw [h.localWrite, h.completionTail]

theorem complete (h : AccessStable g) (n : Nat) (k : Option Nat) (q : Req) (st : Nat) (s : State) : g (complete n k q st s) = g s := by
  have hw : g (Machine.completionWrite n k q st s).1 = g s := h.completionWrite n k q st s
  rw [complete_eq]
  generalize Machine.completionWrite n k q st s = w at hw
  cases e : w.2 with
  | done => rw [completionAfter_done e, h.completionDone, hw]
  | issued => rw [completionAfter_issued e, hw]
  | err x => rw [completionAfter_err e, h.completionDone, hw]

end AccessStable

namespace EndStable

theorem modStr (h : EndStable g) (n : Nat) (f : Stream → Stream) (s : State) : g (modStr n f s) = g s := h.streams _ s
theorem modRun (h : EndStable g) (n r : Nat) (f : Run → Run) (s : State) : g (modRun n r f s) = g s := h.modStr _ _ s
theorem giveBlocks (h : EndStable g) (k n : Nat) (s : State) : g (giveBlocks k n s) = g s := h.modStr _ _ s

/-! ### The ends of steps -/

theorem dropIncomplete (h : EndStable g) (k : Nat) (r : Run) (s : State) : g (dropIncomplete k r s) = g s := by
  unfold Machine.dropIncomplete; dsimp only; rw [h.giveBlocks, h.cntBy, h.asms]

theorem closeStep (h : EndStable g) (k : Nat) (r : Run) (s : State) : g (closeStep k r s) = g s := by
  unfold Machine.closeStep
  dsimp only
  split
  · split
    · exact (h.landed _ _).trans (h.modStr _ _ s)
    · rfl
  · exact h.modStr _ _ s

theorem endRun (h : EndStable g) (k rid : Nat) (s : State) : g (endRun k rid s) = g s := by
  unfold Machine.endRun
  split
  · rfl
  · dsimp only
    rw [h.modStr]
    split
    · rw [h.closeStep, h.dropIncomplete, h.capEnd]
    · exact h.capEnd _ _ _ s

theorem settleRun (h : EndStable g) (k rid : Nat) (s : State) : g (settleRun k rid s) = g s := by
  rcases settleRun_eq k rid s with e | e <;> rw [e]
  exact h.endRun _ _ s

theorem shardSettle (h : EndStable g) (k rid : Nat) (s : State) : g (shardSettle k rid s) = g s := by
  unfold Machine.shardSettle
  split
  · rfl
  · dsimp only
    rw [h.settleRun, h.wrN, h.modRun, h.giveBlocks]

end EndStable

namespace RunStable

/-! ### The ends of requests -/

theorem dropAsms (h : RunStable g) (k : Nat) (s : State) : g (dropAsms k s) = g s := by
  unfold Machine.dropAsms; dsimp only; rw [h.cntBy, h.asms]

theorem releaseReserve (h : RunStable g) (n k : Nat) (s : State) : g (releaseReserve n k s) = g s := by
  unfold Machine.releaseReserve; dsimp only; rw [h.modPar, h.modStr]

theorem stopStream (h : RunStable g) (k st : Nat) (s : State) : g (stopStream k st s) = g s := by
  unfold Machine.stopStream
  dsimp only
  rw [h.modStr, h.releaseReserve, h.closeOwned]
  refine (h.stopped _ _ _ _).trans ?_
  rw [h.dropAsms]
  exact forEach_field g _ _ (fun _ _ s => h.capEnd _ _ _ s) s

theorem faultStream (h : RunStable g) (k i st : Nat) (s : State) : g (faultStream k i st s) = g s := by
  unfold Machine.faultStream
  dsimp only
  split
  · rfl
  · rfl
  · rfl
  · split
    · rfl
    · rw [h.complete, h.modPar, h.modStr, h.stopStream, h.wrN]

theorem faultMem (h : RunStable g) (k i st a : Nat) (s : State) : g (faultMem k i st a s) = g s := by
  unfold Machine.faultMem; rw [h.faultStream, h.modStr]

theorem stepWriteFailed (h : RunStable g) (st k rid i a : Nat) (s : State) : g (stepWriteFailed st k rid i a s) = g s := by
  unfold Machine.stepWriteFailed; split
  · exact h.faultMem _ _ _ _ s
  · rfl

theorem sourceLoss (h : RunStable g) (k prt r : Nat) (inj : Bool) (c : Cell) (s : State) : g (sourceLoss k prt r inj c s) = g s := by
  unfold Machine.sourceLoss; rw [h.markInj, h.lossRecord, h.branchLoss]

theorem mcPorts (h : RunStable g) (k : Nat) (c : Cell) (s : State) : g (mcPorts k c s).1 = g s := by
  unfold Machine.mcPorts
  split
  · rfl
  · split
    · dsimp only
      split
      · rfl
      · exact h.sourceLoss k (21 + wStream c % 8) rPortUnusable false c s
    · dsimp only
      split
      · rw [h.sourceLoss, h.noRoute, h.laceLookup]
      · exact h.laceLookup _ _ _ s

end RunStable

namespace StepStable

/-! ### The target of one-sided requests -/

theorem injectPort_respond (h : StepStable g) (n src st opn status : Nat) (dup inj : Bool) (len check old ps : Nat) (s : State) :
    g (respond n src st opn status dup inj len check old ps s) = g s := by
  unfold Machine.respond
  dsimp only
  rw [h.injectPort]
  split
  · exact h.cnt _ s
  · rfl

theorem dropSlot (h : StepStable g) (n st opn : Nat) (s : State) : g (dropSlot n st opn s) = g s := h.slots _ s
theorem putSlot (h : StepStable g) (x : Slot) (s : State) : g (putSlot x s) = g s := h.slots _ s
theorem modOrder (h : StepStable g) (n st : Nat) (f : Order → Order) (s : State) : g (modOrder n st f s) = g s := h.orders _ s

theorem landSlot (h : StepStable g) (x : Slot) (s : State) : g (landSlot x s).1 = g s := by
  generalize hr : Machine.landSlot x s = r
  unfold Machine.landSlot at hr
  split at hr
  · rw [← hr]
  · split at hr
    · split at hr
      · extract_lets n leave q at hr
        split at hr <;> rw [← hr]
        · rw [h.modOrder, h.dropSlot, h.injectPort_respond, h.atomicDo]
        · rw [h.modOrder, h.dropSlot, h.injectPort_respond, h.modOrder, h.atomicDo]
      · rw [← hr, h.modOrder, h.dropSlot, h.injectPort_respond, h.badAccess]
    · split at hr
      · rw [← hr, h.putSlot, h.storeWrite]
      · split at hr <;> rw [← hr]
        · rw [h.putSlot, h.pkgIssue]
        · rw [h.modOrder, h.dropSlot, h.injectPort_respond]

theorem landHeld (h : StepStable g) (n st : Nat) (k : Nat) (s : State) : g (landHeld n st k s) = g s := by
  induction k generalizing s with
  | zero => rfl
  | succ k ih =>
    unfold Machine.landHeld
    dsimp only
    split
    · rfl
    · split
      · rw [ih, h.landSlot]
      · exact h.landSlot _ s

theorem putFailed (h : StepStable g) (status n st opn : Nat) (s : State) : g (putFailed status n st opn s) = g s := by
  unfold Machine.putFailed
  split
  · rfl
  · split
    · rfl
    · dsimp only
      rw [h.landHeld, h.modOrder, h.injectPort_respond, h.dropSlot]

/-! ### The end of a package write -/

/-- What follows the end of a package write for the one that issued it. -/
theorem txnOver (h : StepStable g) (ok accel : Bool) (t : Txn) (s : State) : g (txnOver ok accel t s) = g s := by
  unfold Machine.txnOver
  dsimp only
  generalize hu : (if (ok || !accel) = true then ({ s with txns := s.txns.filter (fun u => u.id != t.id) } : State)
    else ev R.memEvents 7 { s with txns := s.txns.filter (fun u => u.id != t.id) }) = u
  have e : g u = g s := by
    rw [← hu]; split
    · exact h.txns _ _ s
    · exact (h.ev _ _ _).trans (h.txns _ _ s)
  rw [← e]
  split
  case h_1 => exact h.completionDone _ _ _ _ u
  case h_2 =>
    split
    · rfl
    · exact h.ev _ _ u
  case h_3 =>
    split
    · exact h.settleRun _ _ u
    · exact h.stepWriteFailed _ _ _ _ _ u
  case h_4 =>
    split
    · rfl
    · exact h.putFailed _ _ _ _ u
  case h_5 =>
    split
    · split
      · exact h.shardSettle _ _ u
      · exact h.faultMem _ _ _ _ u
    · split
      · rfl
      · exact h.giveBlocks _ _ u
  case h_6 =>
    split
    · rfl
    · exact h.replay _ u

theorem pkgRelease (h : StepStable g) (s : State) : g (pkgRelease s) = g s := by
  unfold Machine.pkgRelease
  apply forEach_field g
  intro t _ s
  split
  · exact h.txnOver _ _ _ s
  · split
    · dsimp only
      rw [h.txnSend, h.putTxn]
    · rfl

end StepStable

theorem runStable_ports : RunStable State.ports := by
  repeat' first | exact markStable_ports | constructor
  all_goals intros; rfl
theorem runStable_port (n : Nat) : RunStable (port · n) := by
  repeat' first | exact markStable_port n | constructor
  all_goals intros; rfl
theorem stepStable_t : StepStable State.t := by constructor <;> first | exact switchStable_t | (intros; rfl)

end Sys2Proof.Machine
end

section
/-! SUPPORT. One tick of CCLK: what it counts leaves machine time and its registers alone, and how the counter moves (R51, R63). -/
namespace Sys2Proof.Machine

/-! ### Ticks of waiting and samples of the congestion map -/

section
variable {α : Type} {g : State → α}

/-- What the counts of a closing tick leave alone: all but counters and events of ports, streams, combiners and staging. -/
structure CountStable (g : State → α) : Prop where
  cntBy : ∀ a k s, 0x40000 ≤ a → g (cntBy a k s) = g s
  ev : ∀ a i s, 0x40000 ≤ a → g (ev a i s) = g s
  tel : ∀ x s, g { s with tel := x } = g s
  waits : ∀ x s, g { s with waits := x } = g s

namespace CountStable

theorem countWait (h : CountStable g) (n : Nat) (s : State) : g (countWait n s) = g s := by
  unfold Machine.countWait modTel
  rw [h.tel, cnt, h.cntBy _ _ _ (by unfold R.prtInjectWaitCount; omega)]

theorem count (h : CountStable g) (w : WaitMark) (s : State) : g (w.count s) = g s := by
  have cnt (a : Nat) (ha : 0x40000 ≤ a) (s : State) : g (cnt a s) = g s := h.cntBy a 1 s ha
  cases w with
  | window _ _ _ l => exact forEach_field g _ _ (fun _ _ s => h.countWait _ s) s
  | tag _ _ _ _ _ => exact cnt _ (by decide) s
  | copy => exact cnt _ (by decide) s
  | gate _ _ _ => exact (h.ev _ _ _ (by decide)).trans (cnt _ (by decide) s)
  | slot _ _ _ => exact (h.ev _ _ _ (by decide)).trans (cnt _ (by decide) s)

theorem countTicks (h : CountStable g) (s : State) : g (countTicks s) = g s := by
  unfold Machine.countTicks
  dsimp only
  rw [forEach_field g _ _ (fun x _ s => h.cntBy _ _ s (by unfold R.strLegWaitCount; omega))]
  have e (s : State) : g (if (slotQueue s).isEmpty then s
      else Machine.ev R.cmbEvents 4 (Machine.cntBy R.cmbSlotWaitCount (slotQueue s).length s)) = g s := by
    split
    · rfl
    · rw [h.ev _ _ _ (by decide), h.cntBy _ _ _ (by decide)]
  rw [e, forEach_field g _ _ (fun _ _ s => h.count _ s), countWaits, forEach_field g _ _ (fun _ _ s => h.countWait _ s), h.waits]

theorem telSample (h : CountStable g) (n : Nat) (s : State) : g (telSample n s) = g s := h.tel _ s
end CountStable

theorem countStable_t : CountStable State.t := ⟨fun _ _ _ _ => rfl, fun _ _ _ _ => rfl, fun _ _ => rfl, fun _ _ => rfl⟩
theorem countStable_rd {a : Nat} (ha : a < 0x40000) : CountStable (rd · a) where
  cntBy _ _ _ h := rd_cntBy_ne (by omega) _ _
  ev _ _ _ h := rd_ev_ne (by omega) _ _
  tel _ _ := rfl
  waits _ _ := rfl
end

/-- The state a tick of the counter begins from: the tick before has closed. -/
def tickClosed (s : State) : State :=
  let s := forEach (range 4 30) telSample (countTicks s)
  { s with touch := [], tblOld := [], pkgWrote := [], staged := stagedOf s, stagedNow := [] }

theorem tick_t (s : State) : (tick s).t = (tickTime (tickClosed s)).t := stepStable_t.pkgRelease _

theorem tickClosed_t (s : State) : (tickClosed s).t = s.t :=
  (forEach_field State.t _ _ (fun _ _ s => countStable_t.telSample _ s) _).trans (countStable_t.countTicks s)

theorem rd_tickClosed {a : Nat} (ha : a < 0x40000) (s : State) : rd (tickClosed s) a = rd s a :=
  (forEach_field (rd · a) _ _ (fun _ _ s => (countStable_rd ha).telSample _ s) _).trans ((countStable_rd ha).countTicks s)

theorem steers_tickClosed (s : State) : steers (tickClosed s) = steers s := by
  have hm := rd_tickClosed (a := R.mtcMode) (by decide) s
  have hs := rd_tickClosed (a := R.mtcStatus) (by decide) s
  have hb (i : Nat) : rbit (tickClosed s) R.mtcMode i = rbit s R.mtcMode i := congrArg (wbit · i) hm
  have hc (i : Nat) : rbit (tickClosed s) R.mtcStatus i = rbit s R.mtcStatus i := congrArg (wbit · i) hs
  rw [steers, sampleLocked, isRackRoot, rackLocked, hb, hb, hc, hc, tickClosed_t]
  rfl

/-! ### The counter -/

/-- A pending correction acts on the tick that opens. -/
def corrDue (s : State) : Bool := decide ((s.t.ticks + 1) % 1024 = 0) && steers s

theorem corrDue_tickClosed (s : State) : corrDue (tickClosed s) = corrDue s := by
  rw [corrDue, steers_tickClosed, tickClosed_t, corrDue]

theorem steerDue_eq (s : State) : steerDue s = (corrDue s && s.t.hold.isNone && s.t.jump == 0) := rfl

theorem tickTime_hold {s : State} {k : Nat} (h : s.t.hold = some (k + 1)) :
    (tickTime s).t = { s.t with ticks := s.t.ticks + 1, jumpFrom := none, hold := some k } := by
  simp [tickTime, holdDone, h]

/-- The tick that opens, before the counter moves. -/
def tickOpened (s : State) : State := { s with t := { s.t with ticks := s.t.ticks + 1, jumpFrom := none } }

/-- The decided jump is made. -/
def tickJumped (s : State) : State :=
  ev R.mtcEvents 3 { s with
    t := { s.t with mtc := s.t.mtc + BitVec.ofNat 64 s.t.jump, jump := 0, jumpFrom := some s.t.mtc }
    map := { s.map with jumped := true } }

theorem tickTime_of_hold_none {s : State} (h : s.t.hold = none) : tickTime s =
    if s.t.jump ≠ 0 then
      (if joinReady (tickJumped (tickOpened s)) then setJoined (tickJumped (tickOpened s)) else tickJumped (tickOpened s))
    else if corrDue s && decide (0 < s.t.corr) then
      { s with t := { (tickOpened s).t with mtc := s.t.mtc + 2, corr := s.t.corr - 1 } }
    else if corrDue s && decide (s.t.corr < 0) then { s with t := { (tickOpened s).t with corr := s.t.corr + 1 } }
    else { s with t := { (tickOpened s).t with mtc := s.t.mtc + 1 } } := by
  have hd : holdDone s = false := by simp [holdDone, h]
  have ho : (tickOpened s).t.hold = none := h
  unfold tickTime
  rw [hd, if_neg Bool.false_ne_true]
  change (match (tickOpened s).t.hold with | some k => _ | none => _) = _
  rw [ho]
  rfl

theorem tickTime_jump {s : State} (h : s.t.hold = none) (hj : s.t.jump ≠ 0) :
    (tickTime s).t.ticks = s.t.ticks + 1 ∧ (tickTime s).t.mtc = s.t.mtc + BitVec.ofNat 64 s.t.jump ∧ (tickTime s).t.jump = 0 := by
  rw [tickTime_of_hold_none h, if_pos hj]
  split
  · rw [setJoined_t]; exact ⟨rfl, rfl, rfl⟩
  · exact ⟨rfl, rfl, rfl⟩

theorem endHold_t (s : State) : (endHold s).t = { s.t with hold := none } := by
  unfold endHold
  dsimp only
  split
  · rw [setJoined_t]
  · rfl

/-- A tick that finds a hold over ends it first. -/
theorem tickTime_of_hold_done {s : State} (h : s.t.hold = some 0) : tickTime s = tickTime (endHold s) := by
  have hd : holdDone s = true := by simp [holdDone, h]
  have hd' : holdDone (endHold s) = false := by simp [holdDone, endHold_t]
  unfold tickTime
  rw [hd, hd', if_pos rfl, if_neg Bool.false_ne_true]

theorem tickTime_ticks_of_hold_none {s : State} (h : s.t.hold = none) : (tickTime s).t.ticks = s.t.ticks + 1 := by
  by_cases hj : s.t.jump = 0
  · rw [tickTime_of_hold_none h, if_neg (not_not.mpr hj)]
    split
    · rfl
    · split <;> rfl
  · exact (tickTime_jump h hj).1

theorem tickTime_ticks (s : State) : (tickTime s).t.ticks = s.t.ticks + 1 := by
  match h : s.t.hold with
  | none => exact tickTime_ticks_of_hold_none h
  | some 0 => rw [tickTime_of_hold_done h, tickTime_ticks_of_hold_none (by rw [endHold_t]), endHold_t]
  | some (k + 1) => rw [tickTime_hold h]

/-- Settles O10: a tick by the tick of the counter it opens, which what follows in the tick leaves alone. -/
theorem steering : Obligations.Steering := by
  intro s hs
  refine ⟨fun hd => ?correction, fun hh => ?hold, fun hp => ?idle⟩
  case correction =>
    refine ⟨_, hs.runT_whenB hd _, ?_⟩
    obtain ⟨⟨hc, hh⟩, hj⟩ : (corrDue s = true ∧ s.t.hold = none) ∧ s.t.jump = 0 := by simpa [steerDue_eq] using hd
    rw [commit_t_true, tick_t, tickTime_of_hold_none (by rw [tickClosed_t, hh]), tickOpened, tickClosed_t, corrDue_tickClosed, hc, hj]
    rcases Int.lt_trichotomy s.t.corr 0 with h | h | h
    · simp [h, Int.not_lt.mpr (Int.le_of_lt h)]
    · simp [h]
    · simp [h, Int.not_lt.mpr (Int.le_of_lt h)]
  case hold =>
    have hd : holdDone s = true := by simp [holdDone, hh]
    refine ⟨_, hs.runT_whenB hd _, ?_⟩
    rw [commit_t_true, endHold]
    split
    · rw [setJoined_t]; exact ⟨rfl, rfl⟩
    · exact ⟨rfl, rfl⟩
  case idle =>
    have hstep : step s = .next (commit true s (tick s)) := by
      have hw : ({ s with writes := [] } : State) = s := by rw [← hs.2]
      rw [step, hp]
      show idle s = _
      rw [idle, runPin, hw, hs.1]
      rfl
    refine ⟨_, hstep, ?_, hp, fun hh hj hd => ?_, fun k hh => ?_, fun hh hj => ?_⟩ <;> rw [commit_t_true, tick_t]
    · rw [tickTime_ticks, tickClosed_t]
    · have hc : corrDue s = false := by simpa [steerDue_eq, hh, hj] using hd
      rw [tickTime_of_hold_none (by rw [tickClosed_t, hh]), tickClosed_t, corrDue_tickClosed, hc, if_neg (not_not.mpr hj)]
      rfl
    · rw [tickTime_hold (by rw [tickClosed_t, hh]), tickClosed_t]
      exact ⟨rfl, rfl⟩
    · obtain ⟨-, hm, hz⟩ := tickTime_jump (s := tickClosed s) (by rw [tickClosed_t, hh]) (by rw [tickClosed_t]; exact hj)
      rw [hm, hz, tickClosed_t]
      exact ⟨rfl, rfl⟩

end Sys2Proof.Machine
end

section
/-! SUPPORT. A tick of a steering correction at which a write that waits for the package fails: its stream faults, and the
capture of its step ends with a unit in the staging store (R255, R294, R532). -/
namespace Sys2Proof.Machine

/-- Stream 0 runs one captured step. -/
def captureRunning : Stream :=
  { st := .running, runs := [{ rid := 0, idx := 0, rc := { opcode := 1 }, fired := 0, base := 0, bias := 0, cap := some 0 }] }

/-- A correction acts on the next tick, and a write of that step waits with no PKG port ACTIVE. -/
def steerWithWriteWaiting : State :=
  { t := { ticks := 1023, corr := 1 }
    rst := { cold := false }
    regs := [(R.rplRingSize, 1)]
    streams := [(0, captureRunning)]
    caps := [{ id := 0, stream := 0, idx := 0, part := 0, endUnit := 2 }]
    txns := [{ id := 0, addr := 0, bytes := [], owner := .step 0 0 0, issued := 0, sent := false }] }

/-- The KIND byte of the capture's END unit. -/
def captureEndKind : Nat := 0x6000000 - 16384 * 64 + 2 * 64 + 2

theorem steerWithWriteWaiting_due : steerDue steerWithWriteWaiting = true := by decide +kernel

theorem stgGet_steerWithWriteWaiting : stgGet steerWithWriteWaiting captureEndKind = 0 := by decide +kernel

theorem stgGet_commit_tick :
    stgGet (commit true steerWithWriteWaiting (tick steerWithWriteWaiting)) captureEndKind = 6 := by decide +kernel

/-- Refutes O5: on the tick of a steering correction a write of a captured step that waits for the package fails where no PKG
port is ACTIVE; its stream faults, and the END unit of the capture is written to the replay ring in the staging store. -/
theorem not_commandsThatStoreNothing : ¬ Obligations.CommandsThatStoreNothing := by
  intro h
  have hs : steerWithWriteWaiting.Ready := ⟨rfl, rfl⟩
  obtain ⟨hstg, -⟩ := h .steerIncrement _ _ hs.2 rfl (hs.runT_whenB steerWithWriteWaiting_due tick)
  have := hstg captureEndKind
  rw [stgGet_commit_tick, stgGet_steerWithWriteWaiting] at this
  exact absurd this (by decide)

end Sys2Proof.Machine
end

section
/-! SUPPORT. Roots, joining and the exchange of SYNC: what each command of time does to the ports (R59, R60, R71, R75, R76, R631). -/
namespace Sys2Proof.Machine

theorem syncPorts_nodup : syncPorts.Nodup := by decide

/-! ### What choosing roots and joining can change -/

/-- A reading of the state that depends on nothing clocks, roots and machine time change. -/
structure TimeStable {α : Type} (g : State → α) : Prop extends MarkStable g where
  t : ∀ x s, g { s with t := x } = g s
  clk : ∀ x s, g { s with clk := x } = g s
  roots : ∀ x s, g { s with roots := x } = g s

namespace TimeStable
variable {α : Type} {g : State → α}

theorem elect (h : TimeStable g) (s : State) : g (elect s) = g s := by
  unfold Machine.elect
  extract_lets r self m self2 s1 s2
  rw [h.roots]
  exact (h.wbitAt _ _ _ _).trans ((h.wbitAt _ _ _ _).trans ((h.wfld _ _ _ _ _).trans (h.wfld _ _ _ _ _)))

theorem enterStep7 (h : TimeStable g) (s : State) : g (enterStep7 s) = g s := by
  unfold Machine.enterStep7; rw [h.wbitAt, h.wfld]

theorem setJoined (h : TimeStable g) (s : State) : g (setJoined s) = g s := by
  unfold Machine.setJoined
  dsimp only
  split
  · rw [h.enterStep7, h.roots, h.wbitAt]
  · rw [h.roots, h.wbitAt]

theorem joinSample (h : TimeStable g) (w : Bool) (s : State) : g (joinSample w s) = g s := by
  unfold Machine.joinSample
  split
  · rfl
  · split
    · exact h.roots _ s
    · exact h.setJoined s

theorem steerLimit (h : TimeStable g) (inj : Bool) (n : Nat) (e : Int) (s : State) : g (steerLimit inj n e s) = g s := by
  unfold Machine.steerLimit; rw [h.raise_mk (by decide), h.evI, h.cnt]

theorem limited (h : TimeStable g) (b : Bool) (n : Nat) (e : Int) (s : State) :
    g (if b then Machine.steerLimit false n e s else s) = g s := by
  split
  · exact h.steerLimit _ _ _ _
  · rfl

theorem lockedSample (h : TimeStable g) (n : Nat) (e : Int) (s : State) : g (lockedSample n e s) = g s := by
  unfold Machine.lockedSample
  extract_lets limit ahead t s1 s2
  have e2 : g s2 = g s := (h.limited limit n e s1).trans (h.t _ s)
  rw [← e2]
  clear_value s2
  split
  · rw [joinNot, h.roots, h.ev]
  · split
    · rw [h.joinSample, h.clk]
    · split
      · exact h.joinSample _ s2
      · rfl

theorem steeredSample (h : TimeStable g) (n : Nat) (e : Int) (s : State) : g (steeredSample n e s) = g s := by
  unfold Machine.steeredSample
  extract_lets ahead s2
  have e2 : g s2 = g s := h.limited (overLimit s e) n e s
  rw [← e2]
  clear_value s2
  split
  · rw [h.joinSample]; exact h.t _ s2
  · split
    · split
      · rw [joinNot, h.roots, h.ev]; exact h.t _ s2
      · rw [h.joinSample]; exact h.t _ s2
    · rw [h.joinSample]; exact h.t _ s2

end TimeStable

theorem timeStable_ports : TimeStable State.ports := by
  constructor <;> first | exact markStable_ports | (intros; rfl)

/-! ### SYNC received (R60) -/

theorem echo_modPort {n : Nat} {f : Port → Port} (hf : ∀ p, (f p).echo = p.echo) (s : State) :
    (port (modPort n f s) n).echo = (port s n).echo := by rw [port_modPort_self, hf]

/-- A sample renews the round trip time of its port, and changes nothing else of any port. -/
theorem echo_syncSample (n tx echo res : Nat) (s : State) : (port (syncSample n tx echo res s) n).echo = (port s n).echo := by
  unfold syncSample
  extract_lets rx rtt bad good
  clear_value good
  split
  · rfl
  · rename_i x
    extract_lets u delay e v f
    have hv : v.ports = u.ports := rfl
    have hf : f.1.ports = v.ports := by
      unfold f
      split
      · rfl
      · exact markStable_ports.awlFire _ _ _ _ _
    have hu : (port u n).echo = (port s n).echo := echo_modPort (f := fun p => { p with rtt := some x }) (fun _ => rfl) s
    rw [← hu]
    refine congrArg Port.echo (port_congr ?_ n)
    split
    · rw [timeStable_ports.steerLimit, hf, hv]
    · split
      · rw [timeStable_ports.lockedSample, hf, hv]
      · rw [timeStable_ports.steeredSample, hf, hv]

/-- A SYNC received leaves its TX_TIME and its arrival to be echoed (R60). -/
theorem echo_syncReceive (n : Nat) (c : Cell) (s : State) :
    (port (syncReceive n c s) n).echo = some (BitVec.ofNat 64 (fieldBE c.payload 0 8), s.t.mtc) := by
  unfold syncReceive
  extract_lets p tx s1 o sameRack cfg mcfg rootConflict modeConflict roots s2 s3 s4 s5
  have h1 : (port s1 n).echo = some (BitVec.ofNat 64 (fieldBE c.payload 0 8), s.t.mtc) := congrArg Port.echo (port_modPort_self _ _ _)
  have h2 : s2.ports = s1.ports := by
    unfold s2
    split
    · exact markStable_ports.wbitAt _ _ _ _
    · rfl
  have h3 : (port s3 n).echo = (port s2 n).echo := by
    unfold s3
    split
    · rfl
    · exact echo_modPort (f := fun q => { q with offer := some o }) (fun _ => rfl) s2
  have h4 : s4.ports = s3.ports := timeStable_ports.elect s3
  have h5 : s5.ports = s4.ports := by
    unfold s5
    clear_value s4
    split
    · rw [markStable_ports.wbitAt, markStable_ports.wbitAt]
    · rfl
  have h : (port s5 n).echo = some (BitVec.ofNat 64 (fieldBE c.payload 0 8), s.t.mtc) := by
    rw [port_congr h5, port_congr h4, h3, port_congr h2, h1]
  clear_value s5
  split
  · rw [echo_syncSample, h]
  · exact h

/-! ### SYNC sent (R59, R60) -/

/-- What the sending of a SYNC reads and changes of its port. -/
def syncView (p : Port) : PState × Nat × Nat := (p.st, p.seq, p.qVc3.length)

/-- A SYNC is queued where the port is ACTIVE and its VC3 queue has room. -/
def syncViewAfter (v : PState × Nat × Nat) : PState × Nat × Nat :=
  if v.1 = .active ∧ 0 < 2 - v.2.2 then (v.1, (v.2.1 + 1) % 256, v.2.2 + 1) else v

theorem syncView_eq {p : Port} {v : PState × Nat × Nat} (h : syncView p = v) : p.seq = v.2.1 ∧ p.qVc3.length = v.2.2 := by
  subst h; exact ⟨rfl, rfl⟩

theorem port_resume_ne {n m : Nat} (h : m ≠ n) (r : Bool) (s : State) : port (resume n r s) m = port s m := by
  have hp := markStable_port m
  have out (o : Out) (s : State) : port (emit o s) m = port s m := rfl
  unfold resume
  dsimp only
  split
  · rw [port_modPort_ne h]
    split
    · rw [out]
      split
      · rw [out, hp.cnt, hp.ev]
      · exact hp.ev _ _ s
    · split
      · rw [out, hp.cnt, hp.ev]
      · exact hp.ev _ _ s
  · rfl

theorem port_enqueue_ne {n m : Nat} (h : m ≠ n) (k : QCls) (c : Cell) (s : State) : port (enqueue n k c s) m = port s m := by
  unfold enqueue
  dsimp only
  split
  · rw [port_resume_ne h, port_modPort_ne h]
  · exact port_modPort_ne h _ s

theorem port_syncQueue_ne {n m : Nat} (h : m ≠ n) (s : State) : port (syncQueue n s) m = port s m := by
  unfold syncQueue
  split
  · split
    · rw [port_enqueue_ne h, port_modPort_ne h]
    · rfl
  · rfl

theorem enqueue_of_not_doze {n : Nat} {s : State} (h : (port s n).st ≠ .doze) (k : QCls) (c : Cell) :
    enqueue n k c s = modPort n (fun p => putQueue k (queue p k ++ [c]) p) s := by
  unfold enqueue
  dsimp only
  rw [port_modPort_self]
  have : (putQueue k (queue (port s n) k ++ [c]) (port s n)).st = (port s n).st := by cases k <;> rfl
  rw [this, if_neg (by simpa using h)]

theorem syncView_syncQueue (n : Nat) (s : State) :
    syncView (port (syncQueue n s) n) = syncViewAfter (syncView (port s n)) := by
  unfold syncQueue syncViewAfter syncView
  by_cases ha : (port s n).st = .active
  · by_cases hq : 0 < queueFree s n .vc3
    · rw [if_pos (by simp [ha]), if_pos hq, enqueue_of_not_doze (by simp [ha]), if_pos ⟨ha, hq⟩]
      simp [putQueue, queue]
    · rw [if_pos (by simp [ha]), if_neg hq, if_neg (fun h => hq h.2)]
  · rw [if_neg (by simpa using ha), if_neg (fun h => ha h.1)]

theorem syncView_opSyncSend {n : Nat} (hn : n ∈ syncPorts) (s : State) :
    syncView (port (opSyncSend s) n) = syncViewAfter (syncView (port s n)) := by
  unfold opSyncSend
  extract_lets s1 names roots s2
  have h2 : s2.ports = s.ports := by
    refine Eq.trans ?_ (timeStable_ports.elect s)
    unfold s2; split <;> rfl
  rw [forEach_at (fun s => syncView (port s n)) syncQueue n syncPorts syncPorts_nodup hn syncViewAfter
    (fun a _ h s => congrArg syncView (port_syncQueue_ne h.symm s)) (syncView_syncQueue n), port_congr h2]

/-! ### Offers dropped (R71) -/

/-- The offers not heard for 4 sync periods. -/
def dropOld (n : Nat) (s : State) : State := if offerOld s n then modPort n (fun p => { p with offer := none }) s else s

theorem port_dropOld_ne {n m : Nat} (h : m ≠ n) (s : State) : port (dropOld n s) m = port s m := by
  unfold dropOld; split
  · exact port_modPort_ne h _ s
  · rfl

theorem offerOld_congr {s t : State} {n : Nat} (hp : port t n = port s n) (hn : now t = now s) : offerOld t n = offerOld s n := by
  rw [offerOld, offerOld, hp, hn]

/-- Whether port `n` holds an old offer, and whether it holds none. -/
def offerView (n : Nat) (s : State) : Bool × Bool := (offerOld s n, (port s n).offer.isNone)

theorem offer_of_offerView {n : Nat} {s : State} {b : Bool} (h : offerView n s = (b, true)) : (port s n).offer = none :=
  Option.isNone_iff_eq_none.mp (Prod.mk.inj h).2

theorem offerView_dropOld_self (n : Nat) (s : State) :
    offerView n (dropOld n s) = if (offerView n s).1 then (false, true) else offerView n s := by
  unfold dropOld
  by_cases h : offerOld s n = true
  · rw [if_pos h, if_pos (show (offerView n s).1 = true from h)]
    simp [offerView, offerOld]
  · rw [if_neg h, if_neg (show ¬ (offerView n s).1 = true from h)]

theorem offerView_dropOld_ne {n m : Nat} (h : n ≠ m) (s : State) : offerView m (dropOld n s) = offerView m s := by
  have hp := port_dropOld_ne h.symm s
  have hn : now (dropOld n s) = now s := by unfold dropOld; split <;> rfl
  rw [offerView, offerOld_congr hp hn, hp, offerView]

theorem offer_opRootLost {n : Nat} (hn : n ∈ syncPorts) {s : State} (h : offerOld s n = true) :
    (port (opRootLost s) n).offer = none := by
  have hd : (port (forEach syncPorts dropOld s) n).offer = none := by
    have e := forEach_at (offerView n) dropOld n syncPorts syncPorts_nodup hn (fun v => if v.1 then (false, true) else v)
      (fun a _ ha s => offerView_dropOld_ne ha s) (offerView_dropOld_self n) s
    rw [if_pos (show (offerView n s).1 = true from h)] at e
    exact offer_of_offerView e
  unfold opRootLost
  extract_lets r m s1 s2 lost
  have h2 : port s2 n = port s1 n := port_congr ((timeStable_ports.elect _).trans (timeStable_ports.roots _ s1)) n
  have h1 : (port s1 n).offer = none := hd
  rw [← h1, ← h2]
  clear_value s2
  split
  · exact congrArg Port.offer (port_congr (markStable_ports.wbitAt _ _ _ _) n)
  · rfl

/-- Settles O11: each command of roots by the bit it writes; the exchange of SYNC by what it does to its port alone. -/
theorem rootsJoiningAndSync : Obligations.RootsJoiningAndSync := by
  constructor
  case left =>
    intro s hs
    refine ⟨fun hc => ?conflict, fun ho => ?lost, fun hj => ?selfJoin, fun hi => ?island⟩
    case conflict =>
      refine ⟨_, hs.run_whenB hc _, ?_, rfl⟩
      rw [commit_rbit, opModeConflictClear, rbit_wbitAt _ _ _ _ (by decide)]
    case lost =>
      exact ⟨_, hs.run_whenB (by rw [ho, Bool.or_true]) _, fun n hn h => offer_opRootLost hn h⟩
    case selfJoin => exact ⟨_, hs.run_whenB hj _, (commit_rbit _ _ _ _ _).trans (setJoined_status s)⟩
    case island =>
      refine ⟨_, hs.run_whenB hi _, (commit_rbit _ _ _ _ _).trans (setJoined_status _), ?_⟩
      rw [commit_rbit, opIsland, setJoined_other _ _ _ (by decide) (by decide), rbit_wbitAt _ _ _ _ (by decide)]
  case right =>
    intro s hs
    refine ⟨fun hd => ?send, fun n b c s1 hn hr ht ha => ?receive⟩
    case send =>
      refine ⟨_, hs.run_whenB (decide_eq_true hd) _, fun n hn hst hq => ?_⟩
      have h := syncView_opSyncSend hn s
      rw [syncViewAfter, if_pos ⟨hst, hq⟩] at h
      rw [commit_port]
      exact syncView_eq h
    case receive =>
      refine ⟨_, hs.runT_whenB (by simp [hr, ht]) _, ?_⟩
      have hsvc : ¬ (n = 19 ∨ n = 20) := by
        rintro (rfl | rfl) <;> exact absurd hn (by decide)
      rw [commit_port, opSync, ha]
      dsimp only
      rw [if_neg hsvc]
      exact echo_syncReceive n c s1

end Sys2Proof.Machine
end

section
/-! SUPPORT. Reads of 64-bit values over an access path, and of the ledger's last words (R82–R84, R396, R627). -/
namespace Sys2Proof.Machine

/-! ### The two halves of a pair -/

section
variable {p : Path} {a : Nat} {s : State}

/-- A read of a low half latches the high half for its path. -/
theorem regRead_low {h : Nat} (hk : regKind a = some .ro) (hl : isLatch a = false) (hh : latchedHalf s a = some h)
    (hm : isTblMem a = false) (hg : ledgerLast a = none) :
    (regRead p a s).1 = { s with latches := tset (latchKey a p) (BitVec.ofNat 32 h) s.latches } := by
  simp [regRead, hk, hl, hh, hm, hg]

/-- A read of a high half answers what its path has latched. -/
theorem regRead_high (hk : regKind a = some .ro) (hl : isLatch a = true) :
    (regRead p a s).2.1 = tget 0 (latchKey (a - 4) p) s.latches := by
  simp [regRead, hk, hl]

theorem latchKey_ne {q : Path} (h : q ≠ p) (a : Nat) : latchKey a q ≠ latchKey a p := by
  cases p <;> cases q <;> simp_all [latchKey]
end

/-- A read of the low half of a pair latches the high half, for its access path alone (R82, R627). -/
theorem pair_latched {lo hi h : Nat} {s t : State} {p : Path} (hk : regKind hi = some .ro) (hl : isLatch hi = true) (hp : hi - 4 = lo)
    (ht : t.latches = tset (latchKey lo p) (BitVec.ofNat 32 h) s.latches) :
    (regRead p hi t).2.1 = BitVec.ofNat 32 h ∧ ∀ q, q ≠ p → (regRead q hi t).2.1 = (regRead q hi s).2.1 := by
  subst hp
  refine ⟨?_, fun q hq => ?_⟩
  · rw [regRead_high hk hl, ht, tget_tset_self]
  · rw [regRead_high hk hl, regRead_high hk hl, ht, tget_tset_ne _ (latchKey_ne hq _)]

/-! ### STRn_BASE_LO and STRn_BASE_HI -/

theorem regKind_str {a : Nat} (h1 : 0xA0000 ≤ a) (h2 : a < 0xB0000) (h4 : a % 4 = 0) : regKind a = strKind (a % 0x100) := by
  unfold regKind
  rw [if_neg (by omega), if_neg (by omega), if_neg (by omega), if_neg (by omega), if_neg (by omega), if_pos h2]

section
variable {k : Nat} (hk : k < 256)
include hk

theorem regKind_strBaseLo : regKind (R.strBaseLo k) = some .ro := by
  have h : R.strBaseLo k % 0x100 = 8 := by unfold R.strBaseLo; omega
  rw [regKind_str (by unfold R.strBaseLo; omega) (by unfold R.strBaseLo; omega) (by omega), h]
  rfl

theorem regKind_strBaseHi : regKind (R.strBaseHi k) = some .ro := by
  have h : R.strBaseHi k % 0x100 = 0xC := by unfold R.strBaseHi; omega
  rw [regKind_str (by unfold R.strBaseHi; omega) (by unfold R.strBaseHi; omega) (by omega), h]
  rfl

theorem isLatch_strBaseLo : isLatch (R.strBaseLo k) = false := by
  unfold isLatch R.strBaseLo R.mtcNowHi R.telWindowHi
  exact decide_eq_false (by omega)

theorem isLatch_strBaseHi : isLatch (R.strBaseHi k) = true := by
  unfold isLatch R.strBaseHi R.mtcNowHi R.telWindowHi
  exact decide_eq_true (by omega)

theorem latchedHalf_strBaseLo (s : State) : latchedHalf s (R.strBaseLo k) = some ((str s k).base / 2 ^ 32) := by
  have hd : (R.strBaseLo k - 0xA0000) / 0x100 = k := by unfold R.strBaseLo; omega
  unfold latchedHalf
  rw [if_neg (by unfold R.strBaseLo R.mtcNowLo; omega), if_neg (by unfold R.strBaseLo R.telWindowLo; omega),
    if_pos (by unfold R.strBaseLo; omega), hd]

theorem isTblMem_strBaseLo : isTblMem (R.strBaseLo k) = false := by
  unfold isTblMem R.strBaseLo; simp; omega

theorem ledgerLast_strBaseLo : ledgerLast (R.strBaseLo k) = none := by
  unfold ledgerLast R.strBaseLo; exact if_neg (by omega)
end

/-! ### The last word of a ledger entry -/

section
variable {n e : Nat}

theorem isLatch_ledgerLast : isLatch (R.ledgerWord n (8 * e + 7)) = false := by
  unfold isLatch R.ledgerWord R.mtcNowHi R.telWindowHi
  exact decide_eq_false (by omega)

theorem latchedHalf_ledgerLast (s : State) : latchedHalf s (R.ledgerWord n (8 * e + 7)) = none := by
  unfold latchedHalf R.ledgerWord R.mtcNowLo R.telWindowLo
  rw [if_neg (by omega), if_neg (by omega), if_neg (by omega)]

variable (hn : n < 16) (he : e < 256)
include hn he

theorem regKind_ledgerLast : regKind (R.ledgerWord n (8 * e + 7)) = some .ro := by
  have ha : isTableWord (R.ledgerWord n (8 * e + 7)) = false := by unfold isTableWord R.ledgerWord; simp; omega
  have hm : isTblMem (R.ledgerWord n (8 * e + 7)) = true := by unfold isTblMem R.ledgerWord; simp; omega
  unfold regKind
  rw [if_neg (by unfold R.ledgerWord; omega), if_neg (by unfold R.ledgerWord; omega), if_neg (by unfold R.ledgerWord; omega),
    if_neg (by unfold R.ledgerWord; omega), if_neg (by unfold R.ledgerWord; omega), if_neg (by unfold R.ledgerWord; omega),
    if_neg (by unfold R.ledgerWord; omega), if_neg (by unfold R.ledgerWord; omega), if_neg (by unfold R.ledgerWord; omega),
    if_neg (by unfold R.ledgerWord; omega), if_neg (by unfold R.ledgerWord; omega), memoryKind, ha, hm,
    if_neg Bool.false_ne_true, if_neg (by unfold R.ledgerWord; omega), if_pos rfl]

theorem ledgerLast_ledgerLast : ledgerLast (R.ledgerWord n (8 * e + 7)) = some (n, e) := by
  unfold ledgerLast R.ledgerWord
  rw [if_pos (by omega)]
  congr 2 <;> omega

theorem regRead_ledgerLast {s : State} (hecc : R.ledgerWord n (8 * e + 7) ∉ s.eccBad) (p : Path) :
    (regRead p (R.ledgerWord n (8 * e + 7)) s).1 = ledgerSeen n e s := by
  simp [regRead, regKind_ledgerLast hn he, isLatch_ledgerLast, latchedHalf_ledgerLast, ledgerLast_ledgerLast hn he, hecc]
end

theorem commit_latches (b : Bool) (s0 s1 : State) : (commit b s0 s1).latches = s1.latches := rfl

/-- The low half of MTC_NOW itself. -/
theorem regRead_mtcNowLo (p : Path) (s : State) : (regRead p R.mtcNowLo s).2.1 = BitVec.ofNat 32 (mtcN s) := by
  have hk : regKind R.mtcNowLo = some .ro := rfl
  have hl : isLatch R.mtcNowLo = false := by decide
  have hv : showReg s R.mtcNowLo = some (mtcN s % 2 ^ 32) := rfl
  have hm : isTblMem R.mtcNowLo = false := by decide
  have hg : ledgerLast R.mtcNowLo = none := by decide
  have hw : BitVec.ofNat 32 (mtcN s % 2 ^ 32) = BitVec.ofNat 32 (mtcN s) := BitVec.eq_of_toNat_eq (by simp)
  simp only [regRead, hk, hl, hv, hm, hg, hw]
  simp

/-- The capture of the whole MTC (R84). -/
theorem opMtcSnap_halves (s : State) :
    rdN (opMtcSnap s) R.mtcSnapLo + 2 ^ 32 * rdN (opMtcSnap s) R.mtcSnapHi = mtcN s := by
  have hlt : mtcN s < 2 ^ 64 := s.t.mtc.isLt
  rw [opMtcSnap, rdN_wrN, rdN_wrN_ne (by decide), rdN_wrN]
  omega

/-- Settles O12: every read of a low half writes the latch of its path, which a read of the high half answers. -/
theorem latchedReads : Obligations.LatchedReads := by
  intro s hs
  refine ⟨fun p => ?now, fun p k hk => ?base, fun p => ?window, ?snap, fun p n e hn he hecc => ?ledger⟩
  case now =>
    have hl := regRead_low (p := p) (a := R.mtcNowLo) (s := s) (h := mtcN s / 2 ^ 32) rfl (by decide) rfl (by decide) (by decide)
    refine ⟨_, hs.run _, rfl, ?_, regRead_mtcNowLo p s, pair_latched (lo := R.mtcNowLo) rfl (by decide) (by decide) ?_⟩
    · rw [commit_regs, hl]
    · rw [commit_latches, hl]
  case base =>
    have hl := regRead_low (p := p) (s := s) (regKind_strBaseLo hk) (isLatch_strBaseLo hk) (latchedHalf_strBaseLo hk s)
      (isTblMem_strBaseLo hk) (ledgerLast_strBaseLo hk)
    refine ⟨_, hs.run_whenB (decide_eq_true hk) _, ?_, pair_latched (lo := R.strBaseLo k) (regKind_strBaseHi hk) (isLatch_strBaseHi hk) ?_ ?_⟩
    · rw [commit_regs, hl]
    · unfold R.strBaseHi R.strBaseLo; omega
    · rw [commit_latches, hl]
  case window =>
    have hl := regRead_low (p := p) (a := R.telWindowLo) (s := s) (h := s.map.last / 2 ^ 32) rfl (by decide) rfl (by decide) (by decide)
    refine ⟨_, hs.run _, ?_, pair_latched (lo := R.telWindowLo) rfl (by decide) (by decide) ?_⟩
    · rw [commit_regs, hl]
    · rw [commit_latches, hl]
  case snap => exact ⟨_, hs.run _, rfl, opMtcSnap_halves s⟩
  case ledger =>
    refine ⟨_, hs.run_whenB (decide_eq_true ⟨hn, he⟩) _, ?_, ?_⟩
    · rw [commit_regs, regRead_ledgerLast hn he hecc]; rfl
    · rw [commit_par, regRead_ledgerLast hn he hecc, ledgerSeen, par_modPar_self]

end Sys2Proof.Machine
end

section
/-! SUPPORT. A management write to PARn_CPL_HEAD on a tick on which the package has written it too (R267). -/
namespace Sys2Proof.Machine

/-- The package has written 7 to PAR0_CPL_HEAD on this tick. -/
def cplHeadWritten : State :=
  pkgRegWrite (R.parCplHead 0) 7 { rst := { cold := false } }

theorem cplHeadWritten_ready : cplHeadWritten.Ready := ⟨rfl, rfl⟩

/-- The management write is applied first, and the package's after it. -/
theorem rd_regWrite_cplHeadWritten : rd (regWrite .mgt (R.parCplHead 0) 5 cplHeadWritten).1 (R.parCplHead 0) = 7 := by
  decide +kernel

/-- Refutes O13: PAR0_CPL_HEAD is an immediate register that the package writes too; a management write of 5 on the tick of
a package write of 7 is applied first (R267), and leaves 7. -/
theorem not_registerAndTableWrites : ¬ Obligations.RegisterAndTableWrites := by
  rintro ⟨h, -⟩
  obtain ⟨-, hrw, -⟩ := h cplHeadWritten .mgt (R.parCplHead 0) 5 cplHeadWritten_ready (.inl (by decide))
  obtain ⟨t, ht, hv, -⟩ := hrw fWord rfl (.inr (by decide))
  rw [exec_registerWrite cplHeadWritten_ready] at ht
  obtain rfl := Host.Outcome.next.inj ht
  rw [commit_rd, viaOf, rd_regWrite_cplHeadWritten] at hv
  exact absurd hv (by decide +kernel)

end Sys2Proof.Machine
end

section
/-! SUPPORT. Flips: arming, the flip itself, which looks waiting cells up afresh, and the end of its drain (R439–R444). -/
namespace Sys2Proof.Machine

namespace StepStable
variable {α : Type} {g : State → α}

/-- The cell is named before the tests on it are split: the kernel would evaluate its fields between two forms of a test. -/
theorem relook (h : StepStable g) (l : List Waiting) (w : Waiting) (s : State) : g (relook l w s) = g s := by
  unfold Machine.relook
  obtain ⟨c, hc⟩ : ∃ c, setWelt 37 37 s.ep.inj w.cell = c := ⟨_, rfl⟩
  rw [hc]
  dsimp only
  split
  · exact h.waiting _ s
  · split
    · split
      · unfold relookCopies
        exact (h.waiting _ _).trans (h.mcPorts _ _ s)
      · rfl
    · split
      · rw [h.cellLost, h.injectRoute]
      · exact (h.waiting _ _).trans (h.injectRoute _ _ s)

end StepStable

theorem stepStable_ep : StepStable State.ep := by constructor <;> first | exact switchStable_ep | (intros; rfl)

/-! ### Arming -/

theorem flipAt_armed (v : Word) (s : State) : flipAt (wr R.tblFlipAtHi v s) = rdN s R.tblFlipAtLo + v.toNat * 2 ^ 32 := by
  rw [flipAt, rdN_wr_ne (by decide), rdN_eq_toNat_rd _ R.tblFlipAtHi, rd_wr_self]

theorem mtcN_wr (a : Nat) (v : Word) (s : State) : mtcN (wr a v s) = mtcN s := by rw [mtcN, wr_t, mtcN]

/-- What an arming does with TBL_FLIP_AT_HI written, and the flip tick it finds. -/
theorem flipArm_eq (v : Word) (s : State) : flipArm v s =
    if mtcN (wr R.tblFlipAtHi v s) + 1024 ≤ flipAt (wr R.tblFlipAtHi v s)
        ∧ ((wr R.tblFlipAtHi v s).ep.draining = false ∨ (wr R.tblFlipAtHi v s).ep.drainEnd.toNat ≤ flipAt (wr R.tblFlipAtHi v s)) then
      ({ wr R.tblFlipAtHi v s with
        ep := { (wr R.tblFlipAtHi v s).ep with armed := some (BitVec.ofNat 64 (flipAt (wr R.tblFlipAtHi v s))) } }, .ok)
    else (ev R.tblFlipEvents 1 (wr R.tblFlipAtHi v s), .ok) := rfl

section
variable {v : Word} {s : State} {f : Nat}

/-- An arming in time, and not before the end of a drain. -/
theorem flipArm_accepted (hf : f = rdN s R.tblFlipAtLo + v.toNat * 2 ^ 32) (h1 : mtcN s + 1024 ≤ f)
    (h2 : s.ep.draining = false ∨ s.ep.drainEnd.toNat ≤ f) :
    (flipArm v s).1 = { wr R.tblFlipAtHi v s with ep := { s.ep with armed := some (BitVec.ofNat 64 f) } } := by
  rw [flipArm_eq, flipAt_armed, ← hf, mtcN_wr, wr_ep, if_pos ⟨h1, h2⟩]

theorem flipArm_early (h : rdN s R.tblFlipAtLo + v.toNat * 2 ^ 32 < mtcN s + 1024) :
    (flipArm v s).1 = ev R.tblFlipEvents 1 (wr R.tblFlipAtHi v s) := by
  rw [flipArm_eq, flipAt_armed, mtcN_wr, if_neg (fun hc => Nat.not_le.mpr h hc.1)]
end

/-! ### The flip -/

/-- The epochs after a flip at `f` (R442). -/
def epochFlipped (s : State) (f : W64) : EpochS :=
  { s.ep with
    inj := 1 - s.ep.inj, draining := true, drainF := f, drainEnd := f + BitVec.ofNat 64 (rfld s R.tblDrain 19 0), armed := none
    flips := (s.ep.flips + 1) % 256 }

/-- A drain that ends on the flip tick has ended (R444). -/
def drainClosed (s : State) : State := if drainDue s then drainEnd s else s

theorem drainClosed_tblDrain (s : State) : rfld (drainClosed s) R.tblDrain 19 0 = rfld s R.tblDrain 19 0 := by
  unfold drainClosed
  split
  · exact (rfld_ev_ne (by decide) _ _ _ _).trans rfl
  · rfl

theorem epochFlipped_drainClosed (s : State) (f : W64) : epochFlipped (drainClosed s) f = epochFlipped s f := by
  rw [epochFlipped, drainClosed_tblDrain, epochFlipped]
  unfold drainClosed
  split <;> rfl

/-- The registers a flip applies leave the epochs. -/
theorem ep_stagedApplied (l : List (Nat × Word)) (s : State) : (forEach l (fun e s => wr e.1 e.2 s) s).ep = s.ep :=
  forEach_field State.ep (fun e s => wr e.1 e.2 s) l (fun _ _ _ => rfl) s

theorem flip_ep {s : State} {f : W64} (h : s.ep.armed = some f) : (flip s).ep = epochFlipped s f := by
  rw [← epochFlipped_drainClosed]
  unfold flip
  rw [h]
  dsimp only
  rw [forEach_field State.ep _ _ (fun w _ s => stepStable_ep.relook _ w s)]
  simp only [ev_ep, capFlip, ep_stagedApplied]
  rfl

/-- Settles O14: arming by its one test, the flip by the epochs it leaves, which looking waiting cells up afresh keeps. -/
theorem flips : Obligations.Flips := by
  constructor
  case left =>
    intro s v hs
    refine ⟨fun f hf h1 h2 => ?armed, fun f hf h => ?refused, fun hd => ?disarmed, fun hd => ?drained⟩
    case armed =>
      refine ⟨_, hs.run _, ?_⟩
      rw [flipArm_accepted hf h1 h2]
      exact ⟨rfl, rd_wr_self _ _ _, rfl⟩
    case refused =>
      refine ⟨_, hs.run _, ?_⟩
      rw [flipArm_early (hf ▸ h)]
      refine ⟨rfl, ?_, ?_⟩
      · rw [commit_rbit, rbit_ev _ _ _ (by decide)]
      · rw [commit_rd, rd_ev_ne (by decide), rd_wr_self]
    case disarmed =>
      refine ⟨_, hs.run _, ?_⟩
      rw [flipDisarm, hd]
      exact ⟨rfl, rfl⟩
    case drained =>
      refine ⟨_, hs.run_whenB hd _, rfl, rfl, ?_⟩
      rw [commit_rbit, drainEnd, rbit_ev _ _ _ (by decide)]
  case right =>
    intro s f hs hf hd
    have he : (commit false s (flip s)).ep = epochFlipped s f := flip_ep hf
    exact ⟨_, hs.run_whenB hd _, by rw [he]; exact ⟨rfl, rfl, rfl, rfl, rfl, rfl, rfl⟩⟩

end Sys2Proof.Machine
end

section
/-! SUPPORT. The release of a partition and the adoption of an ID (R428–R432). -/
namespace Sys2Proof.Machine

@[simp] theorem commit_mgr (b : Bool) (s0 s1 : State) : (commit b s0 s1).mgr = s1.mgr := rfl
@[simp] theorem commit_mgt (b : Bool) (s0 s1 : State) : (commit b s0 s1).mgt = s1.mgt := rfl
@[simp] theorem commit_fl (b : Bool) (s0 s1 : State) : (commit b s0 s1).fl = s1.fl := rfl
@[simp] theorem commit_boot (b : Bool) (s0 s1 : State) : (commit b s0 s1).boot = s1.boot := rfl
@[simp] theorem commit_rst (b : Bool) (s0 s1 : State) : (commit b s0 s1).rst = s1.rst := rfl
@[simp] theorem commit_out (b : Bool) (s0 s1 : State) : (commit b s0 s1).out = s1.out := rfl
@[simp] theorem commit_waiting (b : Bool) (s0 s1 : State) : (commit b s0 s1).waiting = s1.waiting := rfl
@[simp] theorem commit_hold (b : Bool) (s0 s1 : State) : (commit b s0 s1).hold = s1.hold := rfl
@[simp] theorem commit_notices (b : Bool) (s0 s1 : State) : (commit b s0 s1).notices = s1.notices := rfl
@[simp] theorem commit_asms (b : Bool) (s0 s1 : State) : (commit b s0 s1).asms = s1.asms := rfl
@[simp] theorem commit_landed (b : Bool) (s0 s1 : State) : (commit b s0 s1).landed = s1.landed := rfl
@[simp] theorem commit_receipts (b : Bool) (s0 s1 : State) : (commit b s0 s1).receipts = s1.receipts := rfl
@[simp] theorem commit_tags (b : Bool) (s0 s1 : State) : (commit b s0 s1).tags = s1.tags := rfl
@[simp] theorem commit_slots (b : Bool) (s0 s1 : State) : (commit b s0 s1).slots = s1.slots := rfl
@[simp] theorem commit_orders (b : Bool) (s0 s1 : State) : (commit b s0 s1).orders = s1.orders := rfl
@[simp] theorem commit_txns (b : Bool) (s0 s1 : State) : (commit b s0 s1).txns = s1.txns := rfl

/-! ### An ID that is taken by an engine without ranks -/

/-- With no rank the search of R38 reads no entry. -/
theorem selfRank_of_no_ranks {n : Nat} {s : State} (h : ranks s n = 0) : selfRank n s = wrN (R.parSelfRank n) 0 s := by
  simp [selfRank, h, searchSelf]

theorem ranks_wrN_selfRank (n m v : Nat) (s : State) : ranks (wrN (R.parSelfRank m) v s) n = ranks s n :=
  rfld_wrN_ne (by unfold R.parRanks R.parSelfRank; omega) _ _ _ _

/-- Where no partition has ranks, the search of all of them clears PARn_SELF_RANK. -/
theorem forEach_selfRank_of_no_ranks (l : List Nat) {s : State} (h : ∀ n ∈ l, ranks s n = 0) :
    forEach l selfRank s = forEach l (fun n => wrN (R.parSelfRank n) 0) s := by
  induction l generalizing s with
  | nil => rfl
  | cons n l ih =>
    have hn : selfRank n s = wrN (R.parSelfRank n) 0 s := selfRank_of_no_ranks (h n (by simp))
    show forEach l selfRank (selfRank n s) = forEach l _ (wrN (R.parSelfRank n) 0 s)
    rw [hn]
    exact ih (fun m hm => (ranks_wrN_selfRank m n 0 s).trans (h m (List.mem_cons_of_mem _ hm)))

/-- What an ID that is taken leaves in the GLB registers. -/
theorem rd_setId {id : Nat} {s : State} (h : ∀ n, n < 16 → ranks s n = 0) {a : Nat} (ha : a < 0xC0000) :
    rd (setId id s) a = rd (wrN R.glbEngineId (id % 8192) s) a := by
  have hr : ∀ n ∈ range 0 15, ranks (wrN R.glbEngineId (id % 8192) s) n = 0 := by
    intro n hn
    rw [← h n (by simpa [range, Nat.lt_succ_iff] using hn)]
    exact rfld_wrN_ne (by unfold R.parRanks R.glbEngineId; omega) _ _ _ _
  unfold setId
  dsimp only
  rw [forEach_field (rd · a) _ _ (fun n _ s => rd_emit _ _ s), forEach_selfRank_of_no_ranks _ hr]
  exact forEach_field (rd · a) _ _ (fun n _ s => rd_wrN_ne (by unfold R.parSelfRank; omega) _ _) _

theorem ownId_setId {id : Nat} {s : State} (h : ∀ n, n < 16 → ranks s n = 0) : ownId (setId id s) = id % 8192 := by
  rw [ownId, rfld, rd_setId h (by decide), wrN, rd_wr_self]
  simp [fld, nbits]

theorem fld_id_mod (v : Word) : fld v 12 0 % 8192 = fld v 12 0 := Nat.mod_mod _ _

/-! ### The window -/

theorem rbit_adoptClose (s : State) : rbit (adoptClose s) R.glbAdopt 0 = false := rbit_wbitAt _ _ _ _ (by decide)

theorem ownId_adoptClose (s : State) : ownId (adoptClose s) = ownId s := rfld_wbitAt_ne (by decide) _ _ _ _ _

/-- The ID is taken in the window, which closes (R431). -/
theorem engineIdWrite_adopted {v : Word} {s : State} (hb : bootStep s = 0 ∨ 4 < bootStep s) (ho : rbit s R.glbAdopt 0 = true)
    (hv : fld v 12 0 ≠ 0x1FFF) : (engineIdWrite v s).1 = ev R.glbAdopt 4 (adoptClose (setId (fld v 12 0) s)) := by
  unfold engineIdWrite
  dsimp only
  rw [if_neg (by omega), if_pos ⟨ho, hv⟩]

/-- The window opens where the engine named is this one and every stream is IDLE (R430). -/
theorem adoptWrite_open {v : Word} {s : State} (h31 : wbit v 31 = true) (hid : fld v 28 16 = ownId s) (hi : allIdle s = true) :
    rbit (adoptWrite v s) R.glbAdopt 0 = true ∧ (adoptWrite v s).mgr.adoptAt = some (now s) := by
  unfold adoptWrite
  extract_lets old u
  have hu : ownId u = ownId s := rfld_wr_ne (by decide) _ _ _ s
  have hi' : allIdle u = true := hi
  rw [if_pos h31, if_neg (by rw [hid, hu]; exact not_not_intro rfl), if_pos hi']
  exact ⟨rbit_wbitAt _ _ _ _ (by decide), rfl⟩

/-- Settles O17: each command by the bits of PARn_RESET and GLB_ADOPT it writes. -/
theorem releaseAndAdoption : Obligations.ReleaseAndAdoption := by
  intro s hs
  refine ⟨fun n hn hb => ?release, fun n hn hb => ?held, fun v h31 hid hi => ?opened, fun v hb ho hv hr => ?adopted, fun hd => ?closed⟩
  case release =>
    refine ⟨_, hs.run_whenB (decide_eq_true hn) _, ?_⟩
    rw [commit_rbit, release, hb, if_neg Bool.false_ne_true, rbit_wbitAt _ _ _ _ (by decide)]
  case held =>
    refine hs.run_self (f := whenB (decide (n < 16)) (release n)) ?_
    rw [whenB_true (decide_eq_true hn), release, hb, if_pos rfl]
  case opened =>
    obtain ⟨h1, h2⟩ := adoptWrite_open h31 hid hi
    refine ⟨_, hs.run _, ?_⟩
    rw [commit_rbit, commit_mgr]
    exact ⟨h1, h2⟩
  case adopted =>
    refine ⟨_, hs.run _, ?_⟩
    rw [engineIdWrite_adopted hb ho hv]
    refine ⟨?_, ?_, ?_⟩
    · rw [ownId, commit_rfld, rfld_ev_ne (by decide), ← ownId, ownId_adoptClose, ownId_setId hr, fld_id_mod]
    · rw [commit_rbit, rbit_ev_other _ _ _ _ _ (by decide) (by decide), rbit_adoptClose]
    · rw [commit_rbit, rbit_ev _ _ _ (by decide)]
  case closed => exact ⟨_, hs.run_whenB hd _, (commit_rbit _ _ _ _ _).trans (rbit_adoptClose s), rfl⟩

end Sys2Proof.Machine
end

section
/-! SUPPORT. What a port that goes out of use takes with it: queued and held cells, accesses and slots; and that it stays as it
is while they go (R128, R153, R155, R209, R247, R259). -/
namespace Sys2Proof.Machine

namespace RunStable
variable {α : Type} {g : State → α}

theorem dropTag (h : RunStable g) (t : Tag) (s : State) : g (dropTag t s) = g s := h.stopped s.waiting s.landed _ s

theorem accessDone (h : RunStable g) (k rid : Nat) (s : State) : g (accessDone k rid s) = g s := by
  rw [Machine.accessDone, h.settleRun, h.modRun]

theorem capLost (h : RunStable g) (i : Nat) (s : State) : g (capLost i s) = g s := by
  unfold Machine.capLost
  dsimp only
  rw [h.capDrop]
  split
  · split
    · rw [h.unitWrite, h.ev, h.modCap]
    · rw [h.ev, h.modCap]
  · rw [h.ev, h.modCap]

theorem capCopied (h : RunStable g) (i : Nat) (e : Option Nat) (s : State) : g (capCopied i e s) = g s := by
  unfold Machine.capCopied
  dsimp only
  rw [h.capDrop]
  split
  · split
    · exact h.storeWrite _ _ s
    · rfl
    · exact h.modCap _ _ s
  · rfl

theorem tagComplete (h : RunStable g) (t : Tag) (st : Nat) (s : State) : g (tagComplete t st s) = g s := by
  rw [← h.dropTag t s]
  unfold Machine.tagComplete
  dsimp only
  split
  · split
    · exact h.capCopied _ _ _
    · exact h.capLost _ _
  · split
    · exact h.accessDone _ _ _
    · exact h.faultMem _ _ _ _ _

theorem peerLostCount (h : RunStable g) (s : State) : g (peerLostCount s) = g s := by rw [Machine.peerLostCount, h.ev, h.cnt]

theorem losePeer (h : RunStable g) (n : Nat) (s : State) : g (losePeer n s) = g s := by
  unfold Machine.losePeer
  extract_lets l
  refine (forEach_field g _ _ (fun t _ s => ?_) _).trans (forEach_field g (fun _ s => Machine.peerLostCount s) l (fun _ _ s => h.peerLostCount s) s)
  split
  · exact h.tagComplete _ _ s
  · rfl

theorem cellSent (h : RunStable g) (c : Cell) (s : State) : g (cellSent c s) = g s := by
  unfold Machine.cellSent
  split
  · exact h.streams _ s
  · rfl

theorem settleSends (h : RunStable g) (s : State) : g (settleSends s) = g s := by
  refine forEach_field g _ _ (fun x _ s => forEach_field g _ _ (fun r _ s => ?_) s) s
  split
  · exact h.settleRun _ _ s
  · rfl

end RunStable

/-! ### Cells the engine produces leave by usable ports (R163, R169) -/

theorem usable_congr {s t : State} {p : Nat} (h : port t p = port s p) (b : Bool) : usable t b p = usable s b p := by
  rw [usable, h, usable]

theorem usable_of_injectPortOk {s : State} {c : Cell} {p : Nat} (h : injectPortOk s c p = true) : usable s false p = true :=
  (Bool.and_eq_true_iff.1 h).1

/-- A port chosen for an injected cell was usable. -/
theorem injectBy_usable {ring : Nat} {c : Cell} {e : Route} {s : State} {p : Nat} {k : QCls}
    (h : (injectBy ring c e s).2 = some (p, k)) : usable s false p = true := by
  unfold injectBy at h
  split at h
  · split at h
    · rename_i ho; cases h; exact usable_of_injectPortOk ho
    · cases h
  · split at h
    · rename_i ho; cases h; exact usable_of_injectPortOk ho
    · split at h
      · rename_i q hq
        cases h
        split at hq
        · rename_i ho; cases hq; exact usable_of_injectPortOk ho
        · split at hq
          · rename_i ho; cases hq; exact usable_of_injectPortOk ho
          · cases hq
      · cases h

section
variable {ring : Nat} {c : Cell} {s : State} {p : Nat} {k : QCls}

theorem injectTable_usable (h : (injectTable ring c s).2 = some (p, k)) : usable s false p = true := by
  have hp := markStable_port p
  unfold injectTable at h
  dsimp only at h
  split at h
  · cases h
  · rw [← usable_congr (hp.routeLookup _ _ _ _)]
    exact injectBy_usable h

theorem injectRoute_usable (h : (injectRoute ring c s).2 = some (p, k)) : usable s false p = true := by
  have hp := markStable_port p
  have e := hp.circuitLookup 31 c s
  unfold injectRoute at h
  generalize circuitLookup 31 c s = r at e h
  dsimp only at h
  split at h
  · split at h
    · rename_i hu
      cases h
      rw [← usable_congr e]; exact hu
    · have u := injectTable_usable h
      rwa [usable_congr ((hp.circuitFallback _ _).trans e)] at u
  · rw [← usable_congr e]; exact injectTable_usable h
end

namespace MarkStable
variable {α : Type} {g : State → α}

theorem injectBy (h : MarkStable g) (ring : Nat) (c : Cell) (e : Route) (s : State) : g (injectBy ring c e s).1 = g s := by
  unfold Machine.injectBy
  split
  · split
    · rfl
    · exact h.noRoute _ _ _
  · split
    · rfl
    · split
      · rw [h.evI, h.cnt]
      · exact h.noRoute _ _ _

theorem injectTable (h : MarkStable g) (ring : Nat) (c : Cell) (s : State) : g (injectTable ring c s).1 = g s := by
  unfold Machine.injectTable
  dsimp only
  split
  · rw [h.noRoute, h.routeLookup]
  · rw [h.injectBy, h.routeLookup]

theorem injectRoute (h : MarkStable g) (ring : Nat) (c : Cell) (s : State) : g (injectRoute ring c s).1 = g s := by
  unfold Machine.injectRoute
  dsimp only
  split
  · split
    · exact h.circuitLookup _ _ _
    · rw [h.injectTable, h.circuitFallback, h.circuitLookup]
  · rw [h.injectTable, h.circuitLookup]

end MarkStable

theorem port_injectAt_ne {n p : Nat} (h : n ≠ p) (str ring : Nat) (c : Cell) (k : QCls) (s : State) :
    port (injectAt str ring c p k s).1 n = port s n := by
  unfold injectAt
  split
  · exact port_enqueue_ne h _ _ s
  · rfl

/-- An injected cell touches no port that is not usable. -/
theorem port_injectCell_unusable {n : Nat} {s : State} (h : usable s false n = false) (str ring : Nat) (c : Cell) :
    port (injectCell str ring c s).1 n = port s n := by
  have e := (markStable_port n).injectRoute ring c s
  unfold injectCell
  split
  · rfl
  · split
    · exact e
    · rename_i p k hr
      have hn : n ≠ p := fun x => by rw [x, injectRoute_usable hr] at h; cases h
      rw [port_injectAt_ne hn, e]

theorem port_inject_unusable {n : Nat} {s : State} (h : usable s false n = false) (str ring : Nat) (c : Cell) :
    port (inject str ring c s).1 n = port s n := by
  unfold inject
  split
  · exact port_injectCell_unusable h _ _ _
  · rfl

theorem port_injectOwn_unusable {n : Nat} {s : State} (h : usable s false n = false) (c : Cell) :
    port (injectOwn c s) n = port s n := SwitchStable.afterInject_field (g := (port · n)) (port_inject_unusable h 256 0 c)

theorem port_noticeSend_unusable {n : Nat} {s : State} (h : usable s false n = false) (p r : Nat) (inj : Bool) (c : Cell) :
    port (noticeSend p r inj c s) n = port s n := by
  unfold noticeSend
  split
  · exact (markStable_port n).cnt _ s
  · extract_lets key l s1
    exact port_injectOwn_unusable (s := s1) h _

theorem port_transitLoss_unusable {n : Nat} {s : State} (h : usable s false n = false) (p r : Nat) (inj : Bool) (c : Cell) :
    port (transitLoss p r inj c s) n = port s n := by
  have e := (markStable_port n).branchLoss (wStream c) 0xFF p r inj c s
  unfold transitLoss
  rw [port_noticeSend_unusable ((usable_congr e false).trans h), e]

/-- A port that is not usable keeps what it is while the copies held for some port are dropped. -/
theorem port_dropHeldFor_unusable {n : Nat} (m : Nat) {s : State} (h : usable s false n = false) :
    port (dropHeldFor m s) n = port s n := by
  unfold dropHeldFor
  generalize s.hold.filter (fun h => h.port == m) = l
  induction l generalizing s with
  | nil => rfl
  | cons x l ih =>
    have e : port (transitLoss m rPortUnusable false x.cell { s with hold := s.hold.erase x }) n = port s n :=
      port_transitLoss_unusable (s := { s with hold := s.hold.erase x }) h _ _ _ _
    exact (ih ((usable_congr e false).trans h)).trans e

theorem port_resetOrder (m n : Nat) (s : State) : port (resetOrder m s) n = port s n := by
  unfold resetOrder
  dsimp only
  split <;> rfl

/-! ### A port that goes out of use -/

/-- What a port keeps of itself when its cells are dropped. -/
def droppedPort (p : Port) : Port :=
  { p with
    qVc3 := [], qVc2 := [], qCirc := [], qVc0s := [], qVc0r := [], qVc1r := [], rtt := none, echo := none
    part := none, pos := none, first := none, lock := false, uncorrRun := 0 }

theorem routable_droppedPort (p : Port) : routable (droppedPort p) = routable p := rfl

theorem usable_of_routable {s : State} {n : Nat} (h : routable (port s n) = false) (b : Bool) : usable s b n = false := by
  rw [usable, h, Bool.and_false, Bool.false_and]

/-- A port that is out of use keeps all but its queues when its cells are dropped. -/
theorem port_portDrop {n : Nat} {s : State} (h : routable (port s n) = false) : port (portDrop n s) n = droppedPort (port s n) := by
  have hp := runStable_port n
  unfold portDrop
  extract_lets p cells s1 s2 s3 s4
  have e1 : port s1 n = port s n := hp.cntBy _ _ s
  have e2 : port s2 n = port s1 n := by
    unfold s2
    split
    · rfl
    · exact hp.modTel _ _ s1
  have e3 : port s3 n = droppedPort (port s2 n) := port_modPort_self n droppedPort s2
  have e4 : port s4 n = port s3 n :=
    (hp.settleSends _).trans (forEach_field (port · n) cellSent cells (fun c _ s => hp.cellSent c s) s3)
  have e : port s4 n = droppedPort (port s n) := by rw [e4, e3, e2, e1]
  have hu : usable s4 false n = false := usable_of_routable (by rw [e, routable_droppedPort, h]) false
  split
  · rw [hp.losePeer, port_resetOrder, port_dropHeldFor_unusable n hu, e]
  · exact e

/-! ### What follows a change of state (R139, Table 15.2) -/

theorem MarkStable.soloUpdate {α : Type} {g : State → α} (h : MarkStable g) (s : State) : g (soloUpdate s) = g s := by
  unfold Machine.soloUpdate
  dsimp only
  split
  · rfl
  · rw [h.ev, h.wbitAt]

theorem rd_soloUpdate_ne {a : Nat} (h1 : a ≠ R.prtStatus) (h2 : a ≠ R.prtAllEvents) (s : State) : rd (soloUpdate s) a = rd s a := by
  unfold soloUpdate
  dsimp only
  split
  · rfl
  · rw [rd_ev_ne h2, rd_wbitAt_ne h1]

theorem TimeStable.portChanged {α : Type} {g : State → α} (h : TimeStable g) (s : State) : g (portChanged s) = g s := by
  rw [← h.soloUpdate s]
  unfold Machine.portChanged step5Check enterStep6
  dsimp only
  split
  · split
    · rw [h.enterStep7, h.roots, h.wfld]
    · rw [h.roots, h.wfld]
  · rfl

theorem timeStable_out : TimeStable State.out := by constructor <;> first | exact markStable_out | (intros; rfl)

theorem portChanged_ports (s : State) : (portChanged s).ports = s.ports := timeStable_ports.portChanged s

theorem port_portChanged (n : Nat) (s : State) : port (portChanged s) n = port s n := port_congr (portChanged_ports s) n

/-- The registers of solo state and of the boot step are the only ones that follow a change of state. -/
theorem rd_portChanged_ne {a : Nat} (h1 : a ≠ R.prtStatus) (h2 : a ≠ R.prtAllEvents) (h3 : a ≠ R.glbBootStatus) (s : State) :
    rd (portChanged s) a = rd s a := by
  rw [← rd_soloUpdate_ne h1 h2 s]
  have r (x : RootS) (s : State) : rd ({ s with roots := x } : State) a = rd s a := rfl
  unfold portChanged step5Check enterStep6
  dsimp only
  split
  · split
    · rw [enterStep7, rd_wbitAt_ne h3, rd_wfld_ne h3, r, rd_wfld_ne h3]
    · rw [r, rd_wfld_ne h3]
  · rfl

theorem rbit_portChanged_ne {a : Nat} (h1 : a ≠ R.prtStatus) (h2 : a ≠ R.prtAllEvents) (h3 : a ≠ R.glbBootStatus) (i : Nat)
    (s : State) : rbit (portChanged s) a i = rbit s a i := by rw [rbit, rd_portChanged_ne h1 h2 h3, rbit]

theorem rbit_portChanged_alert (i : Nat) (s : State) : rbit (portChanged s) R.glbAlertStatus i = rbit s R.glbAlertStatus i :=
  rbit_portChanged_ne (by decide) (by decide) (by decide) i s

/-! ### The states a port enters -/

theorem port_goDown (n r : Nat) (s : State) : port (goDown n r s) n =
    droppedPort { freshState .down (now s) (port s n) with reason := r, alone := false } := by
  unfold goDown
  rw [port_portChanged, port_portDrop (by rw [port_modPort_self]; rfl), port_modPort_self]

theorem port_linkRaise (n p r : Nat) (inj : Bool) (m : Nat) (s : State) : port (linkRaise n p r inj s) m = port s m :=
  (markStable_port m).raise_mk (by decide) s

theorem rbit_linkRaise (n p r : Nat) (inj : Bool) (s : State) : rbit (linkRaise n p r inj s) R.glbAlertStatus 4 = true :=
  rbit_raise_alert_mk (by decide) s

theorem port_goFenced (n r : Nat) (raised : Bool) (s : State) : port (goFenced n r raised s) n =
    droppedPort { freshState .fenced (now s) (port s n) with reason := r } := by
  unfold goFenced
  extract_lets peer s1 s2 s3
  have e1 : port s1 n = droppedPort { freshState .fenced (now s) (port s n) with reason := r } := by
    unfold s1
    rw [port_portDrop (by rw [port_modPort_self]; rfl), port_modPort_self]
  have e2 : port s2 n = port s1 n := (markStable_port n).ev _ _ s1
  have e3 : port s3 n = port s2 n := by unfold s3; split <;> rfl
  rw [port_portChanged]
  split
  · rw [port_linkRaise, e3, e2, e1]
  · rw [e3, e2, e1]

theorem port_goTrain_self (n : Nat) (s : State) : port (goTrain n s) n = freshState .train (now s) (port s n) := by
  unfold goTrain
  extract_lets s1
  rw [port_portChanged]
  have e : port s1 n = freshState .train (now s) (port s n) := port_modPort_self _ _ _
  split
  · exact e
  · exact e

theorem port_goTrain_ne {n m : Nat} (h : m ≠ n) (s : State) : port (goTrain n s) m = port s m := by
  unfold goTrain
  extract_lets s1
  rw [port_portChanged]
  have e : port s1 m = port s m := port_modPort_ne h _ _
  split
  · exact e
  · exact e

theorem port_linkLoss (n r : Nat) (inj : Bool) (s : State) : (port (linkLoss n r inj s) n).st = .down ∧
    (port (linkLoss n r inj s) n).reason = r := by
  unfold linkLoss
  rw [port_linkRaise, port_goDown]
  exact ⟨rfl, rfl⟩

theorem rbit_linkLoss (n r : Nat) (inj : Bool) (s : State) : rbit (linkLoss n r inj s) R.glbAlertStatus 4 = true :=
  rbit_linkRaise _ _ _ _ _

theorem now_congr {s t : State} (h : t.t = s.t) : now t = now s := congrArg TimeS.ticks h

theorem rbit_modPort (n : Nat) (f : Port → Port) (s : State) (a i : Nat) : rbit (modPort n f s) a i = rbit s a i := rfl

theorem recTaken_port_ne {n m : Nat} (h : m ≠ n) (b : List Byte) (s : State) : port (recTaken n b s) m = port s m := by
  unfold recTaken
  split
  · exact port_modPort_ne h _ s
  · rfl

theorem recTaken_port_self (n : Nat) (b : List Byte) (s : State) : ∃ r, port (recTaken n b s) n = { port s n with rxRec := r } := by
  unfold recTaken
  split
  · exact ⟨none, port_modPort_self n _ s⟩
  · exact ⟨(port s n).rxRec, rfl⟩

end Sys2Proof.Machine
end

section
/-! SUPPORT. The commands that take a port out of service and back, and the loss of its link (R127–R129, R135, R149–R153, R157,
R632). -/
namespace Sys2Proof.Machine

/-- RETRAIN takes a port whose state allows it to TRAIN; a serial port has sent its record before (R127, R157). -/
theorem cmdRetrain_allowed {s : State} {n : Nat}
    (h : (port s n).st = .active ∨ (serial n = true ∧ ((port s n).st = .align ∨ (port s n).st = .doze))) :
    ∃ u : State, u.ports = s.ports ∧ cmdRetrain n s = goTrain n u := by
  unfold cmdRetrain
  cases hser : serial n with
  | true => exact ⟨emit (recordOut s n 0x30 0) s, rfl, if_pos ⟨rfl, h.elim .inl (fun x => .inr x.2)⟩⟩
  | false =>
    have ha : (port s n).st = .active := h.elim id (fun x => absurd (hser.symm.trans x.1) Bool.false_ne_true)
    exact ⟨s, rfl, by rw [if_neg (fun x => Bool.false_ne_true x.1), if_pos ⟨rfl, ha⟩]⟩

/-- Settles O19: each command by the state it enters, or the event bit it sets. -/
theorem portCommands : Obligations.PortCommands := by
  intro s n hs hn
  have hle (f : State → State) : run (whenB (decide (n ≤ 30)) f) s = .next (commit false s (f s)) :=
    hs.run_whenB (decide_eq_true hn) f
  have ignored : (cmdIgnored n s).ports = s.ports ∧ rbit (cmdIgnored n s) (R.prtEvents n) 14 = true :=
    ⟨markStable_ports.ev _ _ s, rbit_ev _ _ s (by decide)⟩
  refine ⟨⟨_, hle _, ?_⟩, fun h => ⟨_, hle _, ?_⟩, fun h => ⟨_, hle _, ?_⟩, fun h => ⟨_, hle _, ?_⟩, fun h => ⟨_, hle _, ?_⟩,
    fun h => ⟨_, hle _, ?_⟩, fun h1 h2 => ⟨_, hle _, ?_⟩, fun h => ⟨_, hle _, ?_⟩⟩
  · rw [commit_port, cmdFence, port_goFenced]
    exact ⟨rfl, rfl⟩
  · rw [commit_port, cmdUnfence, if_pos h, port_goDown]
    rfl
  · rw [commit_ports, commit_rbit, cmdUnfence, if_neg h]
    exact ignored
  · rw [commit_port, cmdClearFault, if_pos h, port_modPort_self, port_goDown]
    exact ⟨rfl, rfl⟩
  · rw [commit_ports, commit_rbit, cmdClearFault, if_neg h]
    exact ignored
  · obtain ⟨u, hu, he⟩ := cmdRetrain_allowed h
    simp only [commit_port, he]
    exact ⟨by rw [port_goTrain_self]; rfl, fun m hm => by rw [port_goTrain_ne hm, port_congr hu]⟩
  · rw [commit_port, portDisable]
    have e : port (wbitAt (R.prtConfig n) 0 false s) n = port s n := rfl
    rw [e, if_neg (fun x => x.elim h1 h2), port_goDown]
    exact ⟨rfl, rfl⟩
  · rw [commit_ports, commit_rbit, portDisable]
    have e : port (wbitAt (R.prtConfig n) 0 false s) n = port s n := rfl
    rw [e, if_pos h, portChanged_ports, rbit_portChanged_ne (by unfold R.prtConfig R.prtStatus; omega)
      (by unfold R.prtConfig R.prtAllEvents; omega) (by unfold R.prtConfig R.glbBootStatus; omega), rbit_wbitAt _ _ _ _ (by decide)]
    exact ⟨markStable_ports.wbitAt _ _ _ s, rfl⟩

/-! ### The loss of a link (R153, R157, R632) -/

theorem port_portFail {n r : Nat} {s : State} (h : (port s n).failRun < 7) : (port (portFail n r s) n).st = .down
    ∧ (port (portFail n r s) n).reason = r ∧ (port (portFail n r s) n).failRun = (port s n).failRun + 1 := by
  unfold portFail
  extract_lets run peer s1 s2
  have hr : ¬ 8 ≤ run := by unfold run; omega
  rw [if_neg hr, port_linkRaise]
  unfold s2
  rw [port_modPort_self, port_goDown]
  exact ⟨rfl, rfl, rfl⟩

theorem port_portFail_eighth {n r : Nat} {s : State} (h : 7 ≤ (port s n).failRun) : (port (portFail n r s) n).st = .fault
    ∧ (port (portFail n r s) n).reason = 7 ∧ rbit (portFail n r s) R.glbAlertStatus 4 = true := by
  unfold portFail
  extract_lets run peer s1 s2
  have hr : 8 ≤ run := by unfold run; omega
  rw [if_pos hr, port_linkRaise, port_portChanged, (markStable_port n).ev, port_modPort_self]
  exact ⟨rfl, rfl, rbit_linkRaise _ _ _ _ _⟩

/-- Taking a record from its port leaves the engine ready for the command that takes it. -/
theorem State.Ready.recTaken {s : State} (hs : s.Ready) (n : Nat) (b : List Byte) : (recTaken n b s).Ready := by
  unfold Machine.recTaken
  split
  · exact hs
  · exact hs

theorem rbit_retrainOwe (n a i : Nat) (s : State) : rbit (retrainOwe n s) a i = rbit s a i := rfl

theorem port_retrainOwe_ne {n m : Nat} (h : m ≠ n) (s : State) : port (retrainOwe n s) m = port s m := port_modPort_ne h _ s

theorem port_retrainOwe_self (n : Nat) (s : State) :
    port (retrainOwe n s) n = { port s n with retrain := true, owed := [(0x30, 0)], lowNext := none } := port_modPort_self _ _ s

/-- An OPT port that is ACTIVE when its overload begins (R149). -/
def overloadedPort (t : Nat) (p : Port) : Port :=
  { p with
    st := .align, lite := true, ovl := true, ovlRun := true, ovlOn := true, ovlCut := true, ovlTail := false, ovlAt := t
    entered := t, lock := false }

section
variable {n : Nat} {s : State}

theorem overload_active (hn : n = 29 ∨ n = 30) (h1 : (port s n).ovl = false) (h2 : (port s n).st = .active) :
    port (overload n s) n = overloadedPort (now s) (port s n) ∧ rbit (overload n s) (R.prtEvents n) 11 = true
      ∧ ∀ m, m ≠ n → port (overload n s) m = port s m := by
  have e (m : Nat) : port (ev (R.prtEvents n) 11 s) m = port s m := (markStable_port m).ev _ _ s
  unfold overload
  extract_lets p s1
  have e1 : now s1 = now s := now_congr (markStable_t.ev (R.prtEvents n) 11 s)
  rw [if_pos ⟨hn, h1⟩, port_portChanged, port_modPort_self]
  refine ⟨?_, ?_, fun m hm => ?_⟩
  · rw [show port s1 n = port s n from e n, if_pos h2, e1]
    rfl
  · rw [rbit_portChanged_ne (by unfold R.prtEvents R.prtStatus; omega) (by unfold R.prtEvents R.prtAllEvents; omega)
      (by unfold R.prtEvents R.glbBootStatus; omega), rbit_modPort]
    exact rbit_ev _ _ s (by decide)
  · rw [port_portChanged, port_modPort_ne hm]
    exact e m

theorem overloadClear_on (h : (port s n).ovl = true) : (port (overloadClear n s) n).ovl = false
    ∧ (port (overloadClear n s) n).ovlHold = false ∧ ((port s n).ovlOn = true → (port (overloadClear n s) n).ovlClear = now s)
    ∧ (overloadClear n s).regs = s.regs ∧ ∀ m, m ≠ n → port (overloadClear n s) m = port s m := by
  unfold overloadClear
  rw [if_pos h, port_modPort_self]
  exact ⟨rfl, rfl, fun ho => if_pos ho, rfl, fun m hm => port_modPort_ne hm _ s⟩
end

/-! ### RETRAIN in a control codeword (R152) -/

/-- With nothing queued a port in ALIGN sends IDLE_FILL. -/
theorem transmit_idle {s : State} {n : Nat} (h1 : (port s n).st = .active ∨ (port s n).st = .align) (h2 : pickQueue (port s n) = none) :
    transmit n s = slotSend n (cellWire (idleCell s)) s := by
  unfold transmit
  dsimp only
  rw [if_pos h1, h2]
  split <;> rfl

theorem port_slotSend_self (n : Nat) (b : List Byte) (s : State) :
    port (slotSend n b s) n = { port s n with txBuf := (stream n (port s n) b).1 } :=
  port_modPort_self n (fun p => { p with txBuf := (stream n (port s n) b).1 }) s

theorem port_slotSend_ne {n m : Nat} (h : m ≠ n) (b : List Byte) (s : State) : port (slotSend n b s) m = port s m :=
  port_modPort_ne h (fun p => { p with txBuf := (stream n (port s n) b).1 }) s

/-- The port after a cell has begun, before the codeword is looked at. -/
def cellCounted (n : Nat) (s : State) : State := modPort n (fun p => { p with txCells := p.txCells + 1 }) (transmit n s)

theorem boundary_eq (n : Nat) (s : State) : boundary n s =
    if 160 ≤ (port (cellCounted n s) n).txCells ∧ ((port (cellCounted n s) n).st = .active ∨ (port (cellCounted n s) n).st = .align)
    then control n (cellCounted n s) else cellCounted n s := rfl

section
variable {n : Nat} {s : State} {f : Nat} {l : List (Nat × Nat)}

/-- The port after an IDLE_FILL cell. -/
theorem port_cellCounted_idle (h1 : (port s n).st = .active ∨ (port s n).st = .align) (h2 : pickQueue (port s n) = none) :
    port (cellCounted n s) n = { port s n with
      txBuf := (stream n (port s n) (cellWire (idleCell s))).1, txCells := (port s n).txCells + 1 } := by
  unfold cellCounted
  rw [port_modPort_self, transmit_idle h1 h2, port_slotSend_self]

/-- The state in which a control codeword with record `e` has gone out. -/
def controlSent (n : Nat) (e : Nat × Nat) (s : State) : State :=
  emit (recordOut s n e.1 e.2) (modPort n (fun p => { p with txCells := 0, txBuf := [], owed := p.owed.drop 1 }) s)

/-- The end of a control codeword with RETRAIN is the entry to TRAIN. -/
theorem control_retrain (h1 : (port s n).retrain = true) (h2 : (port s n).owed = (0x30, f) :: l) :
    control n s = modPort n (fun q => { q with ovlHold := (port s n).ovlOn }) (goTrain n (controlSent n (0x30, f) s)) := by
  unfold control
  dsimp only
  rw [h2]
  exact if_pos ⟨rfl, h1⟩

theorem mem_out_goTrain {o : Out} (h : o ∈ s.out) : o ∈ (goTrain n s).out := by
  unfold goTrain
  rw [timeStable_out.portChanged]
  split
  · exact List.mem_append_left _ h
  · exact h

theorem mem_out_controlSent (e : Nat × Nat) : recordOut s n e.1 e.2 ∈ (controlSent n e s).out :=
  List.mem_append_right _ (List.mem_singleton.2 rfl)
end

theorem recordOut_cellCounted_idle {s : State} {n : Nat} (h1 : (port s n).st = .active ∨ (port s n).st = .align)
    (h2 : pickQueue (port s n) = none) (op fl : Nat) : recordOut (cellCounted n s) n op fl = recordOut s n op fl := by
  unfold cellCounted
  rw [transmit_idle h1 h2]
  rfl

/-- Settles O20: each loss by what `linkLoss` or `portFail` leaves, overload and RETRAIN by the port they leave. -/
theorem losingTheLink : Obligations.LosingTheLink := by
  refine ⟨fun s n hs => ⟨fun hser h1 h2 h3 => ⟨_, hs.run_whenB ?_ _, ?_⟩, fun hser h => ⟨_, hs.run_whenB ?_ _, ?_⟩,
    fun hser h1 h2 h3 h4 => ⟨_, hs.run_whenB ?_ _, ?_⟩, fun hser h1 h2 h3 h4 => ⟨_, hs.run_whenB ?_ _, ?_⟩,
    fun b hser hb h => ⟨_, (hs.recTaken n b).run_whenB ?_ _, ?_⟩, fun hn h => ⟨_, hs.run_whenB (decide_eq_true hn) _, ?_⟩,
    fun hn h1 h2 => ⟨_, hs.run_whenB (decide_eq_true hn) _, ?_⟩⟩,
    fun s n hs => ⟨fun hn h1 h2 => ⟨_, hs.run (overload n), ?_⟩, fun h => ⟨_, hs.run (overloadClear n), ?_⟩,
    fun h1 h2 h3 h4 h5 => ⟨_, hs.run_whenB ?_ _, ?_⟩, fun h1 h2 h3 h4 h5 => ⟨_, hs.run_whenB ?_ _, ?_⟩,
    fun f l hser h1 h2 h3 h4 h5 => ⟨_, hs.run_whenB ?_ _, ?_⟩⟩⟩
  · simp [hser, h1, h2, h3]
  · rw [commit_port, commit_rbit]
    exact ⟨(port_linkLoss _ _ _ _).1, (port_linkLoss _ _ _ _).2, rbit_linkLoss _ _ _ _⟩
  · simp [hser, h]
  · rw [commit_port, commit_rbit]
    exact ⟨(port_linkLoss _ _ _ _).1, rbit_linkLoss _ _ _ _⟩
  · rw [hser, h1, h2, decide_eq_true h3]; rfl
  · exact port_portFail h4
  · rw [hser, h1, h2, decide_eq_true h3]; rfl
  · rw [commit_port, commit_rbit]
    exact port_portFail_eighth h4
  · rw [hser, hb]; rcases h with h | h | h <;> rw [h] <;> rfl
  · simp only [commit_port]
    exact ⟨by rw [port_goTrain_self]; rfl, fun m hm => by rw [port_goTrain_ne hm, recTaken_port_ne hm]⟩
  · dsimp only
    have e : (port (modPort n (fun p => { p with pkgReady := false }) s) n).st = (port s n).st := by rw [port_modPort_self]
    rw [commit_port, e, if_pos h]
    exact port_linkLoss _ _ _ _
  · have e : (port (modPort n (fun p => { p with pkgReady := false }) s) n).st = (port s n).st := by rw [port_modPort_self]
    simp only [commit_port, commit_regs, e, if_neg (not_or.2 ⟨h1, h2⟩)]
    rw [port_modPort_self]
    exact ⟨rfl, trivial, rfl, fun m hm => port_modPort_ne hm _ s⟩
  · obtain ⟨hp, hr, hm⟩ := overload_active hn h1 h2
    simp only [commit_port, commit_rbit]
    rw [hp]
    exact ⟨rfl, rfl, rfl, rfl, hr, hm⟩
  · exact overloadClear_on h
  · rw [h1, h2, h3, h4, decide_eq_true h5]; rfl
  · simp only [commit_port, commit_regs]
    rw [port_retrainOwe_self]
    exact ⟨h1, rfl, rfl, rfl, fun m hm => port_retrainOwe_ne hm s⟩
  · rw [h1, h2, h3, h4, decide_eq_true h5]; rfl
  · have e (m : Nat) : port (ev (R.prtEvents n) 12 s) m = port s m := (markStable_port m).ev _ _ s
    simp only [commit_port, commit_rbit]
    rw [port_retrainOwe_self, e, rbit_retrainOwe]
    exact ⟨h1, rfl, rfl, rbit_ev _ _ s (by decide), fun m hm => (port_retrainOwe_ne hm _).trans (e m)⟩
  · rw [hser, h1]; rfl
  · have e := port_cellCounted_idle (.inr h1) h5
    have hc : 160 ≤ (port (cellCounted n s) n).txCells ∧ ((port (cellCounted n s) n).st = .active ∨ (port (cellCounted n s) n).st = .align) := by
      rw [e]; exact ⟨Nat.add_le_add_right h4 1, .inr h1⟩
    rw [commit_port, commit_out, boundary_eq, if_pos hc, control_retrain (by rw [e]; exact h2) (by rw [e]; exact h3), port_modPort_self,
      port_goTrain_self, e, ← recordOut_cellCounted_idle (.inr h1) h5]
    exact ⟨rfl, rfl, mem_out_goTrain (mem_out_controlSent (0x30, f))⟩

end Sys2Proof.Machine
end

section
/-! SUPPORT. Seeking a peer, training, the ALIGN exchange and KEEP records (R126, R127, R130–R138, R157). -/
namespace Sys2Proof.Machine

section
variable {n : Nat} {s : State}

theorem isPkg_of_serial (h : serial n = true) : isPkg n = false :=
  decide_eq_false (Nat.not_lt.2 (of_decide_eq_true h).1)

theorem le_of_serial (h : serial n = true) : n ≤ 30 := (of_decide_eq_true h).2

/-! ### Leaving DOWN (R126, R127, R138) -/

/-- The state in which a port has gone to SEEK with its new NONCE. -/
def sought (n : Nat) (s : State) : State :=
  modPort n (fun p => { freshState .seek (now s) p with nonce := Config.freeNonce s.free }) { s with free := s.free + 1 }

theorem port_sought_self : port (sought n s) n = { freshState .seek (now s) (port s n) with nonce := Config.freeNonce s.free } :=
  port_modPort_self n (fun p => { freshState .seek (now s) p with nonce := Config.freeNonce s.free }) { s with free := s.free + 1 }

theorem port_sought_ne {m : Nat} (h : m ≠ n) : port (sought n s) m = port s m :=
  port_modPort_ne h (fun p => { freshState .seek (now s) p with nonce := Config.freeNonce s.free }) { s with free := s.free + 1 }

/-- The accelerator of a PKG port signals ready. -/
def pkgReadied (n : Nat) (s : State) : State := modPort n (fun p => { p with pkgReady := true }) s

theorem port_pkgReadied_self : port (pkgReadied n s) n = { port s n with pkgReady := true } :=
  port_modPort_self n (fun p => { p with pkgReady := true }) s

/-- A serial port that may leave DOWN goes to SEEK with a new NONCE. -/
theorem portSeek_serial (hser : serial n = true) (h1 : (port s n).st = .down) (h2 : (port s n).entered + 1024 ≤ now s)
    (h3 : mayLeave s n = true) : ∃ o, portSeek n s = portChanged (emit o (sought n s)) := by
  unfold portSeek
  dsimp only
  rw [if_pos ⟨h1, h2⟩, isPkg_of_serial hser, if_neg Bool.false_ne_true, if_pos h3]
  exact ⟨_, rfl⟩

/-- A PKG port that may leave DOWN, its accelerator being ready, trains. -/
theorem portSeek_pkg (hn : n < 4) (h1 : (port s n).st = .down) (h2 : (port s n).entered + 1024 ≤ now s)
    (h3 : mayLeave s n = true) (h4 : (port s n).pkgReady = true) : portSeek n s = goTrain n s := by
  unfold portSeek
  dsimp only
  rw [if_pos ⟨h1, h2⟩, isPkg, decide_eq_true hn, if_pos rfl, h4, h3, Bool.and_self, if_pos rfl]

/-! ### Beacons (R130, R131, R138) -/

/-- What a beacon received in SEEK leaves at its port. -/
def heardPort (fenced : Bool) (p : Port) : Port :=
  { p with
    heard := min 4 (p.heard + 1), beaconSeen := true, alone := false
    peerFenced := fenced, reason := if p.st = .seek ∧ fenced = true then 5 else p.reason }

/-- The state in which a good beacon has been heard in SEEK. -/
def beaconHeard (n : Nat) (fenced : Bool) (s : State) : State :=
  let u := soloUpdate (modPort n (heardPort fenced) s)
  if (port s n).heard = 3 then emit (.beacon n (ownBeacon u n)) u else u

theorem port_beaconHeard_self (fenced : Bool) : port (beaconHeard n fenced s) n = heardPort fenced (port s n) := by
  have e : port (soloUpdate (modPort n (heardPort fenced) s)) n = heardPort fenced (port s n) := by
    rw [(markStable_port n).soloUpdate, port_modPort_self]
  unfold beaconHeard
  dsimp only
  split
  · exact e
  · exact e

theorem rd_beaconHeard_ne (fenced : Bool) {a : Nat} (h1 : a ≠ R.prtStatus) (h2 : a ≠ R.prtAllEvents) :
    rd (beaconHeard n fenced s) a = rd s a := by
  have e : rd (soloUpdate (modPort n (heardPort fenced) s)) a = rd s a := by
    rw [rd_soloUpdate_ne h1 h2]; rfl
  unfold beaconHeard
  dsimp only
  split
  · exact e
  · exact e

theorem ownId_beaconHeard (fenced : Bool) : ownId (beaconHeard n fenced s) = ownId s := by
  rw [ownId, rfld, rd_beaconHeard_ne fenced (by decide) (by decide)]; rfl

theorem markStable_free : MarkStable State.free := by constructor <;> intros <;> rfl

theorem free_beaconHeard (fenced : Bool) : (beaconHeard n fenced s).free = s.free := by
  have e : (soloUpdate (modPort n (heardPort fenced) s)).free = s.free := markStable_free.soloUpdate _
  unfold beaconHeard
  dsimp only
  split
  · exact e
  · exact e


/-- A beacon with this end's own ID and NONCE: a new NONCE is taken. -/
def nonceRenewed (n : Nat) (u : State) : State :=
  let v := modPort n (fun p => { p with nonce := Config.freeNonce u.free }) { u with free := u.free + 1 }
  emit (.beacon n (ownBeacon v n)) v

/-- The peer has been heard and hears this end: training begins. -/
def beaconMet (n : Nat) (w : W64) (u : State) : State :=
  if nbits w.toNat 47 35 = ownId u ∧ nbits w.toNat 29 14 = (port u n).nonce.toNat then nonceRenewed n u
  else goTrain n (modPort n (fun p => { p with leader := leads u n w }) u)

theorem beacon_eq (n : Nat) (w : W64) (s : State) : beacon n w s =
    if (port s n).st = .seek ∨ (port s n).st = .fenced ∨ (port s n).st = .train then
      (if !beaconOk w then modPort n (fun p => { p with heard := if p.heard < 4 then 0 else p.heard }) s
      else if (port s n).st = .train then (if w.toNat.testBit 8 then linkLoss n 5 false s else s)
      else if (port s n).st = .seek ∧ (port (beaconHeard n (w.toNat.testBit 8) s) n).heard = 4 ∧ w.toNat.testBit 9 = true
          ∧ w.toNat.testBit 8 = false then beaconMet n w (beaconHeard n (w.toNat.testBit 8) s)
      else beaconHeard n (w.toNat.testBit 8) s)
    else s := rfl

/-- A good beacon in SEEK whose sender hears this end, when it has been heard four times. -/
theorem beacon_seek {w : W64} (h1 : (port s n).st = .seek) (h2 : 3 ≤ (port s n).heard) (h3 : beaconOk w = true)
    (h4 : w.toNat.testBit 8 = false) (h5 : w.toNat.testBit 9 = true) : beacon n w s = beaconMet n w (beaconHeard n false s) := by
  have hh : (port (beaconHeard n false s) n).heard = 4 := by
    rw [port_beaconHeard_self]
    exact Nat.min_eq_left (Nat.add_le_add_right h2 1)
  have ht : (port s n).st ≠ .train := by rw [h1]; decide
  have hb : ¬ (!beaconOk w) = true := by rw [h3]; decide
  rw [beacon_eq, if_pos (.inl h1), if_neg hb, if_neg ht, h4, if_pos ⟨h1, hh, h5, rfl⟩]

/-- A FENCED peer's beacon in training loses the link. -/
theorem beacon_train {w : W64} (h1 : (port s n).st = .train) (h3 : beaconOk w = true) (h4 : w.toNat.testBit 8 = true) :
    beacon n w s = linkLoss n 5 false s := by
  have hb : ¬ (!beaconOk w) = true := by rw [h3]; decide
  rw [beacon_eq, if_pos (.inr (.inr h1)), if_neg hb, if_pos h1, if_pos h4]

theorem leads_beaconHeard (w : W64) : leads (beaconHeard n false s) n w = leads s n w := by
  rw [leads, ownId_beaconHeard, port_beaconHeard_self, leads]; rfl

end

/-! ### The end of training (R127, R157) -/

section
variable {n l : Nat} {s : State}

theorem trainComplete_serial (hser : serial n = true) (h1 : (port s n).st = .train) (h2 : (port s n).ovlHold = false) :
    (port (trainComplete n l s) n).st = .align ∧ (port (trainComplete n l s) n).lite = false := by
  unfold trainComplete
  dsimp only
  rw [if_pos ⟨h1, h2⟩, isPkg_of_serial hser, if_neg Bool.false_ne_true, port_modPort_self]
  exact ⟨rfl, rfl⟩

theorem port_goActive (n : Nat) (s : State) : (port (goActive n s) n).st = .active ∧ (port (goActive n s) n).failRun = 0 := by
  unfold goActive
  rw [port_portChanged, port_modPort_self]
  exact ⟨rfl, rfl⟩

theorem trainComplete_pkg (hn : n < 4) (h1 : (port s n).st = .train) (h2 : (port s n).ovlHold = false) :
    (port (trainComplete n l s) n).st = (if 8 < l then .fault else .active)
      ∧ (8 < l → (port (trainComplete n l s) n).reason = 8) := by
  unfold trainComplete
  dsimp only
  rw [if_pos ⟨h1, h2⟩, isPkg, decide_eq_true hn, if_pos rfl]
  by_cases hl : 8 < l
  · rw [if_pos hl, if_pos hl, port_linkRaise, port_portChanged, (markStable_port n).ev,
      port_portDrop (by rw [port_modPort_self]; rfl), port_modPort_self]
    exact ⟨rfl, fun _ => rfl⟩
  · rw [if_neg hl, if_neg hl]
    exact ⟨(port_goActive n s).1, fun h => absurd h hl⟩

end

/-! ### The ALIGN exchange and KEEP records (R134–R137) -/

section
variable {n r : Nat} {s : State} {a b : List Byte}

theorem alignCheck_modPort (f : Port → Port) : alignCheck (modPort n f s) n b = alignCheck s n b := rfl

/-- How many identical records have been received with this one. -/
def alignCount (b : List Byte) (p : Port) : Nat :=
  match p.alignRec with | some a => if sameRecord a b then p.alignRuns + 1 else 1 | none => 1

/-- The port keeps the record and its count. -/
def alignHeard (n : Nat) (b : List Byte) (s : State) : State :=
  modPort n (fun p => { p with alignRec := some b, alignRuns := alignCount b (port s n) }) s

/-- The port owes the record that shows ACCEPTED. -/
def alignAccepted (n : Nat) (s : State) : State :=
  modPort n (fun p => { p with accepted := true, owed := if p.accepted then p.owed else p.owed ++ [(0x01, 1)] }) s

theorem alignTake_eq (n : Nat) (b : List Byte) (s : State) : alignTake n b s =
    if serial n = true ∧ (port s n).st = .align ∧ (port s n).lite = false ∧ recordIs 0x01 b = true then
      if 2 ≤ alignCount b (port s n) then
        match alignCheck (alignHeard n b s) n b with
        | some r => goFenced n r true (emit (recordOut (alignHeard n b s) n 0x01 2) (alignHeard n b s))
        | none => if (lFlags b).testBit 0 then alignDone n b (alignAccepted n (alignHeard n b s)) else alignAccepted n (alignHeard n b s)
      else alignHeard n b s
    else s := rfl

/-- The second of two identical records: the checks decide. -/
theorem alignTake_second (hser : serial n = true) (h1 : (port s n).st = .align) (h2 : (port s n).lite = false)
    (h3 : recordIs 0x01 b = true) (h4 : (port s n).alignRec = some a) (h5 : sameRecord a b = true) (h6 : 1 ≤ (port s n).alignRuns) :
    (∀ r, alignCheck s n b = some r → alignTake n b s = goFenced n r true (emit (recordOut (alignHeard n b s) n 0x01 2) (alignHeard n b s)))
    ∧ (alignCheck s n b = none → (lFlags b).testBit 0 = true → alignTake n b s = alignDone n b (alignAccepted n (alignHeard n b s))) := by
  have h : 2 ≤ alignCount b (port s n) := by
    rw [alignCount, h4]
    dsimp only
    rw [if_pos h5]
    exact Nat.add_le_add_right h6 1
  rw [alignTake_eq, if_pos ⟨hser, h1, h2, h3⟩, if_pos h]
  rw [show alignCheck (alignHeard n b s) n b = alignCheck s n b from alignCheck_modPort _]
  constructor
  · intro r hr; rw [hr]
  · intro hr hf; rw [hr]; exact if_pos hf

/-- The peer's record is kept as the port enters ACTIVE. -/
theorem alignDone_entered (hn : n ≤ 30) : (port (alignDone n b s) n).st = .active ∧ (port (alignDone n b s) n).failRun = 0
    ∧ rd (alignDone n b s) (R.prtPeer n) = BitVec.ofNat 32 (peerWord b) := by
  have h1 : R.prtPeer n ≠ R.prtStatus := by unfold R.prtPeer R.prtStatus; omega
  have h2 : R.prtPeer n ≠ R.prtAllEvents := by unfold R.prtPeer R.prtAllEvents; omega
  have h3 : R.prtPeer n ≠ R.glbBootStatus := by unfold R.prtPeer R.glbBootStatus; omega
  unfold alignDone
  extract_lets known id inc u v
  refine ⟨(port_goActive _ _).1, (port_goActive _ _).2, ?_⟩
  unfold goActive
  rw [rd_portChanged_ne h1 h2 h3, rd_modPort, rd_modPort]
  exact rd_wr_self _ _ _

theorem keepTake_other (hser : serial n = true) (h1 : recordIs 0x02 b = true) (h2 : (port s n).st = .active)
    (h3 : lInc b ≠ rfld s (R.prtPeer n) 16 13 ∨ lKind b ≠ rfld s (R.prtPeer n) 23 22 ∨ lPort b ≠ rfld s (R.prtPeer n) 21 17) :
    keepTake n b s = linkLoss n 10 false s := by
  have hh : hears (port s n) = true := by rw [hears, h2]; rfl
  unfold keepTake
  dsimp only
  rw [if_pos ⟨hser, h1, hh⟩, if_pos h3]

theorem keepTake_same (h2 : (port s n).st = .active) (h3 : lInc b = rfld s (R.prtPeer n) 16 13)
    (h4 : lKind b = rfld s (R.prtPeer n) 23 22) (h5 : lPort b = rfld s (R.prtPeer n) 21 17) (h6 : lId b = rfld s (R.prtPeer n) 12 0) :
    keepTake n b s = s := by
  have hr : decide (lId b ≠ rfld s (R.prtPeer n) 12 0) = false := decide_eq_false (not_not.2 h6)
  unfold keepTake
  dsimp only
  split
  · rw [if_neg (by rw [h3, h4, h5]; simp), hr]
    simp only [Bool.false_eq_true, if_false, Bool.false_and, h2, reduceCtorEq]
  · rfl

theorem rfld_recTaken (x : List Byte) (m a hi lo : Nat) (s : State) : rfld (recTaken m x s) a hi lo = rfld s a hi lo := by
  unfold recTaken; split <;> rfl

theorem alignCheck_recTaken : alignCheck (recTaken n b s) n b = alignCheck s n b := by
  unfold recTaken; split <;> rfl

end

/-- Taking a record from its port writes nothing a commit would change. -/
theorem commit_recTaken {s : State} (hs : s.Ready) (n : Nat) (b : List Byte) : commit false s (recTaken n b s) = recTaken n b s := by
  unfold recTaken
  split
  · unfold commit modPort
    simp only [hs.2, Memory.apply_nil]
    rfl
  · exact commit_self hs.2 false

/-- Settles O21. -/
theorem bringingAPortUp : Obligations.BringingAPortUp := by
  refine ⟨fun s n hs => ⟨fun hser h1 h2 h3 => ⟨_, hs.run_whenB (decide_eq_true (le_of_serial hser)) _, ?_⟩,
    fun hn h1 h2 h3 => ⟨_, hs.run_whenB (decide_eq_true hn) _, ?_⟩,
    fun w hser h1 h2 h3 h4 h5 h6 => ⟨_, hs.run_whenB hser _, ?_⟩, fun w hser h1 h2 h3 h4 h5 h6 h7 => ⟨_, hs.run_whenB hser _, ?_⟩,
    fun w hser h1 h2 h3 => ⟨_, hs.run_whenB hser _, ?_⟩, fun hser h1 h2 h3 => ⟨_, hs.run_whenB ?_ _, ?_⟩⟩,
    fun s n hs => ⟨fun l hser h1 h2 => ⟨_, hs.run _, ?_⟩, fun l hn h1 h2 => ⟨_, hs.run _, ?_⟩,
    fun a b hser h1 h2 h3 h4 h5 h6 h7 h8 => ⟨_, hs.run _, ?_⟩, fun a b r hser h1 h2 h3 h4 h5 h6 h7 => ⟨_, hs.run _, ?_⟩,
    fun b hser h1 h2 h3 => ⟨_, hs.run _, ?_⟩, fun b hser h1 h2 h3 h4 h5 h6 => ?_⟩⟩
  · obtain ⟨o, e⟩ := portSeek_serial hser h1 h2 h3
    simp only [commit_port, e, port_portChanged]
    have ep : port (emit o (sought n s)) n = _ := port_sought_self
    rw [ep]
    exact ⟨rfl, rfl, rfl, fun m hm => port_sought_ne hm⟩
  · have e : port (pkgReadied n s) n = _ := port_pkgReadied_self
    have ht : portSeek n (pkgReadied n s) = goTrain n (pkgReadied n s) :=
      portSeek_pkg hn (by rw [e]; exact h1) (by rw [e]; exact h2) h3 (by rw [e])
    simp only [commit_port]
    rw [← pkgReadied, ht, port_goTrain_self, e]
    exact ⟨rfl, rfl, fun m hm => by rw [port_goTrain_ne hm, pkgReadied, port_modPort_ne hm]⟩
  · have e : ¬ (nbits w.toNat 47 35 = ownId (beaconHeard n false s)
        ∧ nbits w.toNat 29 14 = (port (beaconHeard n false s) n).nonce.toNat) := by
      rw [ownId_beaconHeard, port_beaconHeard_self]; exact h6
    rw [commit_port, beacon_seek h1 h2 h3 h4 h5, beaconMet, if_neg e, port_goTrain_self, port_modPort_self, leads_beaconHeard]
    exact ⟨rfl, rfl⟩
  · have e : nbits w.toNat 47 35 = ownId (beaconHeard n false s)
        ∧ nbits w.toNat 29 14 = (port (beaconHeard n false s) n).nonce.toNat := by
      rw [ownId_beaconHeard, port_beaconHeard_self]; exact ⟨h6, h7⟩
    have ep (u : State) : port (nonceRenewed n u) n = { port u n with nonce := Config.freeNonce u.free } :=
      port_modPort_self n (fun p => { p with nonce := Config.freeNonce u.free }) { u with free := u.free + 1 }
    rw [commit_port, beacon_seek h1 h2 h3 h4 h5, beaconMet, if_pos e, ep, port_beaconHeard_self, free_beaconHeard]
    exact ⟨h1, rfl⟩
  · rw [commit_port, beacon_train h1 h2 h3]
    exact port_linkLoss _ _ _ _
  · rw [hser, h1, h2, decide_eq_true h3]; rfl
  · simp only [commit_port, port_portChanged]
    rw [port_modPort_self]
    exact ⟨rfl, h1, fun m hm => port_modPort_ne hm _ s⟩
  · exact trainComplete_serial hser h1 h2
  · exact trainComplete_pkg hn h1 h2
  · obtain ⟨x, hx⟩ := recTaken_port_self n b s
    have e := (alignTake_second (a := a) (b := b) (s := recTaken n b s) hser (by rw [hx]; exact h1) (by rw [hx]; exact h2) h3
      (by rw [hx]; exact h4) h5 (by rw [hx]; exact h6)).2 (alignCheck_recTaken.trans h7) h8
    rw [commit_port, commit_rd, e]
    exact alignDone_entered (le_of_serial hser)
  · obtain ⟨x, hx⟩ := recTaken_port_self n b s
    have e := (alignTake_second (a := a) (b := b) (s := recTaken n b s) hser (by rw [hx]; exact h1) (by rw [hx]; exact h2) h3
      (by rw [hx]; exact h4) h5 (by rw [hx]; exact h6)).1 r (alignCheck_recTaken.trans h7)
    rw [commit_port, commit_rbit, e, port_goFenced]
    exact ⟨rfl, rfl, by rw [goFenced, rbit_portChanged_alert, if_pos rfl, rbit_linkRaise]⟩
  · obtain ⟨x, hx⟩ := recTaken_port_self n b s
    rw [commit_port, keepTake_other hser h1 (by rw [hx]; exact h2) (by simpa only [rfld_recTaken] using h3)]
    exact port_linkLoss _ _ _ _
  · obtain ⟨x, hx⟩ := recTaken_port_self n b s
    have e : keepTake n b (recTaken n b s) = recTaken n b s := keepTake_same (by rw [hx]; exact h2) (by rw [rfld_recTaken]; exact h3)
      (by rw [rfld_recTaken]; exact h4) (by rw [rfld_recTaken]; exact h5) (by rw [rfld_recTaken]; exact h6)
    show run (fun s => keepTake n b (recTaken n b s)) s = _
    rw [hs.run, e, commit_recTaken hs]

end Sys2Proof.Machine
end

section
/-! SUPPORT. Codewords received (R118–R125). -/
namespace Sys2Proof.Machine

section
variable {n corr h : Nat} {body : List Byte} {s : State}

/-- A codeword that was decoded: its position and what it corrected are noted. -/
def codewordRead (n corr h : Nat) (s : State) : State :=
  modPort n (fun p => { p with uncorrRun := 0, pos := some (nbits h 17 13), lock := true }) (cntBy (R.prtFecCorrCount n) corr s)

/-- What a decoded codeword brings: cells, or a link record. -/
def codewordBody (n h : Nat) (body : List Byte) (s : State) : State :=
  if nbits h 19 18 = 0 then
    delimit n (nbits h 12 6) (slice body 0 640) (modPort n (fun p => { p with first := some (nextFirst (nbits h 12 6)) }) s)
  else if recordGood (body.take 64) then modPort n (fun p => { p with rxRec := some (body.take 64) }) s
  else s

theorem codeword_good (q : s.Quiet) (hser : serial n = true) (hst : (port s n).st = .active ∨ (port s n).st = .align)
    (ho : (port s n).ovlRun = false) (hh : headerGood (port s n) h = true) :
    codeword n true corr h body s = codewordBody n h body (codewordRead n corr h s) := by
  unfold codeword
  dsimp only
  rw [if_pos ⟨hser, hst⟩, ho, Bool.false_and, if_neg Bool.false_ne_true, hh, awlFire_quiet q]
  rfl

theorem codeword_bad (hser : serial n = true) (hst : (port s n).st = .active ∨ (port s n).st = .align)
    (ho : (port s n).ovlRun = false) : codeword n false corr h body s = uncorrectable n false s := by
  unfold codeword
  dsimp only
  rw [if_pos ⟨hser, hst⟩, ho, Bool.false_and, if_neg Bool.false_ne_true]
  rfl

/-! ### What each leaves -/

theorem rdN_codewordBody (a : Nat) : rdN (codewordBody n h body s) a = rdN s a := by
  unfold codewordBody
  split
  · rfl
  · split <;> rfl

theorem port_codewordBody_ne {m : Nat} (hm : m ≠ n) : port (codewordBody n h body s) m = port s m := by
  unfold codewordBody delimit
  split
  · dsimp only
    rw [port_modPort_ne hm, port_modPort_ne hm]
  · split
    · exact port_modPort_ne hm _ s
    · rfl

theorem port_codewordRead_self : port (codewordRead n corr h s) n =
    { port s n with uncorrRun := 0, pos := some (nbits h 17 13), lock := true } := by
  rw [codewordRead, port_modPort_self, (markStable_port n).cntBy]

theorem port_codewordRead_ne {m : Nat} (hm : m ≠ n) : port (codewordRead n corr h s) m = port s m := by
  rw [codewordRead, port_modPort_ne hm, (markStable_port m).cntBy]

theorem rdN_codewordRead : rdN (codewordRead n corr h s) (R.prtFecCorrCount n) = min (rdN s (R.prtFecCorrCount n) + corr) 0xFFFFFFFF :=
  (rdN_congr (modPort_regs _ _ _) _).trans (rdN_cntBy _ _ s)

theorem port_codewordBody_self : (port (codewordBody n h body s) n).pos = (port s n).pos
    ∧ (port (codewordBody n h body s) n).uncorrRun = (port s n).uncorrRun := by
  unfold codewordBody delimit
  split
  · dsimp only
    rw [port_modPort_self, port_modPort_self]
    exact ⟨rfl, rfl⟩
  · split
    · rw [port_modPort_self]; exact ⟨rfl, rfl⟩
    · exact ⟨rfl, rfl⟩

/-- A cell-stream codeword brings the cells of its body. -/
theorem rx_codewordBody (hk : nbits h 19 18 = 0) (hp : (port s n).part = none) : (port (codewordBody n h body s) n).rx =
    (port s n).rx ++ (cutCells 9 ((slice body 0 640).drop (nbits h 12 6))).1 := by
  unfold codewordBody delimit
  dsimp only
  rw [if_pos hk, port_modPort_self, port_modPort_self, hp]
  exact congrArg (· ++ _) (List.append_nil _)

/-- A control codeword brings no cells. -/
theorem rx_codewordBody_control (hk : nbits h 19 18 ≠ 0) : (port (codewordBody n h body s) n).rx = (port s n).rx := by
  unfold codewordBody
  rw [if_neg hk]
  split
  · rw [port_modPort_self]
  · rfl

theorem rxRec_codewordBody (hk : nbits h 19 18 ≠ 0) (hr : recordGood (body.take 64) = true) :
    (port (codewordBody n h body s) n).rxRec = some (body.take 64) := by
  unfold codewordBody
  rw [if_neg hk, if_pos hr, port_modPort_self]

/-- The port after a codeword that could not be corrected. -/
def uncorrectedPort (p : Port) : Port :=
  { p with
    uncorrRun := p.uncorrRun + 1, part := if p.pos == some 18 then p.part else none, pos := p.pos.map (fun q => (q + 1) % 20)
    first := if p.pos == some 18 then p.first else p.first.map nextFirst }

/-- The state in which a codeword that could not be corrected has been counted. -/
def uncorrected (n : Nat) (inj : Bool) (s : State) : State :=
  let u := evI (R.prtEvents n) 13 15 inj (cnt (R.prtFecUncorrCount n) s)
  modPort n uncorrectedPort (raise { i := 5, inj := inj, port := n, engine := rfld u (R.prtPeer n) 12 0 } u)

theorem uncorrectable_eq (inj : Bool) : uncorrectable n inj s =
    if 8 ≤ (port (uncorrected n inj s) n).uncorrRun then linkLoss n 9 inj (uncorrected n inj s) else uncorrected n inj s := rfl

theorem port_uncorrected_self (inj : Bool) : port (uncorrected n inj s) n = uncorrectedPort (port s n) := by
  have hp := markStable_port n
  unfold uncorrected
  rw [port_modPort_self, hp.raise_mk (by decide), hp.evI, hp.cnt]

theorem port_uncorrected_ne (inj : Bool) {m : Nat} (hm : m ≠ n) : port (uncorrected n inj s) m = port s m := by
  have hp := markStable_port m
  unfold uncorrected
  rw [port_modPort_ne hm, hp.raise_mk (by decide), hp.evI, hp.cnt]

theorem rbit_uncorrected (inj : Bool) : rbit (uncorrected n inj s) R.glbAlertStatus 5 = true :=
  (rbit_modPort _ _ _ _ _).trans (rbit_raise_alert_mk (by decide) _)

end

/-- Settles O23: a decoded codeword by what its body brings, another by what is counted. -/
theorem codewords : Obligations.Codewords := by
  intro s n ok corr h body hs q hser hst ho
  refine ⟨fun hok hh => ⟨_, hs.run _, ?_⟩, fun hok hu => ⟨_, hs.run _, ?_⟩⟩
  · simp only [hok, codeword_good q hser hst ho hh, commit_port, commit_rdN]
    have e := port_codewordRead_self (n := n) (corr := corr) (h := h) (s := s)
    refine ⟨?_, ?_, ?_, fun hk l hl hp => ?_, fun hk => ?_, fun hk hr => rxRec_codewordBody hk hr, fun m hm => ?_⟩
    · rw [port_codewordBody_self.1, e]
    · rw [port_codewordBody_self.2, e]
    · rw [rdN_codewordBody, rdN_codewordRead]
    · rw [rx_codewordBody hk (by rw [e]; exact hp), e, hl]
    · rw [rx_codewordBody_control hk, e]
    · rw [port_codewordBody_ne hm, port_codewordRead_ne hm]
  · have e := port_uncorrected_self (n := n) (s := s) false
    have hlt : ¬ 8 ≤ (port (uncorrected n false s) n).uncorrRun := by
      rw [e]; exact Nat.not_le.2 (Nat.succ_lt_succ hu)
    simp only [hok, codeword_bad hser hst ho, uncorrectable_eq, if_neg hlt, commit_port, commit_rbit]
    rw [e]
    exact ⟨rfl, rbit_uncorrected false, rfl, fun m hm => port_uncorrected_ne false hm⟩

end Sys2Proof.Machine
end

section
/-! SUPPORT. The receive checks, and what becomes of a cell that goes no further (R89, R95, R97–R102, R158, R446). -/
namespace Sys2Proof.Machine

section
variable {n : Nat} {b : List Byte} {c : Cell} {s : State}

/-- A cell that port `n` has delimited is taken from it. -/
def cellRead (n : Nat) (b : List Byte) (s : State) : State := modPort n (fun p => { p with rx := p.rx.erase b }) s

/-- A cell that is not IDLE_FILL is traffic of its port. -/
def cellTraffic (n : Nat) (b : List Byte) (s : State) : State :=
  modPort n (fun p => { p with traffic := now (cellRead n b s) }) (cellRead n b s)

/-- A failure of the hop check is counted (R89). -/
def hopFailed (n : Nat) (inj : Bool) (s : State) : State :=
  raise { i := 0, inj := inj, port := n } (cellDrop n (R.prtHopchkCount n) 0 inj s)

/-- A failure of another check is counted (Table 3.5). -/
def checkFailed (n cntr bit code : Nat) (inj : Bool) (c : Cell) (s : State) : State :=
  raise { i := 19, inj := inj, port := n, engine := wDest c, code := code } (cellDrop n cntr bit inj s)

/-- A cell of an idle version is counted (R446). -/
def staleCounted (n : Nat) (inj : Bool) (c : Cell) (s : State) : State :=
  raise { i := 7, inj := inj, port := n, engine := wSrc c, code := wEpoch c } (evI R.tblFlipEvents 3 6 inj (cnt R.tblStaleCount s))

theorem quiet_cellRead (q : s.Quiet) : (cellRead n b s).Quiet := q
theorem quiet_cellTraffic (q : s.Quiet) : (cellTraffic n b s).Quiet := q

/-- The checks a cell that is neither IDLE_FILL nor SYNC meets after the hop check. -/
def arriveChecks (n : Nat) (c : Cell) (s : State) : State × Arr × Cell :=
  if 12 ≤ wType c then (checkFailed n (R.prtTypeRsvdCount n) 1 4 false c s, .gone, c)
  else if !weltOk c then (checkFailed n (R.prtWeltBadCount n) 2 5 false c s, .gone, c)
  else if !wMcast c && wDest c == 0x1FFF then (checkFailed n (R.prtNoEngineCount n) 3 6 false c s, .gone, c)
  else
    let f := awlFire 19 (some n) none none s
    let s := f.1
    if f.2 then (checkFailed n (R.prtWeltBadCount n) 2 5 true c s, .gone, c)
    else if (n = 19 ∨ n = 20) ∧ ¬ (wMcast c = false ∧ wDest c = ownId s ∧ (wType c ∈ [4, 5, 6, 7, 9])) then
      (raise { i := 19, port := n, engine := wDest c, code := 23 } (cnt (R.prtSvcRefusedCount n) s), .gone, c)
    else
      let e := epochTest n c s
      let s := e.1
      if !e.2 then (s, .gone, c)
      else if wMcast c then (s, .mcast, c)
      else if wDest c = ownId s then (s, .endpoint, c)
      else if wHops c = 7 then (checkFailed n (R.prtHopLimitCount n) 4 9 false c s, .gone, c)
      else (s, .transit, c)

/-! ### The checks, one by one; the cell is named before they are looked at -/

theorem arrive_hopBad (hc : parseCell b = c) (h : hopOk b = false) : arrive n b s = (hopFailed n false (cellRead n b s), .gone, c) := by
  unfold arrive
  rw [hc]
  dsimp only
  rw [h]
  rfl

theorem arrive_idle (hc : parseCell b = c) (h : hopOk b = true) (h0 : wType c = 0) : arrive n b s = (cellRead n b s, .idleFill, c) := by
  unfold arrive
  rw [hc]
  dsimp only
  rw [h, if_neg (by decide), if_pos h0]
  rfl

theorem arrive_checked (hc : parseCell b = c) (q : s.Quiet) (h : hopOk b = true) (h0 : 0 < wType c) (h8 : wType c ≠ 8) :
    arrive n b s = arriveChecks n c (cellTraffic n b s) := by
  unfold arrive
  rw [hc]
  dsimp only
  rw [h, if_neg (by decide), if_neg h0.ne', ← cellRead, awlFire_quiet (quiet_cellRead q)]
  dsimp only
  rw [if_neg Bool.false_ne_true, if_neg h8]
  rfl

theorem arriveChecks_reserved (h : 12 ≤ wType c) :
    arriveChecks n c s = (checkFailed n (R.prtTypeRsvdCount n) 1 4 false c s, .gone, c) := if_pos h

theorem arriveChecks_weltBad (h : wType c < 12) (hw : weltOk c = false) :
    arriveChecks n c s = (checkFailed n (R.prtWeltBadCount n) 2 5 false c s, .gone, c) := by
  unfold arriveChecks
  rw [if_neg (Nat.not_le.2 h), hw]
  rfl

/-- The epoch test of a quiet engine. -/
theorem epochTest_idle (he : isExplicit c = false) (hv : verNow s (wEpoch c) = .idle)
    (hf : ∀ f, s.ep.armed = some f → mtcN s + 64 < f.toNat) : epochTest n c s = (staleCounted n false c s, false) := by
  unfold epochTest
  dsimp only
  rw [he, hv, if_neg Bool.false_ne_true]
  dsimp only
  cases ha : s.ep.armed with
  | none => rfl
  | some f => simp only [decide_eq_false (Nat.not_le.2 (hf f ha)), Bool.false_eq_true, if_false]; rfl

theorem arriveChecks_stale (q : s.Quiet) (h : wType c < 12) (hw : weltOk c = true) (hm : wMcast c = false) (hd : wDest c ≠ 0x1FFF)
    (h19 : n ≠ 19) (h20 : n ≠ 20) (he : epochTest n c s = (staleCounted n false c s, false)) :
    arriveChecks n c s = (staleCounted n false c s, .gone, c) := by
  unfold arriveChecks
  dsimp only
  rw [if_neg (Nat.not_le.2 h), hw, hm, awlFire_quiet q, he, if_neg (by decide), if_neg (by simpa using hd)]
  dsimp only
  rw [if_neg Bool.false_ne_true, if_neg (fun x => x.1.elim h19 h20)]
  rfl

/-! ### What the failures leave -/

theorem queuedCells_cellRead (m : Nat) : queuedCells (port (cellRead n b s) m) = queuedCells (port s m) := by
  unfold cellRead
  by_cases hm : m = n
  · rw [hm, port_modPort_self]; rfl
  · rw [port_modPort_ne hm]

theorem queuedCells_cellTraffic (m : Nat) : queuedCells (port (cellTraffic n b s) m) = queuedCells (port s m) := by
  refine Eq.trans ?_ (queuedCells_cellRead (n := n) (b := b) m)
  unfold cellTraffic
  by_cases hm : m = n
  · rw [hm, port_modPort_self]; rfl
  · rw [port_modPort_ne hm]

theorem rdN_cellRead (a : Nat) : rdN (cellRead n b s) a = rdN s a := rdN_congr (modPort_regs _ _ _) a
theorem rdN_cellTraffic (a : Nat) : rdN (cellTraffic n b s) a = rdN s a := (rdN_congr (modPort_regs _ _ _) a).trans (rdN_cellRead a)

variable {cntr bit : Nat}

/-- A failing cell is counted with its event. -/
theorem rdN_cellDrop (inj : Bool) (h : cntr ≠ R.prtCellEvents n) :
    rdN (cellDrop n cntr bit inj s) cntr = min (rdN s cntr + 1) 0xFFFFFFFF := by
  rw [cellDrop, rdN_evI_ne h, cnt, rdN_cntBy]

theorem hopFailed_counts (hn : n ≤ 30) : rdN (hopFailed n false s) (R.prtHopchkCount n) = min (rdN s (R.prtHopchkCount n) + 1) 0xFFFFFFFF
    ∧ rbit (hopFailed n false s) (R.prtCellEvents n) 0 = true ∧ rbit (hopFailed n false s) R.glbAlertStatus 0 = true := by
  have h1 : raiseReg (R.prtHopchkCount n) = false := raiseReg_of_mid (by unfold R.prtHopchkCount; omega) (by unfold R.prtHopchkCount; omega)
  have h2 : raiseReg (R.prtCellEvents n) = false := raiseReg_of_mid (by unfold R.prtCellEvents; omega) (by unfold R.prtCellEvents; omega)
  unfold hopFailed
  refine ⟨?_, ?_, rbit_raise_alert_mk (by decide) _⟩
  · rw [rdN_raise_mk (by decide) h1, rdN_cellDrop false (by unfold R.prtHopchkCount R.prtCellEvents; omega)]
  · rw [rbit_raise_mk (by decide) h2, cellDrop, rbit_evI _ _ _ _ _ (by decide) (by decide) (by decide)]

theorem checkFailed_counts {code : Nat} (h1 : 0x180 ≤ cntr) (h2 : cntr < 0x13000C) (h3 : cntr ≠ R.prtCellEvents n) :
    rdN (checkFailed n cntr bit code false c s) cntr = min (rdN s cntr + 1) 0xFFFFFFFF
    ∧ rbit (checkFailed n cntr bit code false c s) R.glbAlertStatus 19 = true := by
  unfold checkFailed
  exact ⟨by rw [rdN_raise_mk (by decide) (raiseReg_of_mid h1 h2), rdN_cellDrop false h3], rbit_raise_alert_mk (by decide) _⟩

theorem staleCounted_counts : rdN (staleCounted n false c s) R.tblStaleCount = min (rdN s R.tblStaleCount + 1) 0xFFFFFFFF
    ∧ rbit (staleCounted n false c s) R.glbAlertStatus 7 = true := by
  unfold staleCounted
  exact ⟨by rw [rdN_raise_mk (by decide) (by decide), rdN_evI_ne (by decide), cnt, rdN_cntBy], rbit_raise_alert_mk (by decide) _⟩

theorem port_hopFailed (inj : Bool) (m : Nat) : port (hopFailed n inj s) m = port s m := by
  rw [hopFailed, (markStable_port m).raise_mk (by decide), (markStable_port m).cellDrop]

theorem port_checkFailed {code : Nat} (inj : Bool) (m : Nat) : port (checkFailed n cntr bit code inj c s) m = port s m := by
  rw [checkFailed, (markStable_port m).raise_mk (by decide), (markStable_port m).cellDrop]

theorem port_staleCounted (inj : Bool) (m : Nat) : port (staleCounted n inj c s) m = port s m := by
  rw [staleCounted, (markStable_port m).raise_mk (by decide), (markStable_port m).evI, (markStable_port m).cnt]

/-- A cell that goes no further, as TRANSIT_CELL handles it. -/
theorem exec_transitCell_gone {t : State} (hs : s.Ready) (hr : rxOk s n b = true) (h : arrive n b s = (t, .gone, c)) :
    exec (.transitCell n b) s = .next (commit false s t) := by
  refine (hs.run_whenB hr _).trans ?_
  rw [h]

/-- A cell that fails one of the checks after the hop check. -/
theorem exec_transitCell_checkFailed {code : Nat} (hs : s.Ready) (hr : rxOk s n b = true)
    (h : arrive n b s = (checkFailed n cntr bit code false c (cellTraffic n b s), .gone, c))
    (h1 : 0x180 ≤ cntr) (h2 : cntr < 0x13000C) (h3 : cntr ≠ R.prtCellEvents n) :
    ∃ t, exec (.transitCell n b) s = .next t ∧ rdN t cntr = min (rdN s cntr + 1) 0xFFFFFFFF ∧ rbit t R.glbAlertStatus 19 = true
      ∧ ∀ m, queuedCells (port t m) = queuedCells (port s m) := by
  obtain ⟨e1, e2⟩ := checkFailed_counts (n := n) (bit := bit) (code := code) (c := c) (s := cellTraffic n b s) h1 h2 h3
  refine ⟨_, exec_transitCell_gone hs hr h, ?_, ?_, fun m => ?_⟩
  · rw [commit_rdN, e1, rdN_cellTraffic]
  · rw [commit_rbit, e2]
  · rw [commit_port, port_checkFailed, queuedCells_cellTraffic]

theorem exec_transitCell_hopBad (hs : s.Ready) (hr : rxOk s n b = true) (h : hopOk b = false) (hn : n ≤ 30) :
    ∃ t, exec (.transitCell n b) s = .next t ∧ rdN t (R.prtHopchkCount n) = min (rdN s (R.prtHopchkCount n) + 1) 0xFFFFFFFF
      ∧ rbit t (R.prtCellEvents n) 0 = true ∧ rbit t R.glbAlertStatus 0 = true
      ∧ ∀ m, queuedCells (port t m) = queuedCells (port s m) := by
  obtain ⟨e1, e2, e3⟩ := hopFailed_counts (s := cellRead n b s) hn
  refine ⟨_, exec_transitCell_gone hs hr (arrive_hopBad rfl h), ?_, ?_, ?_, fun m => ?_⟩
  · rw [commit_rdN, e1, rdN_cellRead]
  · rw [commit_rbit, e2]
  · rw [commit_rbit, e3]
  · rw [commit_port, port_hopFailed, queuedCells_cellRead]

theorem exec_transitCell_stale (hs : s.Ready) (hr : rxOk s n b = true)
    (h : arrive n b s = (staleCounted n false c (cellTraffic n b s), .gone, c)) :
    ∃ t, exec (.transitCell n b) s = .next t ∧ rdN t R.tblStaleCount = min (rdN s R.tblStaleCount + 1) 0xFFFFFFFF
      ∧ rbit t R.glbAlertStatus 7 = true ∧ ∀ m, queuedCells (port t m) = queuedCells (port s m) := by
  obtain ⟨e1, e2⟩ := staleCounted_counts (n := n) (c := c) (s := cellTraffic n b s)
  refine ⟨_, exec_transitCell_gone hs hr h, ?_, ?_, fun m => ?_⟩
  · rw [commit_rdN, e1, rdN_cellTraffic]
  · rw [commit_rbit, e2]
  · rw [commit_port, port_staleCounted, queuedCells_cellTraffic]

theorem exec_idleFill (hs : s.Ready) (hr : rxOk s n b = true) (hc : parseCell b = c) (h : hopOk b = true) (h0 : wType c = 0) :
    ∃ t, exec (.idleFill n b) s = .next t ∧ t.regs = s.regs ∧ ∀ m, queuedCells (port t m) = queuedCells (port s m) := by
  refine ⟨_, hs.run_whenB (by rw [hr, hc, h0]; rfl) _, ?_, fun m => ?_⟩
  · rw [commit_regs, arrive_idle hc h h0]
    exact modPort_regs _ _ _
  · rw [commit_port, arrive_idle hc h h0, queuedCells_cellRead]

end

/-- Settles O24: each check by what it counts. -/
theorem receiveChecks : Obligations.ReceiveChecks := by
  intro s n b c hs q hr hc
  have hn : n ≤ 30 := by
    rw [rxOk, Bool.and_eq_true, decide_eq_true_eq] at hr
    exact hr.1.2
  refine ⟨fun h => exec_transitCell_hopBad hs hr h hn, fun h h0 => exec_idleFill hs hr hc.symm h h0, fun h h12 => ?_,
    fun h h0 h12 h8 hw => ?_, fun h h0 h12 h8 hw hm hd ho h19 h20 he hv hf => ?_⟩
  · exact exec_transitCell_checkFailed hs hr ((arrive_checked hc.symm q h (by omega) (by omega)).trans (arriveChecks_reserved h12))
      (by unfold R.prtTypeRsvdCount; omega) (by unfold R.prtTypeRsvdCount; omega) (by unfold R.prtTypeRsvdCount R.prtCellEvents; omega)
  · exact exec_transitCell_checkFailed hs hr ((arrive_checked hc.symm q h h0 h8).trans (arriveChecks_weltBad h12 hw))
      (by unfold R.prtWeltBadCount; omega) (by unfold R.prtWeltBadCount; omega) (by unfold R.prtWeltBadCount R.prtCellEvents; omega)
  · exact exec_transitCell_stale hs hr ((arrive_checked hc.symm q h h0 h8).trans
      (arriveChecks_stale (quiet_cellTraffic q) h12 hw hm hd h19 h20 (epochTest_idle he hv hf)))

end Sys2Proof.Machine
end

section
/-! SUPPORT. Transit cells: their circuit, their route and the queue they enter (R163, R170, R171, R183, R190). -/
namespace Sys2Proof.Machine

section
variable {n : Nat} {b : List Byte} {c : Cell} {s t : State}

/-- The receive checks in order, the cell named. -/
theorem arrive_eq (hc : parseCell b = c) : arrive n b s =
    if !hopOk b then (hopFailed n false (cellRead n b s), .gone, c)
    else if wType c = 0 then (cellRead n b s, .idleFill, c)
    else
      let f := awlFire 0 (some n) none none (cellRead n b s)
      if f.2 then (hopFailed n true f.1, .gone, c)
      else if wType c = 8 then (f.1, .sync, c)
      else arriveChecks n c (modPort n (fun p => { p with traffic := now f.1 }) f.1) := by
  unfold arrive
  rw [hc]
  rfl

/-- The receive checks answer the cell they were given. -/
theorem arriveChecks_cell : (arriveChecks n c s).2.2 = c := by
  unfold arriveChecks
  dsimp only
  repeat' split
  all_goals rfl

theorem arrive_cell : (arrive n b s).2.2 = parseCell b := by
  rw [arrive_eq rfl]
  dsimp only
  repeat' split
  all_goals first | rfl | exact arriveChecks_cell

/-- A cell that goes on its way is a unicast cell with a destination (Table 3.5, check 6). -/
theorem arriveChecks_transit (h : (arriveChecks n c s).2.1 = .transit) : wMcast c = false ∧ wDest c ≠ 0x1FFF := by
  by_cases h6 : (!wMcast c && wDest c == 0x1FFF) = true
  · unfold arriveChecks at h
    rw [if_pos h6] at h
    split at h
    · cases h
    split at h <;> cases h
  by_cases hm : wMcast c = true
  · unfold arriveChecks at h
    rw [if_neg h6, hm] at h
    dsimp only at h
    generalize awlFire 19 (some n) none none s = f at h
    generalize epochTest n c f.1 = e at h
    repeat' split at h
    all_goals contradiction
  · rw [Bool.not_eq_true] at hm
    refine ⟨hm, fun x => h6 ?_⟩
    rw [hm, x]
    rfl

theorem arrive_transit (h : arrive n b s = (t, .transit, c)) : wMcast c = false ∧ wDest c ≠ 0x1FFF := by
  have hc : parseCell b = c := by rw [← arrive_cell (n := n) (s := s), h]
  have ha : (arrive n b s).2.1 = .transit := by rw [h]
  rw [arrive_eq hc] at ha
  generalize awlFire 0 (some n) none none (cellRead n b s) = f at ha
  dsimp only at ha
  repeat' split at ha
  case isFalse.isFalse.isFalse.isFalse => exact arriveChecks_transit ha
  all_goals cases ha

/-! ### Circuits and routes (R160, R183) -/

theorem tblLookup_quiet (q : s.Quiet) {a : Nat} (ha : a ∉ s.eccBad) (arr : Nat) : tblLookup a arr s = (s, some (rdPrev s a)) := by
  unfold tblLookup
  dsimp only
  rw [if_neg ha, awlFire_quiet q]
  rfl

theorem routeLookup_quiet (q : s.Quiet) {v d : Nat} (hd : d ≠ 0x1FFF) (ha : R.routeTbl v d ∉ s.eccBad) (arr : Nat) :
    routeLookup v d arr s = (s, routeOf (rdPrev s (R.routeTbl v d))) := by
  unfold routeLookup
  rw [if_neg hd, tblLookup_quiet q ha]
  rfl

/-- Cells of other TYPEs, and those without an entry, match no circuit. -/
theorem circuitLookup_none (h : wType c ≠ 1 ∧ wType c ≠ 2 ∨ findCircuit s n (wStream c) 128 = none) :
    circuitLookup n c s = (s, none) := by
  unfold circuitLookup
  split
  · rename_i hd
    rw [h.resolve_left (fun x => hd.1.elim x.1 x.2)]
  · rfl

theorem circuitLookup_some (q : s.Quiet) {i : Nat} (ht : wType c = 1 ∨ wType c = 2) (hm : wMcast c = false)
    (hf : findCircuit s n (wStream c) 128 = some i) (ha : R.circuitTbl i ∉ s.eccBad) :
    circuitLookup n c s = (s, some (fld (rdPrev s (R.circuitTbl i)) 13 9)) := by
  unfold circuitLookup
  rw [if_pos ⟨ht, by rw [hm]; rfl⟩, hf]
  dsimp only
  rw [tblLookup_quiet q ha]

/-! ### Forwarding (R170, R183) -/

/-- A transit cell admitted to a queue has its HOPS raised. -/
def entered (n : Nat) (k : QCls) (c : Cell) (s : State) : State :=
  modPort n (fun p => putQueue k (queue p k ++ [setWelt 3 1 (wHops c + 1) c]) p) s

theorem enter_quiet (q : s.Quiet) {p : Nat} (hd : (port s p).st ≠ .doze) (k : QCls) : enter p k c s = entered p k c s := by
  unfold enter
  rw [awlFire_quiet q]
  exact enqueue_of_not_doze hd k _

@[simp] theorem queue_putQueue (k : QCls) (l : List Cell) (p : Port) : queue (putQueue k l p) k = l := by cases k <;> rfl

theorem queue_entered (p : Nat) (k : QCls) :
    queue (port (entered p k c s) p) k = queue (port s p) k ++ [setWelt 3 1 (wHops c + 1) c] := by
  rw [entered, port_modPort_self, queue_putQueue]

theorem port_entered_ne {p m : Nat} (h : m ≠ p) (k : QCls) : port (entered p k c s) m = port s m := port_modPort_ne h _ s

/-- A cell that matched a circuit whose port is unusable, or none, goes by its route (R170, R171). -/
def routed (matched : Bool) (n : Nat) (c : Cell) (s : State) : State :=
  match (routeLookup (wEpoch c) (wDest c) n s).2 with
  | none => noRoute n c (routeLookup (wEpoch c) (wDest c) n s).1
  | some e =>
    if !matched && (wVc c == 1 || (wVc c == 0 && e.ring)) then ringTransit e c (routeLookup (wEpoch c) (wDest c) n s).1
    else tableTransit n e c (routeLookup (wEpoch c) (wDest c) n s).1

theorem routed_none (hr : routeLookup (wEpoch c) (wDest c) n s = (s, none)) (m : Bool) : routed m n c s = noRoute n c s := by
  unfold routed
  rw [hr]

theorem routed_some {e : Route} (hr : routeLookup (wEpoch c) (wDest c) n s = (s, some e)) (hv : wVc c ≠ 1) (hg : e.ring = false)
    (m : Bool) : routed m n c s = tableTransit n e c s := by
  unfold routed
  rw [hr]
  dsimp only
  rw [hg, Bool.and_false, Bool.or_false, beq_false_of_ne hv, Bool.and_false]
  exact if_neg Bool.false_ne_true

/-- A cell without a circuit goes by its route. -/
theorem transit_table (he : isExplicit c = false) (hc : circuitLookup n c s = (s, none)) : transit n c s = routed false n c s := by
  unfold transit
  rw [he, hc]
  exact if_neg Bool.false_ne_true

theorem transit_circuit (he : isExplicit c = false) {o : Nat} (hc : circuitLookup n c s = (s, some o)) (hu : usable s true o = true)
    (hq : 0 < queueFree s o .circuit) : transit n c s = enter o .circuit c s := by
  unfold transit
  rw [he, hc]
  dsimp only
  rw [if_neg Bool.false_ne_true, if_pos hu, if_pos hq]

theorem tableTransit_room {e : Route} (hu : usable s true e.primary = true) (hq : 0 < queueFree s e.primary (tableQueue c)) :
    tableTransit n e c s = enter e.primary (tableQueue c) c s := by
  unfold tableTransit
  dsimp only
  rw [if_pos hu, if_pos hq]

theorem tableTransit_limit {e : Route} (hu : usable s true e.primary = true) (hq : queueFree s e.primary (tableQueue c) = 0)
    (hl : deflectMax s < wDefl c + 1) : tableTransit n e c s = deflectLimit e.primary false c s := by
  unfold tableTransit
  dsimp only
  rw [if_pos hu, if_neg (by rw [hq]; decide), if_pos hl]

/-! ### Discards -/

theorem rdN_telDisc (p k a : Nat) (inj : Bool) : rdN (telDisc p k inj s) a = rdN s a := rfl

theorem deflectLimit_counts {p : Nat} (hp : p ≤ 30) : (deflectLimit p false c s).ports = s.ports
    ∧ rbit (deflectLimit p false c s) R.glbAlertStatus 6 = true
    ∧ rdN (deflectLimit p false c s) (R.prtDeflectDiscardCount p) = min (rdN s (R.prtDeflectDiscardCount p) + 1) 0xFFFFFFFF := by
  refine ⟨markStable_ports.routeDrop _ _ _ _ _ _, ?_, ?_⟩
  · exact rbit_raise_alert_mk (by decide) _
  · unfold deflectLimit routeDrop
    rw [rdN_raise_mk (by decide) (raiseReg_of_mid (by unfold R.prtDeflectDiscardCount; omega) (by unfold R.prtDeflectDiscardCount; omega)),
      rdN_telDisc, rdN_evI_ne (by unfold R.prtDeflectDiscardCount R.prtRouteEvents; omega), cnt, rdN_cntBy]

theorem noRoute_counts : (noRoute n c s).ports = s.ports
    ∧ rdN (noRoute n c s) R.tblNoRouteCount = min (rdN s R.tblNoRouteCount + 1) 0xFFFFFFFF
    ∧ rbit (noRoute n c s) R.glbAlertStatus 19 = true := by
  refine ⟨markStable_ports.noRoute _ _ _, ?_, rbit_raise_alert_mk (by decide) _⟩
  unfold noRoute
  rw [rdN_raise_mk (by decide) (by decide), rdN_evI_ne (by decide), cnt, rdN_cntBy]

theorem exec_transitCell (hs : s.Ready) (hr : rxOk s n b = true) (h : arrive n b s = (t, .transit, c)) :
    exec (.transitCell n b) s = .next (commit false s (transit n c t)) := by
  refine (hs.run_whenB hr _).trans ?_
  rw [h]

end

/-- Settles O25. -/
theorem transitCells : Obligations.TransitCells := by
  intro s s1 n b c hs hr h q he hvc
  obtain ⟨hm, hd⟩ := arrive_transit h
  have hv : wVc c ≠ 1 := by omega
  have table (hc : wType c ≠ 1 ∧ wType c ≠ 2 ∨ findCircuit s1 n (wStream c) 128 = none) := transit_table he (circuitLookup_none hc)
  have route {e : Option Route} (ha : R.routeTbl (wEpoch c) (wDest c) ∉ s1.eccBad)
      (hroute : routeOf (rdPrev s1 (R.routeTbl (wEpoch c) (wDest c))) = e) := (routeLookup_quiet q hd ha n).trans (by rw [hroute])
  have entersAt {p : Nat} {k : QCls} (ht : transit n c s1 = enter p k c s1) (hdz : (port s1 p).st ≠ .doze) :
      ∃ t, exec (.transitCell n b) s = .next t ∧ queue (port t p) k = queue (port s1 p) k ++ [setWelt 3 1 (wHops c + 1) c]
        ∧ t.regs = s1.regs ∧ ∀ m, m ≠ p → port t m = port s1 m := by
    refine ⟨_, exec_transitCell hs hr h, ?_⟩
    rw [ht, enter_quiet q hdz]
    exact ⟨by rw [commit_port, queue_entered], by rw [commit_regs]; exact modPort_regs _ _ _,
      fun m hm => by rw [commit_port, port_entered_ne hm]⟩
  refine ⟨fun e hc ha hroute hring hu => ?_, fun hc ha hroute => ⟨_, exec_transitCell hs hr h, ?_⟩,
    fun i o ht hmc hf ha ho hu hq hdz => ?_⟩
  · have ht : transit n c s1 = tableTransit n e c s1 := (table hc).trans (routed_some (route ha hroute) hv hring false)
    refine ⟨fun hq hdz => entersAt (ht.trans (tableTransit_room hu hq)) hdz, fun hq hl => ⟨_, exec_transitCell hs hr h, ?_⟩⟩
    rw [ht, tableTransit_limit hu hq hl, commit_ports, commit_rbit, commit_rdN]
    refine deflectLimit_counts ?_
    rw [usable, Bool.and_eq_true, Bool.and_eq_true, decide_eq_true_eq] at hu
    exact hu.1.1.2
  · rw [table hc, routed_none (route ha hroute), commit_ports, commit_rbit, commit_rdN]
    exact noRoute_counts
  · have hl := circuitLookup_some q ht hmc hf ha
    rw [← ho] at hl
    exact entersAt (transit_circuit he hl hu hq) hdz

end Sys2Proof.Machine
end

section
/-! SUPPORT. The registers that looking up, queueing and injecting a cell can write: those of ports, of routing and of circuits,
of detectors and of injection points. -/
namespace Sys2Proof.Machine

/-- Registers that no injection writes: those of CTRL cells, of multicast, of flips and of streams, and those of combiners and of
memory. -/
def keptReg (a : Nat) : Bool := decide ((0x250 ≤ a ∧ a < 0x258) ∨ (0x80110 ≤ a ∧ a < 0xC0044) ∨ (0xD0000 ≤ a ∧ a < 0x130000))

theorem keptReg_false {a : Nat} (h : ¬ ((0x250 ≤ a ∧ a < 0x258) ∨ (0x80110 ≤ a ∧ a < 0xC0044) ∨ (0xD0000 ≤ a ∧ a < 0x130000))) : keptReg a = false :=
  decide_eq_false h

/-- A reading of the state that depends on nothing an injection changes, the kept registers among it. -/
structure InjectStable {α : Type} (g : State → α) : Prop where
  wr : ∀ a v s, keptReg a = false → g (wr a v s) = g s
  touch : ∀ a v s, g (touch a v s) = g s
  dets : ∀ x s, g { s with dets := x } = g s
  jq : ∀ x s, g { s with jq := x } = g s
  push : ∀ x n s, g { s with pushq := x, pseq := n } = g s
  tbl : ∀ x y s, g { s with eccBad := x, tblOld := y } = g s
  awl : ∀ x s, g { s with awl := x } = g s
  tel : ∀ x s, g { s with tel := x } = g s
  ports : ∀ x s, g { s with ports := x } = g s
  waiting : ∀ x s, g { s with waiting := x } = g s
  localQ : ∀ x s, g { s with localQ := x } = g s
  out : ∀ o s, g (emit o s) = g s

theorem injectStable_rd {a : Nat} (ha : keptReg a = true) : InjectStable (rd · a) where
  wr b v s hb := rd_wr_ne (fun e => by rw [e, hb] at ha; cases ha) v s
  touch _ _ _ := rfl
  dets _ _ := rfl
  jq _ _ := rfl
  push _ _ _ := rfl
  tbl _ _ _ := rfl
  awl _ _ := rfl
  tel _ _ := rfl
  ports _ _ := rfl
  waiting _ _ := rfl
  localQ _ _ := rfl
  out _ _ := rfl

/-- A route names ports 4 to 30, and 31 where it has no alternate. -/
theorem routeOf_ports {w : Word} {e : Route} (h : routeOf w = some e) : e.primary ≤ 30 := by
  unfold routeOf at h
  dsimp only at h
  split at h
  · rename_i hw; cases h; exact hw.2.2.2
  · cases h

theorem findCircuit_lt {s : State} {n st k i : Nat} (h : findCircuit s n st k = some i) : i < k := by
  induction k with
  | zero => cases h
  | succ k ih =>
    unfold findCircuit at h
    split at h
    · rename_i j hj
      cases h
      exact Nat.lt_succ_of_lt (ih hj)
    · dsimp only at h
      split at h
      · cases h; exact Nat.lt_succ_self _
      · cases h

theorem fld_13_9_lt (w : Word) : fld w 13 9 < 32 := by
  rw [fld, nbits]; exact Nat.mod_lt _ (by decide)

namespace InjectStable
variable {α : Type} {g : State → α}

theorem raiseStable (h : InjectStable g) : RaiseStable g where
  wr a v s ha := h.wr a v s (by
    unfold raiseReg at ha
    rw [decide_eq_true_iff] at ha
    refine keptReg_false ?_
    simp only [R.glbAlertStatus, R.glbAlertInjected, R.glbEventHead, R.glbEventLostCount, R.mgtEvents, R.mgtPushDropCount,
      R.jnlLostCount] at ha
    omega)
  touch := h.touch
  dets := h.dets
  jq := h.jq
  push := h.push
  tbl := h.tbl

theorem ev (h : InjectStable g) {a : Nat} (ha : keptReg a = false) (i : Nat) (s : State) : g (ev a i s) = g s := by
  rw [Machine.ev, h.touch]; exact h.wr _ _ _ ha
theorem cnt (h : InjectStable g) {a : Nat} (ha : keptReg a = false) (s : State) : g (cnt a s) = g s := by
  rw [Machine.cnt, Machine.cntBy, h.touch]; exact h.wr _ _ _ ha
theorem wbitAt (h : InjectStable g) {a : Nat} (ha : keptReg a = false) (i : Nat) (b : Bool) (s : State) : g (wbitAt a i b s) = g s :=
  h.wr _ _ _ ha
theorem evI (h : InjectStable g) {a : Nat} (ha : keptReg a = false) (i b : Nat) (inj : Bool) (s : State) : g (evI a i b inj s) = g s := by
  unfold Machine.evI
  split
  · rw [h.ev ha, h.ev ha]
  · rw [h.wbitAt ha, h.ev ha]
theorem raise_mk (h : InjectStable g) {i : Nat} {inj : Bool} {p k n e c a : Nat} (hi : i < 32) (s : State) :
    g (Machine.raise ⟨i, inj, p, k, n, e, c, a⟩ s) = g s := h.raiseStable.raise _ hi s

theorem awlStore (h : InjectStable g) (i : Nat) (p : AwlPoint) (s : State) : g (awlStore i p s) = g s := by
  unfold Machine.awlStore; rw [h.wbitAt (by decide), h.awl]

theorem awlFire (h : InjectStable g) (i : Nat) (p q r : Option Nat) (s : State) : g (awlFire i p q r s).1 = g s := by
  unfold Machine.awlFire
  dsimp only
  split
  · split
    · split
      · rw [h.ev (by decide), h.touch, h.awlStore]
      · rw [h.touch, h.awlStore]
    · exact h.awlStore _ _ _
  · rfl

theorem tblEccHit (h : InjectStable g) (p a : Nat) (inj : Bool) (s : State) : g (tblEccHit p a inj s) = g s := by
  unfold Machine.tblEccHit
  rw [h.raise_mk (by decide), wrN, h.wr _ _ _ (by decide), h.cnt (by decide)]

theorem tblLookup (h : InjectStable g) (a n : Nat) (s : State) : g (tblLookup a n s).1 = g s := by
  unfold Machine.tblLookup
  dsimp only
  split
  · exact h.tblEccHit _ _ _ _
  · split
    · dsimp only
      rw [h.tblEccHit, h.awlFire]
    · exact h.awlFire _ _ _ _ _

theorem routeLookup (h : InjectStable g) (v d n : Nat) (s : State) : g (routeLookup v d n s).1 = g s := by
  unfold Machine.routeLookup
  split
  · rfl
  · exact h.tblLookup _ _ _

theorem noRoute (h : InjectStable g) (n : Nat) (c : Cell) (s : State) : g (noRoute n c s) = g s := by
  unfold Machine.noRoute; rw [h.raise_mk (by decide), h.evI (by decide), h.cnt (by decide)]

theorem recountCircuits (h : InjectStable g) (s : State) : g (recountCircuits s) = g s := by
  unfold Machine.recountCircuits
  refine forEach_field g _ _ (fun n hn s => h.wr _ _ s ?_) s
  have hn : n ≤ 15 := by
    have := List.mem_range'_1.1 hn
    omega
  exact keptReg_false (by unfold R.parCircuitsOpen; omega)

theorem circuitLookup (h : InjectStable g) (n : Nat) (c : Cell) (s : State) : g (circuitLookup n c s).1 = g s := by
  unfold Machine.circuitLookup
  split
  · split
    · rfl
    · rename_i i hi
      have hk : keptReg (R.circuitTbl i) = false := by
        have := findCircuit_lt hi
        exact keptReg_false (by unfold R.circuitTbl; omega)
      dsimp only
      split
      · exact h.tblLookup _ _ _
      · rw [h.recountCircuits, Machine.tblWrite, h.tbl, h.wr _ _ _ hk, h.tblLookup]
  · rfl

section
variable {n : Nat} (hn : n < 32)
include hn

/-! Registers of ports are not kept. -/

theorem keptReg_prtEvents : keptReg (R.prtEvents n) = false := keptReg_false (by unfold R.prtEvents; omega)
theorem keptReg_prtResumeCount : keptReg (R.prtResumeCount n) = false := keptReg_false (by unfold R.prtResumeCount; omega)
theorem keptReg_prtRouteEvents : keptReg (R.prtRouteEvents n) = false := keptReg_false (by unfold R.prtRouteEvents; omega)
theorem keptReg_prtFailoverCount : keptReg (R.prtFailoverCount n) = false := keptReg_false (by unfold R.prtFailoverCount; omega)
theorem keptReg_prtCircuitFallbackCount : keptReg (R.prtCircuitFallbackCount n) = false :=
  keptReg_false (by unfold R.prtCircuitFallbackCount; omega)
end

theorem resume (h : InjectStable g) {n : Nat} (hn : n < 32) (r : Bool) (s : State) : g (resume n r s) = g s := by
  have h1 := keptReg_prtEvents hn
  have h2 := keptReg_prtResumeCount hn
  have hp (f : Port → Port) (s : State) : g (modPort n f s) = g s := h.ports _ s
  unfold Machine.resume
  dsimp only
  split
  · rw [hp]
    split
    · rw [h.out]
      split
      · rw [h.out, h.cnt h2, h.ev h1]
      · rw [h.ev h1]
    · split
      · rw [h.out, h.cnt h2, h.ev h1]
      · rw [h.ev h1]
  · rfl

theorem enqueue (h : InjectStable g) {n : Nat} (hn : n < 32) (k : QCls) (c : Cell) (s : State) : g (enqueue n k c s) = g s := by
  have hp (f : Port → Port) (s : State) : g (modPort n f s) = g s := h.ports _ s
  unfold Machine.enqueue
  dsimp only
  split
  · rw [h.resume hn, hp]
  · exact hp _ _

theorem circuitFallback (h : InjectStable g) {o : Nat} (ho : o < 32) (s : State) : g (circuitFallback o s) = g s := by
  unfold Machine.circuitFallback
  rw [h.evI (keptReg_prtRouteEvents ho), h.cnt (keptReg_prtCircuitFallbackCount ho)]

theorem injectBy (h : InjectStable g) (ring : Nat) (c : Cell) {e : Route} (he : e.primary < 32) (s : State) :
    g (injectBy ring c e s).1 = g s := by
  unfold Machine.injectBy
  split
  · split
    · rfl
    · exact h.noRoute _ _ _
  · split
    · rfl
    · split
      · rw [h.evI (keptReg_prtRouteEvents he), h.cnt (keptReg_prtFailoverCount he)]
      · exact h.noRoute _ _ _

theorem routeLookup_primary {v d n : Nat} {s : State} {e : Route} (h : (Machine.routeLookup v d n s).2 = some e) : e.primary < 32 := by
  unfold Machine.routeLookup at h
  split at h
  · cases h
  · obtain ⟨w, _, hw⟩ := Option.bind_eq_some_iff.1 h
    exact Nat.lt_of_le_of_lt (routeOf_ports hw) (by decide)

theorem injectTable (h : InjectStable g) (ring : Nat) (c : Cell) (s : State) : g (injectTable ring c s).1 = g s := by
  unfold Machine.injectTable
  dsimp only
  split
  · rw [h.noRoute, h.routeLookup]
  · rename_i e he
    rw [h.injectBy _ _ (routeLookup_primary he), h.routeLookup]

/-- The port of a circuit entry is one of 0 to 31. -/
theorem circuitLookup_port {n o : Nat} {c : Cell} {s : State} (h : (Machine.circuitLookup n c s).2 = some o) : o < 32 := by
  unfold Machine.circuitLookup at h
  split at h
  · split at h
    · cases h
    · dsimp only at h
      split at h
      · cases h; exact fld_13_9_lt _
      · cases h
  · cases h

theorem injectRoute (h : InjectStable g) (ring : Nat) (c : Cell) (s : State) : g (injectRoute ring c s).1 = g s := by
  unfold Machine.injectRoute
  dsimp only
  split
  · rename_i o ho
    split
    · exact h.circuitLookup _ _ _
    · rw [h.injectTable, h.circuitFallback (circuitLookup_port ho), h.circuitLookup]
  · rw [h.injectTable, h.circuitLookup]

theorem injectAt (h : InjectStable g) (k ring : Nat) (c : Cell) {p : Nat} (hp : p < 32) (q : QCls) (s : State) :
    g (injectAt k ring c p q s).1 = g s := by
  unfold Machine.injectAt
  split
  · exact h.enqueue hp _ _ _
  · exact h.waiting _ s

theorem usable_lt {s : State} {b : Bool} {p : Nat} (h : usable s b p = true) : p < 32 := by
  rw [usable, Bool.and_eq_true, Bool.and_eq_true, decide_eq_true_eq] at h
  omega

theorem injectCell (h : InjectStable g) (k ring : Nat) (c : Cell) (s : State) : g (injectCell k ring c s).1 = g s := by
  unfold Machine.injectCell
  split
  · exact h.localQ _ s
  · split
    · exact h.injectRoute _ _ _
    · rename_i hr
      rw [h.injectAt _ _ _ (usable_lt (injectRoute_usable hr)), h.injectRoute]

/-- Injecting a cell changes no such reading. -/
theorem inject (h : InjectStable g) (k ring : Nat) (c : Cell) (s : State) : g (inject k ring c s).1 = g s := by
  unfold Machine.inject
  split
  · exact h.injectCell _ _ _ _
  · exact h.waiting _ s

theorem injectOwn (h : InjectStable g) (c : Cell) (s : State) : g (injectOwn c s) = g s := by
  rw [Machine.injectOwn]
  exact SwitchStable.afterInject_field (h.inject 256 0 c s)

end InjectStable

end Sys2Proof.Machine
end

section
/-! SUPPORT. Cells sent at a cell boundary, and cells that wait at their source, in the hold store or for their tick (R94, R95,
R165–R168, R209, R211, R214, R387). -/
namespace Sys2Proof.Machine

/-! ### Sending (R94, R95, R118, R166) -/

theorem stream_congr {p q : Port} (h1 : p.txBuf = q.txBuf) (h2 : p.txCells = q.txCells) (n : Nat) (b : List Byte) :
    stream n p b = stream n q b := by
  unfold stream
  rw [h1, h2]

section
variable {n : Nat} {s : State} {k : QCls} {c : Cell} {rest : List Cell}

theorem queue_congr {p q : Port} (h1 : p.qVc3 = q.qVc3) (h2 : p.qVc2 = q.qVc2) (h3 : p.qCirc = q.qCirc) (h4 : p.qVc0s = q.qVc0s)
    (h5 : p.qVc0r = q.qVc0r) (h6 : p.qVc1r = q.qVc1r) (k : QCls) : queue p k = queue q k := by
  cases k <;> assumption

/-- The port after its queue `k` has had its turn, with `rest` left in it. -/
def servedPort (k : QCls) (rest : List Cell) (t : Nat) (p : Port) : Port :=
  turned k (putQueue k rest { p with traffic := if k = .vc3 then p.traffic else t })

/-- A queue has had its turn, and the congestion map has counted the cell. -/
def served (n : Nat) (k : QCls) (rest : List Cell) (s : State) : State :=
  modTel n (fun x => { x with sent := x.sent + 1, circ := x.circ + b2n (k == .circuit) }) (modPort n (servedPort k rest (now s)) s)

theorem port_served_self : port (served n k rest s) n = servedPort k rest (now s) (port s n) := port_modPort_self n _ s
theorem port_served_ne {m : Nat} (h : m ≠ n) : port (served n k rest s) m = port s m := port_modPort_ne h _ s

theorem servedPort_tx (t : Nat) (p : Port) : (servedPort k rest t p).txBuf = p.txBuf ∧ (servedPort k rest t p).txCells = p.txCells := by
  cases k <;> exact ⟨rfl, rfl⟩

theorem queue_servedPort (t : Nat) (p : Port) : queue (servedPort k rest t p) k = rest := by cases k <;> rfl

theorem transmit_queued (hst : (port s n).st = .active) (hp : pickQueue (port s n) = some k) (hk : k ≠ .vc3)
    (hq : queue (port s n) k = c :: rest) : transmit n s = cellBegun c (slotSend n (cellWire c) (served n k rest s)) := by
  have hs : sends (port s n) = true := by rw [sends, hst]; rfl
  unfold transmit
  dsimp only
  rw [if_pos (.inl hst), if_pos hs, hp]
  dsimp only
  rw [hq]
  dsimp only
  rw [if_neg hk]
  rfl

/-- Cells of other engines begin without more (R237, R283, R400). -/
theorem cellBegun_foreign (h : wSrc c ≠ ownId s) : cellBegun c s = { s with tags := s.tags.map (tailSent s c) } := if_neg h

theorem port_cellBegun_foreign (h : wSrc c ≠ ownId s) (m : Nat) : port (cellBegun c s) m = port s m := by
  rw [cellBegun_foreign h]; rfl
theorem out_cellBegun_foreign (h : wSrc c ≠ ownId s) : (cellBegun c s).out = s.out := by rw [cellBegun_foreign h]
theorem regs_cellBegun_foreign (h : wSrc c ≠ ownId s) : (cellBegun c s).regs = s.regs := by rw [cellBegun_foreign h]

theorem regs_slotSend (b : List Byte) : (slotSend n b s).regs = s.regs := rfl
theorem regs_served : (served n k rest s).regs = s.regs := rfl
theorem out_served : (served n k rest s).out = s.out := rfl

theorem out_slotSend (b : List Byte) : (slotSend n b s).out = s.out ++ .cell n b :: (stream n (port s n) b).2 := rfl

/-- A cell boundary before the control codeword is due. -/
theorem boundary_cell (h : (port (transmit n s) n).txCells < 159) : boundary n s = cellCounted n s := by
  have e : (port (cellCounted n s) n).txCells = (port (transmit n s) n).txCells + 1 := by rw [cellCounted, port_modPort_self]
  rw [boundary_eq, if_neg (fun x => by rw [e] at x; omega)]

theorem cellCounted_out : (cellCounted n s).out = (transmit n s).out := rfl

theorem exec_cellTransmit (hs : s.Ready) (hser : serial n = true) (hst : (port s n).st = .active)
    (h : (port (transmit n s) n).txCells < 159) : exec (.cellTransmit n) s = .next (commit false s (cellCounted n s)) := by
  rw [← boundary_cell h]
  exact hs.run_whenB (by rw [hser, hst]; rfl) _

theorem regs_cellCounted : (cellCounted n s).regs = (transmit n s).regs := modPort_regs _ _ _
theorem port_cellCounted_self : port (cellCounted n s) n = { port (transmit n s) n with txCells := (port (transmit n s) n).txCells + 1 } :=
  port_modPort_self n _ _
theorem port_cellCounted_ne {m : Nat} (h : m ≠ n) : port (cellCounted n s) m = port (transmit n s) m := port_modPort_ne h _ _

theorem exec_cellTransmit_idle (hs : s.Ready) (hser : serial n = true) (hst : (port s n).st = .active) (hc : (port s n).txCells < 159)
    (hp : pickQueue (port s n) = none) : ∃ t, exec (.cellTransmit n) s = .next t
      ∧ t.out = s.out ++ .cell n (cellWire (idleCell s)) :: (stream n (port s n) (cellWire (idleCell s))).2
      ∧ (port t n).txCells = (port s n).txCells + 1 ∧ t.regs = s.regs ∧ ∀ m, m ≠ n → port t m = port s m := by
  have ht := transmit_idle (.inl hst) hp
  have hpn : port (transmit n s) n = _ := (congrArg (port · n) ht).trans (port_slotSend_self n _ s)
  refine ⟨_, exec_cellTransmit hs hser hst (by rw [hpn]; exact hc), ?_, ?_, ?_, fun m hm => ?_⟩
  · rw [commit_out, cellCounted_out, ht, out_slotSend]
  · rw [commit_port, port_cellCounted_self, hpn]
  · rw [commit_regs, regs_cellCounted, ht]; rfl
  · rw [commit_port, port_cellCounted_ne hm, ht, port_slotSend_ne hm]

theorem exec_cellTransmit_queued (hs : s.Ready) (hser : serial n = true) (hst : (port s n).st = .active) (hc : (port s n).txCells < 159)
    (hp : pickQueue (port s n) = some k) (hk : k ≠ .vc3) (hq : queue (port s n) k = c :: rest) (hw : wSrc c ≠ ownId s) :
    ∃ t, exec (.cellTransmit n) s = .next t ∧ t.out = s.out ++ .cell n (cellWire c) :: (stream n (port s n) (cellWire c)).2
      ∧ queue (port t n) k = rest
      ∧ (port t n).txCells = (port s n).txCells + 1 ∧ t.regs = s.regs ∧ ∀ m, m ≠ n → port t m = port s m := by
  have ht := transmit_queued hst hp hk hq
  have hu : (slotSend n (cellWire c) (served n k rest s)).regs = s.regs := (regs_slotSend _).trans regs_served
  have hf : wSrc c ≠ ownId (slotSend n (cellWire c) (served n k rest s)) := by rw [ownId, rfld_congr hu]; exact hw
  have hpn : port (transmit n s) n = { servedPort k rest (now s) (port s n) with
      txBuf := (stream n (port (served n k rest s) n) (cellWire c)).1 } := by
    rw [ht, port_cellBegun_foreign hf, port_slotSend_self, port_served_self]
  have htx := servedPort_tx (k := k) (rest := rest) (now s) (port s n)
  refine ⟨_, exec_cellTransmit hs hser hst (by rw [hpn, htx.2]; exact hc), ?_, ?_, ?_, ?_, fun m hm => ?_⟩
  · rw [commit_out, cellCounted_out, ht, out_cellBegun_foreign hf, out_slotSend, port_served_self, stream_congr htx.1 htx.2, out_served]
  · rw [commit_port, port_cellCounted_self, hpn]
    exact (queue_congr rfl rfl rfl rfl rfl rfl k).trans (queue_servedPort (now s) (port s n))
  · rw [commit_port, port_cellCounted_self, hpn, htx.2]
  · rw [commit_regs, regs_cellCounted, ht, regs_cellBegun_foreign hf, hu]
  · rw [commit_port, port_cellCounted_ne hm, ht, port_cellBegun_foreign hf, port_slotSend_ne hm, port_served_ne hm]

end

/-! ### Cells that wait no longer (R168, R211, R400) -/

theorem sameCell_refl (c : Cell) : sameCell c c = true := beq_self_eq_true _

/-- A field replaced within another leaves no trace once that one is replaced. -/
theorem setWelt_setWelt_within {hi lo h l v w : Nat} (c : Cell) (h1 : l ≤ lo) (h2 : hi ≤ h) :
    setWelt h l w (setWelt hi lo v c) = setWelt h l w c := by
  unfold setWelt
  congr 1
  refine BitVec.eq_of_getLsbD_eq fun i hi64 => ?_
  simp only [BitVec.getLsbD_ofNat, nput_testBit, BitVec.toNat_ofNat, Nat.testBit_mod_two_pow, hi64, decide_true, Bool.true_and]
  by_cases hin : l ≤ i ∧ i < l + (h + 1 - l)
  · rw [if_pos hin, if_pos hin]
  · rw [if_neg hin, if_neg hin, if_neg (by omega)]

/-- The VC a queued cell rides does not make it another cell. -/
theorem sameCell_asQueued (k : QCls) (c : Cell) : sameCell (asQueued k c) c = true := by
  unfold asQueued
  split
  · rw [sameCell, setWelt_setWelt_within c (by decide) (by decide)]
    exact beq_self_eq_true _
  · exact sameCell_refl c

section
variable {s : State} {w : Waiting} {c d : Cell} {p : Nat} {k : QCls}

/-- A queue that holds a cell belongs to a port that stands in the table. -/
theorem mem_ports_of_queue (h : c ∈ queue (port s p) k) : ∃ j, (j, port s p) ∈ s.ports := by
  unfold port tget at h ⊢
  split
  · rename_i x hx; exact tfind_mem p x _ hx
  · rename_i hx
    rw [hx] at h
    cases k <;> cases h

/-- A cell in a queue is held. -/
theorem cellHeld_of_queue (h : c ∈ queue (port s p) k) (hd : sameCell c d = true) : cellHeld s d = true := by
  obtain ⟨j, hj⟩ := mem_ports_of_queue h
  have hw (l : List Cell) (hl : c ∈ l) : l.any (fun e => sameCell e d) = true := List.any_eq_true.2 ⟨c, hl, hd⟩
  have h1 (hl : c ∈ (port s p).qVc0s ++ (port s p).qVc0r ++ (port s p).qVc1r ++ (port s p).qCirc) : cellHeld s d = true := by
    have ha : s.ports.any (fun p => (p.2.qVc0s ++ p.2.qVc0r ++ p.2.qVc1r ++ p.2.qCirc).any (fun e => sameCell e d)) = true :=
      List.any_eq_true.2 ⟨_, hj, hw _ hl⟩
    rw [cellHeld, cellWaits, ha, Bool.or_true, Bool.true_or]
  have h2 (hl : c ∈ (port s p).qVc2 ++ (port s p).qVc3) : cellHeld s d = true := by
    have ha : s.ports.any (fun p => (p.2.qVc2 ++ p.2.qVc3).any (fun e => sameCell e d)) = true := List.any_eq_true.2 ⟨_, hj, hw _ hl⟩
    rw [cellHeld, ha, Bool.or_true]
  cases k with
  | vc3 => exact h2 (List.mem_append_right _ h)
  | vc2 => exact h2 (List.mem_append_left _ h)
  | circuit => exact h1 (List.mem_append_right _ h)
  | vc0s => exact h1 (List.mem_append_left _ (List.mem_append_left _ (List.mem_append_left _ h)))
  | vc0r => exact h1 (List.mem_append_left _ (List.mem_append_left _ (List.mem_append_right _ h)))
  | vc1r => exact h1 (List.mem_append_left _ (List.mem_append_right _ h))

/-- A cell that waits is held. -/
theorem cellHeld_of_waiting (h : w ∈ s.waiting) : cellHeld s w.cell = true := by
  have ha : s.waiting.any (fun v => sameCell v.cell w.cell) = true := List.any_eq_true.2 ⟨w, h, sameCell_refl _⟩
  rw [cellHeld, cellWaits, ha, Bool.true_or, Bool.true_or]

/-- With every cell that waited before held somewhere, none was lost. -/
theorem settleLost_of_held {old : List Waiting} (h : ∀ v ∈ old, cellHeld s v.cell = true) : settleLost old s = s := by
  have e : old.filter (fun v => !cellHeld s v.cell) = [] := List.filter_eq_nil_iff.2 (fun v hv => by rw [h v hv]; decide)
  unfold settleLost
  rw [e]
  rfl

/-! ### A waiting cell that is admitted -/

/-- Where a waiting unicast cell goes when its queue has room. -/
def admitted (w : Waiting) (s : State) : State :=
  modPort w.port (fun p => putQueue w.cls (queue p w.cls ++ [asQueued w.cls w.cell]) p) (dropWaiting w s)

theorem offerCell_room (hf : w.fresh = false) (hu : usable s false w.port = true)
    (hn : injectNeed w.ring w.cls ≤ queueFree s w.port w.cls) (hd : (port s w.port).st ≠ .doze) : offerCell w s = admitted w s := by
  unfold offerCell
  rw [hf, if_neg Bool.false_ne_true, if_pos hu, if_pos hn]
  exact enqueue_of_not_doze (s := dropWaiting w s) hd _ _

theorem queue_admitted : queue (port (admitted w s) w.port) w.cls = queue (port s w.port) w.cls ++ [asQueued w.cls w.cell] := by
  rw [admitted, port_modPort_self, queue_putQueue]
  rfl

theorem waiting_admitted : (admitted w s).waiting = s.waiting.erase w := rfl

theorem cellHeld_admitted {v : Waiting} (hv : v ∈ s.waiting) : cellHeld (admitted w s) v.cell = true := by
  by_cases e : v = w
  · rw [e]
    exact cellHeld_of_queue (p := w.port) (k := w.cls) (by rw [queue_admitted]; exact List.mem_append_right _ (List.mem_singleton.2 rfl))
      (sameCell_asQueued _ _)
  · exact cellHeld_of_waiting (by rw [waiting_admitted]; exact (List.mem_erase_of_ne e).2 hv)

theorem injectionAdmit_single {n : Nat} (hk : n ≠ 256 ∨ s.waiting.filter (fun v => v.stream == 256) = [w])
    (hw : firstWaiting s n = some w) : injectionAdmit n s = offerCell w s := by
  unfold injectionAdmit
  split
  · rename_i e
    rw [hk.resolve_left (fun x => x e)]
    rfl
  · rw [hw]

theorem admitNext_single {n : Nat} (hk : n ≠ 256 ∨ s.waiting.filter (fun v => v.stream == 256) = [w])
    (hw : firstWaiting s n = some w) (hm : w.mc = false) : admitNext n s = offerCell w s := by
  unfold admitNext
  rw [hw]
  dsimp only
  rw [hm, if_neg Bool.false_ne_true, injectionAdmit_single hk hw]

/-- Where a waiting source copy goes when its queue has room. -/
def copyAdmitted (w : Waiting) (s : State) : State :=
  mcServed w.stream w.cell [w.port] (modPort w.port (fun p => putQueue .vc0s (queue p .vc0s ++ [w.cell]) p) (dropWaiting w s))

theorem admitNext_copy (hw : s.waiting = [w]) (hm : w.mc = true) (hf : w.fresh = false) (hu : usable s false w.port = true)
    (hq : 0 < queueFree s w.port .vc0s) (hd : (port s w.port).st ≠ .doze) : admitNext w.stream s = copyAdmitted w s := by
  have hp : w.port ≠ 31 := by have := InjectStable.usable_lt hu; rw [usable, Bool.and_eq_true, Bool.and_eq_true, decide_eq_true_eq] at hu; omega
  have h1 : firstWaiting s w.stream = some w := by simp [firstWaiting, hw]
  have h2 : s.waiting.filter (fun v => v.stream == w.stream && v.mc && v.port != 31 && sameCell v.cell w.cell) = [w] := by
    simp [hw, hm, hp, sameCell_refl]
  have h3 : admitCopy w s = copyAdmitted w s := by
    unfold admitCopy
    rw [hf, if_neg Bool.false_ne_true, hu, decide_eq_true hq, if_pos (Bool.and_self _)]
    exact congrArg (mcServed w.stream w.cell [w.port]) (enqueue_of_not_doze (s := dropWaiting w s) hd _ _)
  unfold admitNext
  rw [h1]
  dsimp only
  rw [if_pos hm, if_neg hp, h2]
  exact h3

theorem waiting_copyAdmitted (hw : s.waiting = [w]) : (copyAdmitted w s).waiting = [] := by
  have e : (dropWaiting w s).waiting = [] := by rw [dropWaiting, hw]; simp
  show List.map _ (dropWaiting w s).waiting = []
  rw [e]
  rfl

theorem queue_copyAdmitted : queue (port (copyAdmitted w s) w.port) .vc0s = queue (port s w.port) .vc0s ++ [w.cell] := by
  have e : port (copyAdmitted w s) w.port = putQueue .vc0s (queue (port s w.port) .vc0s ++ [w.cell]) (port s w.port) :=
    port_modPort_self w.port (fun p => putQueue .vc0s (queue p .vc0s ++ [w.cell]) p) (dropWaiting w s)
  rw [e, queue_putQueue]

/-! ### Held copies (R209) -/

/-- A held copy goes to its port's queue. -/
def heldAdmitted (h : Held) (s : State) : State :=
  modPort h.port (fun p => putQueue .vc0s (queue p .vc0s ++ [h.cell]) p) { s with hold := s.hold.erase h }

/-- What is done with one held copy. -/
def heldOffer (h : Held) (s : State) : State :=
  if !usable s true h.port then transitLoss h.port rPortUnusable false h.cell { s with hold := s.hold.erase h }
  else if h.since < now s ∧ 0 < queueFree s h.port .vc0s then enqueue h.port .vc0s h.cell { s with hold := s.hold.erase h }
  else s

theorem offerHeld_eq (s : State) : offerHeld s = forEach s.hold heldOffer s := rfl

theorem offerHeld_room {h : Held} (hh : s.hold = [h]) (hu : usable s true h.port = true) (ht : h.since < now s)
    (hq : 0 < queueFree s h.port .vc0s) (hd : (port s h.port).st ≠ .doze) : offerHeld s = heldAdmitted h s := by
  have e : forEach [h] heldOffer s = heldOffer h s := rfl
  rw [offerHeld_eq, hh, e, heldOffer, hu, if_neg (by decide), if_pos ⟨ht, hq⟩]
  exact enqueue_of_not_doze (s := { s with hold := s.hold.erase h }) hd _ _

end

/-! ### Held copies that have expired (R209, R212) -/

theorem MarkStable.resume {α : Type} {g : State → α} (h : MarkStable g) (hp : ∀ x s, g { s with ports := x } = g s)
    (ho : ∀ o s, g (emit o s) = g s) (n : Nat) (r : Bool) (s : State) : g (resume n r s) = g s := by
  have hm (f : Port → Port) (s : State) : g (modPort n f s) = g s := hp _ s
  unfold Machine.resume
  dsimp only
  split
  · rw [hm]
    split
    · rw [ho]
      split
      · rw [ho, h.cnt, h.ev]
      · rw [h.ev]
    · split
      · rw [ho, h.cnt, h.ev]
      · rw [h.ev]
  · rfl

theorem MarkStable.enqueue {α : Type} {g : State → α} (h : MarkStable g) (hp : ∀ x s, g { s with ports := x } = g s)
    (ho : ∀ o s, g (emit o s) = g s) (n : Nat) (k : QCls) (c : Cell) (s : State) : g (enqueue n k c s) = g s := by
  have hm (f : Port → Port) (s : State) : g (modPort n f s) = g s := hp _ s
  unfold Machine.enqueue
  dsimp only
  split
  · rw [h.resume hp ho, hm]
  · exact hm _ s

/-- Cells have been added to those that wait, none of them a multicast copy. -/
def Joined (t s : State) : Prop := ∃ l, t.waiting = s.waiting ++ l ∧ ∀ w ∈ l, w.mc = false

theorem Joined.of_eq {s t : State} (h : t.waiting = s.waiting) : Joined t s := ⟨[], h.trans (List.append_nil _).symm, by simp⟩

theorem Joined.congr {s t u : State} (h : Joined t u) (e : u.waiting = s.waiting) : Joined t s := by
  obtain ⟨l, hl, hm⟩ := h
  exact ⟨l, by rw [hl, e], hm⟩

/-- Injecting the engine's own cell may leave it waiting behind the others, as a unicast cell. -/
theorem joined_injectOwn (c : Cell) (s : State) : Joined (injectOwn c s) s := by
  have at_ (ring : Nat) (c : Cell) (p : Nat) (k : QCls) (s : State) : Joined (injectAt 256 ring c p k s).1 s := by
    unfold injectAt
    split
    · exact .of_eq (markStable_waiting.enqueue (fun _ _ => rfl) (fun _ _ => rfl) p k _ s)
    · exact ⟨_, rfl, by simp⟩
  have cell (c : Cell) : Joined (injectCell 256 0 c s).1 s := by
    have e := markStable_waiting.injectRoute 0 c s
    unfold injectCell
    split
    · exact .of_eq rfl
    · split
      · exact .of_eq e
      · exact (at_ _ _ _ _ _).congr e
  have inj : Joined (inject 256 0 c s).1 s := by
    unfold inject
    split
    · exact cell _
    · exact ⟨_, rfl, by simp⟩
  exact inj

section
variable {n r : Nat} {inj : Bool} {c : Cell} {s : State}

theorem joined_transitLoss : Joined (transitLoss n r inj c s) s := by
  have e := markStable_waiting.branchLoss (wStream c) 0xFF n r inj c s
  unfold transitLoss noticeSend
  dsimp only
  split
  · exact .of_eq ((markStable_waiting.cnt _ _).trans e)
  · exact (joined_injectOwn _ _).congr e

/-- A branch loss counts the copy in TBL_MC_DROP_COUNT (R212). -/
theorem rdN_branchLoss (st p : Nat) : rdN (branchLoss st p n r inj c s) R.tblMcDropCount = min (rdN s R.tblMcDropCount + 1) 0xFFFFFFFF := by
  unfold branchLoss
  extract_lets s1 s2 s3 s4
  have e1 : rdN s1 R.tblMcDropCount = min (rdN s R.tblMcDropCount + 1) 0xFFFFFFFF := by
    unfold s1; rw [rdN_evI_ne (by decide), cnt, rdN_cntBy]
  have e2 : rdN s2 R.tblMcDropCount = rdN s1 R.tblMcDropCount := by
    unfold s2; split
    · exact rdN_ev_ne (by decide) _ _
    · rfl
  have e3 : rdN s3 R.tblMcDropCount = rdN s2 R.tblMcDropCount := rdN_ev_ne (by decide) _ _
  have e4 : rdN s4 R.tblMcDropCount = rdN s3 R.tblMcDropCount := by
    unfold s4; split
    · exact rdN_telDisc _ _ _ _
    · rfl
  rw [rdN_raise_mk (by decide) (by decide), e4, e3, e2, e1]

theorem rdN_noticeSend {a : Nat} (ha : keptReg a = true) (h : a ≠ R.tblMcNoticeSuppressedCount) :
    rdN (noticeSend n r inj c s) a = rdN s a := by
  unfold noticeSend
  split
  · exact rdN_cnt_ne h s
  · extract_lets key l u
    rw [rdN, (injectStable_rd ha).injectOwn, rdN]
    rfl

theorem rdN_transitLoss : rdN (transitLoss n r inj c s) R.tblMcDropCount = min (rdN s R.tblMcDropCount + 1) 0xFFFFFFFF := by
  rw [transitLoss, rdN_noticeSend (by decide) (by decide), rdN_branchLoss]

theorem hold_transitLoss : (transitLoss n r inj c s).hold = s.hold := by
  have e := switchStable_hold.markStable.branchLoss (wStream c) 0xFF n r inj c s
  unfold transitLoss noticeSend
  dsimp only
  split
  · exact (switchStable_hold.cnt _ _).trans e
  · exact (switchStable_hold.injectOwn _ _).trans e

end

/-- What is done with one held copy that has expired, and with one that waits. -/
def heldExpire (h : Held) (s : State) : State := transitLoss h.port rHoldExpired false h.cell { s with hold := s.hold.erase h }
def copyExpire (w : Waiting) (s : State) : State :=
  sourceLoss w.stream w.port rHoldExpired false w.cell (mcServed w.stream w.cell [w.port] (dropWaiting w s))

theorem expireHeld_eq (s : State) : expireHeld s =
    (let u := forEach (s.hold.filter (fun h => decide (h.since + laceHold s ≤ now s))) heldExpire s
     forEach (u.waiting.filter (fun w => w.mc && !w.fresh && decide (w.since + laceHold u ≤ now u))) copyExpire u) := rfl

theorem expireHeld_single {s : State} {h : Held} (hh : s.hold = [h]) (ht : h.since + laceHold s ≤ now s)
    (hw : ∀ w ∈ s.waiting, w.mc = false) : expireHeld s = heldExpire h s ∧ Joined (heldExpire h s) s := by
  have hj : Joined (heldExpire h s) s := joined_transitLoss (s := { s with hold := s.hold.erase h })
  have h1 : s.hold.filter (fun h => decide (h.since + laceHold s ≤ now s)) = [h] := by rw [hh]; simp [ht]
  have h2 (l d : Nat) : (heldExpire h s).waiting.filter (fun w => w.mc && !w.fresh && decide (w.since + l ≤ d)) = [] := by
    obtain ⟨x, hx, hm⟩ := hj
    refine List.filter_eq_nil_iff.2 (fun w hww => ?_)
    rw [hx] at hww
    have e : w.mc = false := (List.mem_append.1 hww).elim (hw w) (hm w)
    rw [e]
    simp
  refine ⟨?_, hj⟩
  rw [expireHeld_eq, h1]
  show forEach (List.filter _ (heldExpire h s).waiting) copyExpire (heldExpire h s) = _
  rw [h2]
  rfl

/-! ### Ticks of waiting (R168) -/

section
variable {s : State} {w : Waiting} {a : Nat}

/-- Machine time writes the registers of machine time and the boot step only. -/
theorem rd_setJoined_ne (h1 : a ≠ R.mtcStatus) (h2 : a ≠ R.glbBootStatus) (s : State) : rd (setJoined s) a = rd s a := by
  have e (x : RootS) (s : State) : rd ({ s with roots := x } : State) a = rd s a := rfl
  unfold setJoined enterStep7
  dsimp only
  split
  · rw [rd_wbitAt_ne h2, rd_wfld_ne h2, e, rd_wbitAt_ne h1]
  · rw [e, rd_wbitAt_ne h1]

theorem rd_tickTime (h : 0x40000 ≤ a) (s : State) : rd (tickTime s) a = rd s a := by
  have h1 : a ≠ R.mtcStatus := fun e => absurd h (by rw [e]; decide)
  have h2 : a ≠ R.glbBootStatus := fun e => absurd h (by rw [e]; decide)
  have h3 : a ≠ R.mtcEvents := fun e => absurd h (by rw [e]; decide)
  have e (x : TimeS) (s : State) : rd ({ s with t := x } : State) a = rd s a := rfl
  have free (s : State) (hn : s.t.hold = none) : rd (tickTime s) a = rd s a := by
    have j : rd (tickJumped (tickOpened s)) a = rd s a := rd_ev_ne h3 _ _
    rw [tickTime_of_hold_none hn]
    split
    · split
      · rw [rd_setJoined_ne h1 h2, j]
      · exact j
    · split
      · rfl
      · split <;> rfl
  cases hh : s.t.hold with
  | none => exact free s hh
  | some k =>
    cases k with
    | zero =>
      rw [tickTime_of_hold_done hh, free _ (by rw [endHold_t])]
      unfold endHold
      dsimp only
      split
      · rw [rd_setJoined_ne h1 h2]; rfl
      · rfl
    | succ k => simp [tickTime, holdDone, hh, rd]

/-- A reading that no mark, no count of waiting and nothing of machine time changes. -/
structure TickStable {α : Type} (g : State → α) : Prop extends TimeStable g where
  waits : ∀ x s, g { s with waits := x } = g s
  map : ∀ x s, g { s with map := x } = g s
  closed : ∀ x y z v s, g { s with touch := [], tblOld := x, pkgWrote := y, staged := z, stagedNow := v } = g s

namespace TickStable
variable {α : Type} {g : State → α}

theorem countWait (h : TickStable g) (n : Nat) (s : State) : g (countWait n s) = g s := by
  rw [Machine.countWait, h.modTel, h.cnt]

theorem count (h : TickStable g) (w : WaitMark) (s : State) : g (w.count s) = g s := by
  cases w with
  | window _ _ _ l => exact forEach_field g _ _ (fun _ _ s => h.countWait _ s) s
  | tag _ _ _ _ _ => exact h.cnt _ s
  | copy => exact h.cnt _ s
  | gate _ _ _ => exact (h.ev _ _ _).trans (h.cnt _ s)
  | slot _ _ _ => exact (h.ev _ _ _).trans (h.cnt _ s)

theorem countTicks (h : TickStable g) (s : State) : g (countTicks s) = g s := by
  unfold Machine.countTicks countWaits
  extract_lets s1 s2 s3
  have e1 : g s1 = g s := (forEach_field g _ _ (fun _ _ s => h.countWait _ s) _).trans (h.waits _ s)
  have e2 : g s2 = g s1 := forEach_field g _ _ (fun _ _ s => h.count _ s) _
  have e3 : g s3 = g s2 := by
    unfold s3; split
    · rfl
    · exact (h.ev _ _ _).trans (h.cntBy _ _ _)
  exact (forEach_field g _ _ (fun _ _ s => h.cntBy _ _ s) s3).trans (e3.trans (e2.trans e1))

theorem telSample (h : TickStable g) (n : Nat) (s : State) : g (telSample n s) = g s := h.tel _ s

theorem tickClosed (h : TickStable g) (s : State) : g (tickClosed s) = g s := by
  have e : g (forEach (range 4 30) Machine.telSample (Machine.countTicks s)) = g s :=
    (forEach_field g Machine.telSample _ (fun n _ s => h.telSample n s) _).trans (h.countTicks s)
  rw [← e]
  unfold Machine.tickClosed
  generalize forEach (range 4 30) Machine.telSample (Machine.countTicks s) = u
  exact h.closed _ _ _ _ u

theorem endHold (h : TickStable g) (s : State) : g (endHold s) = g s := by
  unfold Machine.endHold
  dsimp only
  split
  · rw [h.setJoined, h.t]
  · exact h.t _ s

theorem tickJumped (h : TickStable g) (s : State) : g (tickJumped s) = g s := by
  unfold Machine.tickJumped
  rw [h.ev]
  exact (h.map { s.map with jumped := true } { s with
    t := { s.t with mtc := s.t.mtc + BitVec.ofNat 64 s.t.jump, jump := 0, jumpFrom := some s.t.mtc } }).trans (h.t _ s)

theorem tickTime (h : TickStable g) (s : State) : g (tickTime s) = g s := by
  have free (s : State) (hn : s.t.hold = none) : g (Machine.tickTime s) = g s := by
    have j : g (Machine.tickJumped (tickOpened s)) = g s := (h.tickJumped _).trans (h.t _ s)
    rw [tickTime_of_hold_none hn]
    split
    · split
      · rw [h.setJoined, j]
      · exact j
    · split
      · exact h.t _ s
      · split
        · exact h.t _ s
        · exact h.t _ s
  cases hh : s.t.hold with
  | none => exact free s hh
  | some k =>
    cases k with
    | zero => rw [tickTime_of_hold_done hh, free _ (by rw [endHold_t]), h.endHold]
    | succ k =>
      have hd : holdDone s = false := by simp [holdDone, hh]
      have ho : (tickOpened s).t.hold = some (k + 1) := hh
      unfold Machine.tickTime
      rw [hd, if_neg Bool.false_ne_true]
      change g (match (tickOpened s).t.hold with | some k => _ | none => _) = _
      rw [ho]
      exact h.t _ s

end TickStable

theorem tickStable_waiting : TickStable State.waiting := by
  constructor <;> first | (constructor <;> first | exact markStable_waiting | (intros; rfl)) | (intros; rfl)
theorem tickStable_txns : TickStable State.txns := by
  constructor <;> first | (constructor <;> first | exact switchStable_txns.markStable | (intros; rfl)) | (intros; rfl)

/-- With no package write outstanding a tick is the closing of the old one and the counter. -/
theorem tick_of_txns (h : s.txns = []) : tick s = tickTime (tickClosed s) := by
  have e : (tickTime (tickClosed s)).txns = [] := by rw [tickStable_txns.tickTime, tickStable_txns.tickClosed, h]
  show pkgRelease (tickTime (tickClosed s)) = _
  unfold pkgRelease
  rw [e]
  rfl

/-- The ticks of waiting of cells, when nothing else waits, leave the registers of ports as counting each cell does. -/
theorem rd_countTicks (hw : s.waits = []) (ha : a < 0xA0000) :
    rd (countTicks s) a = rd (countWaits { s with waits := [] }) a := by
  have e0 : (countWaits { s with waits := [] }).waits = [] :=
    forEach_field State.waits (fun (w : Waiting) s => countWait w.port s) _ (fun _ _ _ => rfl) { s with waits := [] }
  have e1 : (forEach (countWaits { s with waits := [] }).waits WaitMark.count (countWaits { s with waits := [] }))
      = countWaits { s with waits := [] } := by rw [e0]; rfl
  unfold countTicks
  rw [hw]
  extract_lets s1 s2 s3
  have h1 : s2 = s1 := e1
  have h3 : rd s3 a = rd s1 a := by
    unfold s3
    rw [h1]
    split
    · rfl
    · rw [rd_ev_ne (fun e => absurd ha (by rw [e]; decide)), rd_cntBy_ne (fun e => absurd ha (by rw [e]; decide))]
  refine (forEach_field (rd · a) _ _ (fun x _ s => rd_cntBy_ne ?_ _ s) s3).trans h3
  unfold R.strLegWaitCount
  omega

/-- A waiting cell that has been offered counts each tick at its port. -/
theorem countWaits_single (hw : s.waiting = [w]) (hf : w.fresh = false) : countWaits s = countWait w.port s := by
  have h1 : firstWaiting s w.stream = some w := by simp [firstWaiting, hw]
  have h2 : offered s w = true := by rw [offered, hf, h1]; simp
  unfold countWaits
  rw [hw, List.filter_cons_of_pos h2]
  rfl

theorem rdN_countWait (p : Nat) : rdN (countWait p s) (R.prtInjectWaitCount p) = min (rdN s (R.prtInjectWaitCount p) + 1) 0xFFFFFFFF := by
  have e (f : TelPort → TelPort) (s : State) (a : Nat) : rdN (modTel p f s) a = rdN s a := rfl
  rw [countWait, e, cnt, rdN_cntBy]

theorem tick_counts (hw : s.waiting = [w]) (hf : w.fresh = false) (hwaits : s.waits = []) (ht : s.txns = []) (hp : w.port ≤ 30) :
    (tick s).waiting = [w] ∧ rdN (tick s) (R.prtInjectWaitCount w.port) = min (rdN s (R.prtInjectWaitCount w.port) + 1) 0xFFFFFFFF := by
  rw [tick_of_txns ht]
  refine ⟨by rw [tickStable_waiting.tickTime, tickStable_waiting.tickClosed, hw], ?_⟩
  have hc : rd (tickClosed s) (R.prtInjectWaitCount w.port) = rd (countTicks s) (R.prtInjectWaitCount w.port) :=
    forEach_field (rd · (R.prtInjectWaitCount w.port)) telSample _ (fun _ _ _ => rfl) (countTicks s)
  rw [rdN, rd_tickTime (by unfold R.prtInjectWaitCount; omega), hc, rd_countTicks hwaits (by unfold R.prtInjectWaitCount; omega)]
  exact (congrArg (rdN · (R.prtInjectWaitCount w.port)) (countWaits_single (s := { s with waits := [] }) hw hf)).trans (rdN_countWait _)

end

/-! ### Receipts that are due (R387) -/

/-- What is sent of the receipts that are due. -/
theorem sendReceipts_receipts (s : State) : (sendReceipts s).receipts = s.receipts.filter (fun r => decide (now s < r.1)) :=
  forEach_field State.receipts _ _ (fun _ _ s => switchStable_receipts.injectOwn _ s) _

theorem injectOwn_local {c : Cell} {s : State} (h : wDest (setWelt 37 37 s.ep.inj c) = ownId s) :
    injectOwn c s = toLocal (setWelt 37 37 s.ep.inj c) s := by
  have hf : firstOf s 256 = true := List.all_eq_true.2 (fun w _ => by rw [beq_self_eq_true, Bool.or_true])
  unfold injectOwn inject injectCell
  rw [if_pos hf, if_pos h]
  rfl

/-- Settles O26. -/
theorem sendingAndWaitingCells : Obligations.SendingAndWaitingCells := by
  refine ⟨fun s n hs hser hst hc => ⟨fun hp => exec_cellTransmit_idle hs hser hst hc hp,
    fun k c rest hp hk hq hw => exec_cellTransmit_queued hs hser hst hc hp hk hq hw⟩,
    fun s hs => ⟨fun k w hk hw hm hf hu hn hd => ⟨_, hs.run _, ?_⟩, fun w hw hm hf hu hq hd => ⟨_, hs.run _, ?_⟩,
      fun w hp hw hf hwaits ht hport => ?_, fun h hh hu ht hq hd => ⟨_, hs.run _, ?_⟩, fun h hh ht hw => ⟨_, hs.run _, ?_⟩,
      ⟨_, hs.run _, ?_⟩, ⟨_, hs.run _, ?_⟩, fun tick c hr ht hd => ⟨_, hs.run _, ?_⟩⟩⟩
  · have e : settleLost s.waiting (admitNext k s) = admitted w s := by
      rw [admitNext_single hk hw hm, offerCell_room hf hu hn hd, settleLost_of_held (fun v hv => cellHeld_admitted hv)]
    rw [e, commit_waiting, commit_port, commit_regs, queue_admitted]
    exact ⟨rfl, rfl, rfl⟩
  · have e : settleLost s.waiting (admitNext w.stream s) = copyAdmitted w s := by
      rw [admitNext_copy hw hm hf hu hq hd]
      refine settleLost_of_held (fun v hv => ?_)
      rw [hw, List.mem_singleton] at hv
      rw [hv]
      exact cellHeld_of_queue (p := w.port) (k := .vc0s) (by rw [queue_copyAdmitted]; exact List.mem_append_right _ (List.mem_singleton.2 rfl)) (sameCell_refl _)
    rw [e, commit_waiting, commit_port, commit_regs]
    exact ⟨waiting_copyAdmitted hw, queue_copyAdmitted, rfl⟩
  · have hc : s.rst.cold = false := hs.1
    obtain ⟨h1, h2⟩ := tick_counts hw hf hwaits ht hport
    have e : step s = .next (commit true s (tick s)) := by
      unfold step
      rw [hp]
      refine (runPin_eq _ s hs.2).trans ?_
      rw [hc, if_neg Bool.false_ne_true]
    exact ⟨_, e, (commit_waiting _ _ _).trans h1, (commit_rdN _ _ _ _).trans h2⟩
  · have e : (heldAdmitted h s).hold = [] := by
      show s.hold.erase h = []
      rw [hh]; simp
    rw [commit_hold, commit_port, commit_regs, offerHeld_room hh hu ht hq hd, e]
    refine ⟨rfl, ?_, rfl⟩
    rw [heldAdmitted, port_modPort_self]
    rfl
  · obtain ⟨he, l, hl, _⟩ := expireHeld_single hh ht hw
    have e : settleLost s.waiting (expireHeld s) = heldExpire h s := by
      rw [he]
      exact settleLost_of_held (fun v hv => cellHeld_of_waiting (by rw [hl]; exact List.mem_append_left _ hv))
    rw [e, commit_hold, commit_rdN]
    refine ⟨?_, rdN_transitLoss (s := { s with hold := s.hold.erase h })⟩
    unfold heldExpire
    rw [hold_transitLoss, hh]
    simp
  · exact ⟨rfl, rfl, rfl⟩
  · exact sendReceipts_receipts s
  · have e : sendReceipts s = toLocal (setWelt 37 37 s.ep.inj c) { s with receipts := s.receipts.filter (fun r => decide (now s < r.1)) } := by
      have hdue : s.receipts.filter (fun r => decide (r.1 ≤ now s)) = [(tick, c)] := by rw [hr]; simp [ht]
      unfold sendReceipts
      dsimp only
      rw [hdue]
      exact injectOwn_local (s := { s with receipts := s.receipts.filter (fun r => decide (now s < r.1)) }) hd
    rw [e]
    rfl

end Sys2Proof.Machine
end

section
/-! SUPPORT. Cells delivered to this engine's endpoint, and the multicast cells and NOTICEs among them (R198, R200, R202, R212,
R216, R217). -/
namespace Sys2Proof.Machine

section
variable {n : Nat} {b : List Byte} {c : Cell} {s s1 : State} {α : Type} {g : State → α}

/-! ### What the receive checks change -/

namespace SwitchStable

theorem cellDrop (h : SwitchStable g) (n k b : Nat) (inj : Bool) (s : State) : g (cellDrop n k b inj s) = g s :=
  h.markStable.cellDrop _ _ _ _ s

theorem checkFailed (h : SwitchStable g) (n k b code : Nat) (inj : Bool) (c : Cell) (s : State) :
    g (checkFailed n k b code inj c s) = g s := by
  rw [Machine.checkFailed, h.markStable.raise_mk (by decide), h.cellDrop]

theorem hopFailed (h : SwitchStable g) (n : Nat) (inj : Bool) (s : State) : g (hopFailed n inj s) = g s := by
  rw [Machine.hopFailed, h.markStable.raise_mk (by decide), h.cellDrop]

theorem arriveChecks (h : SwitchStable g) (n : Nat) (c : Cell) (s : State) : g (arriveChecks n c s).1 = g s := by
  have hf : g (Machine.awlFire 19 (some n) none none s).1 = g s := h.awlFire _ _ _ _ s
  unfold Machine.arriveChecks
  split
  · exact h.checkFailed _ _ _ _ _ _ s
  split
  · exact h.checkFailed _ _ _ _ _ _ s
  split
  · exact h.checkFailed _ _ _ _ _ _ s
  generalize Machine.awlFire 19 (some n) none none s = f at hf ⊢
  dsimp only
  split
  · exact (h.checkFailed _ _ _ _ _ _ _).trans hf
  split
  · exact (h.markStable.raise_mk (by decide) _).trans ((h.cnt _ _).trans hf)
  have he : g (epochTest n c f.1).1 = g s := (h.markStable.epochTest _ _ _).trans hf
  generalize epochTest n c f.1 = e at he ⊢
  split
  · exact he
  split
  · exact he
  split
  · exact he
  split
  · exact (h.checkFailed _ _ _ _ _ _ _).trans he
  · exact he

/-- An arrival changes no such reading. -/
theorem arrive (h : SwitchStable g) (n : Nat) (b : List Byte) (s : State) : g (arrive n b s).1 = g s := by
  rw [arrive_eq rfl]
  have hr : g (cellRead n b s) = g s := h.modPort _ _ s
  split
  · exact (h.hopFailed _ _ _).trans hr
  split
  · exact hr
  have hf : g (Machine.awlFire 0 (some n) none none (cellRead n b s)).1 = g s := (h.awlFire _ _ _ _ _).trans hr
  generalize Machine.awlFire 0 (some n) none none (cellRead n b s) = f at hf ⊢
  dsimp only
  split
  · exact (h.hopFailed _ _ _).trans hf
  split
  · exact hf
  · exact (h.arriveChecks _ _ _).trans ((h.modPort _ _ _).trans hf)

/-- Nor does a delivery. -/
theorem delivered (h : SwitchStable g) (hd : deliveredCell n b s = some (s1, c)) : g s1 = g s := by
  unfold deliveredCell arriveLocal at hd
  split at hd
  · rw [if_pos rfl] at hd
    dsimp only at hd
    split at hd
    · rename_i heq
      split at heq
      · cases heq
        cases hd
        exact h.localQ _ s
      · cases heq
    · cases hd
  · split at hd
    · have ha := h.arrive n b s
      generalize Machine.arrive n b s = r at ha hd
      obtain ⟨t, a, d⟩ := r
      cases a <;> cases hd
      exact ha
    · cases hd

end SwitchStable

/-! ### A delivered cell is handled -/

/-- A cell delivered here is handed to the command that picks it. -/
theorem takeCell_delivered {pick : Cell → Bool} {f : Cell → State → State} (hd : deliveredCell n b s = some (s1, c))
    (hc : c = parseCell b) (hp : pick c = true) (hm : wMcast c = false) : takeCell n b pick f s = f c s1 := by
  unfold deliveredCell at hd
  unfold takeCell
  rw [← hc]
  dsimp only
  split at hd
  · rename_i hn
    rw [hn, hp, hm, Bool.or_eq_true_iff.2 (.inr (beq_self_eq_true 31)), if_pos (by decide), if_pos rfl]
    generalize arriveLocal 31 b s = r at hd
    obtain ⟨t, _ | d⟩ := r <;> cases hd
    rfl
  · rename_i hn
    split at hd
    · rename_i hr
      rw [hr, hp, hm, if_pos (by rfl), if_neg hn]
      generalize arrive n b s = r at hd
      obtain ⟨t, a, d⟩ := r
      cases a <;> cases hd
      rfl
    · cases hd

theorem takeType_delivered {ty : Nat} {f : Cell → State → State} (hd : deliveredCell n b s = some (s1, c))
    (hc : c = parseCell b) (hp : wType c = ty) (hm : wMcast c = false) : takeType n b ty f s = f c s1 :=
  takeCell_delivered hd hc (beq_iff_eq.2 hp) hm

theorem State.Ready.run_takeType {ty : Nat} {f : Cell → State → State} (hs : s.Ready) (hd : deliveredCell n b s = some (s1, c))
    (hc : c = parseCell b) (hp : wType c = ty) (hm : wMcast c = false) :
    Machine.run (takeType n b ty f) s = .next (commit false s (f c s1)) := by
  rw [hs.run, takeType_delivered hd hc hp hm]

theorem State.Ready.run_takeCell {pick : Cell → Bool} {f : Cell → State → State} (hs : s.Ready)
    (hd : deliveredCell n b s = some (s1, c)) (hc : c = parseCell b) (hp : pick c = true) (hm : wMcast c = false) :
    Machine.run (takeCell n b pick f) s = .next (commit false s (f c s1)) := by
  rw [hs.run, takeCell_delivered hd hc hp hm]

/-! ### Multicast cells (R198, R200, R202) -/

theorem exec_multicastCell (hs : s.Ready) (hr : rxOk s n b = true) (hm : wMcast (parseCell b) = true)
    (ha : arrive n b s = (s1, .mcast, c)) : exec (.multicastCell n b) s = .next (commit false s (multicastCell n c s1)) := by
  refine (hs.run_whenB (by rw [hr, hm]; rfl) _).trans ?_
  rw [ha]

/-- The arrival test of a row or column cell (R200, R202). -/
theorem multicastCell_tested (hk : wDefl c = 1 ∨ wDefl c = 2) : multicastCell n c s =
    if (if wDefl c = 1 then decide (4 ≤ n ∧ n ≤ 18 ∧ peerId s n = wSrc c) else decide (21 ≤ n ∧ n ≤ 28 ∧ wHops c = 1)) = true
    then mcDeliver c s else kindBad n c s := by
  unfold multicastCell
  rcases hk with h | h <;> rw [h]
  · simp only [if_true, decide_eq_true_eq]
  · simp only [if_true, decide_eq_true_eq, (by decide : (2 : Nat) ≠ 1), if_false]

theorem rdN_kindBad : rdN (kindBad n c s) R.tblMcKindBadCount = min (rdN s R.tblMcKindBadCount + 1) 0xFFFFFFFF := by
  rw [kindBad, rdN_raise_mk (by decide) (by decide), rdN_ev_ne (by decide), cnt, rdN_cntBy]

theorem markStable_asms : MarkStable State.asms := switchStable_asms.markStable

theorem MarkStable.kindBad (h : MarkStable g) (n : Nat) (c : Cell) (s : State) : g (kindBad n c s) = g s := by
  rw [Machine.kindBad, h.raise_mk (by decide), h.ev, h.cnt]

/-- A cell no receiving step expects is counted. -/
theorem mcDeliver_none (h : (str s (wStream c)).runs.any (fun r => r.expects (wSrc c)) = false) :
    mcDeliver c s = ev R.tblMcEvents 3 (cnt R.tblMcNoStepCount s) := by
  rw [mcDeliver, h, if_neg Bool.false_ne_true]

theorem mcDeliver_expected (h : (str s (wStream c)).runs.any (fun r => r.expects (wSrc c)) = true) :
    mcDeliver c s = deliverChunkCell c s := by
  rw [mcDeliver, if_pos h]

/-- A cell's assembly, opened by it. -/
theorem dataCell_opens (ha : asmOf s c = none) (hb : blockFor s (wStream c) = true) : dataCell c s =
    takeBlock (wStream c) { s with asms := s.asms ++
      [{ dest := wDest c, src := wSrc c, stream := wStream c, seq := wSeq c, cells := [(wIndex c, c.payload)], vc1 := wVc c == 1
         mc := wMcast c }] } := by
  unfold dataCell
  rw [ha]
  dsimp only
  rw [if_pos hb]
  simp only [asmKey, Asm.seen, Bool.false_or]

/-! ### NOTICEs (R216, R217) -/

theorem rdN_lossRecord (k e p peer : Nat) :
    rdN (lossRecord k e p peer s) (R.strBranchLossCount k) = min (rdN s (R.strBranchLossCount k) + 1) 0xFFFFFFFF := by
  have h1 : R.strBranchLossCount k ≠ R.strBranchLossMap k := by unfold R.strBranchLossCount R.strBranchLossMap; omega
  have h2 : R.strBranchLossCount k ≠ R.strBranchLossFirst k := by unfold R.strBranchLossCount R.strBranchLossFirst; omega
  unfold lossRecord
  dsimp only
  split
  · rw [cnt, rdN_cntBy, rdN_wbitAt_ne h1]
  · rw [rdN_wrN_ne h2, cnt, rdN_cntBy, rdN_wbitAt_ne h1]

theorem rbit_lossRecord (k e : Nat) {p : Nat} (peer : Nat) (hp : p < 32) :
    rbit (lossRecord k e p peer s) (R.strBranchLossMap k) p = true := by
  have h1 : R.strBranchLossMap k ≠ R.strBranchLossCount k := by unfold R.strBranchLossCount R.strBranchLossMap; omega
  have h2 : R.strBranchLossMap k ≠ R.strBranchLossFirst k := by unfold R.strBranchLossMap R.strBranchLossFirst; omega
  unfold lossRecord
  dsimp only
  split
  · rw [rbit_cnt_ne h1, rbit_wbitAt _ _ _ _ hp]
  · rw [rbit_wrN_ne h2, rbit_cnt_ne h1, rbit_wbitAt _ _ _ _ hp]

theorem markInj_regs (k : Nat) (inj : Bool) : (markInj k inj s).regs = s.regs := by
  unfold markInj; split <;> rfl

theorem nbits_lt (v hi lo : Nat) : nbits v hi lo < 2 ^ (hi + 1 - lo) := Nat.mod_lt _ (Nat.two_pow_pos _)

theorem noticeTake_found {k : Nat} (h1 : 1 ≤ (c.payload.getD 1 0).toNat) (h2 : (c.payload.getD 1 0).toNat ≤ 4)
    (h : noticeStream s (wStream c) (wSeq c) (nbits (c.payload.getD 0 0).toNat 2 0) (fieldBE c.payload 2 2 % 1024) = some k) :
    noticeTake c s = markInj k ((c.payload.getD 5 0).toNat.testBit 0)
      (lossRecord k (wSrc c) (nbits (c.payload.getD 4 0).toNat 4 0) (fieldBE c.payload 6 2 % 8192) s) := by
  unfold noticeTake
  dsimp only
  rw [if_pos ⟨h1, h2⟩, h]

theorem noticeTake_stale
    (h : noticeStream s (wStream c) (wSeq c) (nbits (c.payload.getD 0 0).toNat 2 0) (fieldBE c.payload 2 2 % 1024) = none) :
    noticeTake c s = evI R.tblMcEvents 4 5 ((c.payload.getD 5 0).toNat.testBit 0) (cnt R.tblNoticeStaleCount s) := by
  unfold noticeTake
  dsimp only
  rw [h, ite_self]

end

/-- The clauses of O27 about row and column cells. -/
theorem multicast_clause {s s1 : State} {n : Nat} {b : List Byte} {c : Cell} {row : Bool} (hs : s.Ready) (hr : rxOk s n b = true)
    (hm : wMcast (parseCell b) = true) (ha : arrive n b s = (s1, .mcast, c)) (hk : wDefl c = 1 ∨ wDefl c = 2)
    (hrow : row = (if wDefl c = 1 then decide (4 ≤ n ∧ n ≤ 18 ∧ peerId s1 n = wSrc c) else decide (21 ≤ n ∧ n ≤ 28 ∧ wHops c = 1))) :
    (row = false → exec (.multicastCell n b) s = .next (commit false s (kindBad n c s1)))
    ∧ (row = true → exec (.multicastCell n b) s = .next (commit false s (mcDeliver c s1))) := by
  have he := exec_multicastCell hs hr hm ha
  rw [multicastCell_tested hk, ← hrow] at he
  exact ⟨fun h => by rw [he, h, if_neg Bool.false_ne_true], fun h => by rw [he, if_pos h]⟩

/-- Settles O27. -/
theorem multicastAndNotices : Obligations.MulticastAndNotices := by
  refine ⟨fun s s1 n b c row hs hr hm ha hk hrow => ?_, fun s s1 n b c kind lace p hs hd hc ht hm hkind hlace hp => ?_⟩
  · obtain ⟨hbad, hgood⟩ := multicast_clause hs hr hm ha hk hrow
    refine ⟨fun h => ⟨_, hbad h, ?_⟩, fun h hx => ⟨_, hgood h, ?_⟩, fun h hx ht hasm hblk => ⟨_, hgood h, ?_⟩⟩
    · rw [commit_ports, commit_asms, commit_rdN, commit_rbit]
      exact ⟨markStable_ports.kindBad _ _ _, markStable_asms.kindBad _ _ _, rdN_kindBad, rbit_raise_alert_mk (by decide) _⟩
    · rw [mcDeliver_none hx, commit_ports, commit_asms, commit_rdN]
      exact ⟨(markStable_ports.ev _ _ _).trans (markStable_ports.cnt _ _),
        (markStable_asms.ev _ _ _).trans (markStable_asms.cnt _ _), by rw [rdN_ev_ne (by decide), cnt, rdN_cntBy]⟩
    · rw [mcDeliver_expected hx, deliverChunkCell, if_pos ht, dataCell_opens hasm hblk, commit_regs, commit_asms]
      exact ⟨rfl, rfl⟩
  · subst hkind hlace hp
    refine ⟨fun h => ⟨_, hs.run_takeType hd hc ht hm, ?_⟩, fun k h1 h2 h => ⟨_, hs.run_takeType hd hc ht hm, ?_⟩⟩
    · rw [noticeTake_stale h, commit_rdN, commit_rbit, commit_streams]
      exact ⟨by rw [rdN_evI_ne (by decide), cnt, rdN_cntBy], rbit_evI _ _ _ _ _ (by decide) (by decide) (by decide),
        (switchStable_streams.evI _ _ _ _ _).trans (switchStable_streams.cnt _ _)⟩
    · rw [noticeTake_found h1 h2 h, commit_rbit, commit_rdN, commit_ports, rbit_congr (markInj_regs _ _),
        rdN_congr (markInj_regs _ _), runStable_ports.markInj, markStable_ports.lossRecord]
      exact ⟨rbit_lossRecord _ _ _ (nbits_lt _ 4 0), rdN_lossRecord _ _ _ _, rfl⟩

end Sys2Proof.Machine
end

section
/-! SUPPORT. Cells of a chunk join its assembly (R106, R291, R292). -/
namespace Sys2Proof.Machine

section
variable {n : Nat} {b : List Byte} {c : Cell} {s : State}

theorem Asm.same_self (a : Asm) : a.same a = true := by simp [Asm.same]

theorem dataCell_refused (ha : asmOf s c = none) (hb : blockFor s (wStream c) = false) :
    dataCell c s = cnt (R.strQuotaDiscardCount (wStream c)) s := by
  unfold dataCell
  rw [ha]
  dsimp only
  rw [if_neg (by rw [hb]; decide)]

theorem sealCell_opens (ha : asmOf s c = none) (hb : blockFor s (wStream c) = true) : sealCell c s =
    takeBlock (wStream c) { s with asms := s.asms ++
      [{ dest := wDest c, src := wSrc c, stream := wStream c, seq := wSeq c, sealP := some c.payload, vc1 := wVc c == 1
         mc := wMcast c }] } := by
  unfold sealCell
  rw [ha]
  dsimp only
  rw [if_pos hb]
  simp only [asmKey, Asm.seen, Bool.false_or]

/-- The receipt a SEAL without a block draws. -/
theorem sealCell_refused (ha : asmOf s c = none) (hb : blockFor s (wStream c) = false) : sealCell c s =
    owe (strRank s (wStream c)) (answerStream s (wStream c) (asmKey c) c.payload) (wSrc c) (wSeq c) 0 (sStep c.payload) vQuota false
      false ((sFlags c.payload).testBit 4) (cnt (R.strQuotaDiscardCount (wStream c)) s) := by
  unfold sealCell
  rw [ha]
  dsimp only
  rw [if_neg (by rw [hb]; decide)]

/-- An owed receipt waits behind the others, and nothing else changes. -/
theorem owe_receipts (r q d sq ch st v : Nat) (dup late inj : Bool) (s : State) :
    (owe r q d sq ch st v dup late inj s).receipts.length = s.receipts.length + 1 := List.length_append

theorem owe_regs (r q d sq ch st v : Nat) (dup late inj : Bool) (s : State) : (owe r q d sq ch st v dup late inj s).regs = s.regs := rfl
theorem owe_asms (r q d sq ch st v : Nat) (dup late inj : Bool) (s : State) : (owe r q d sq ch st v dup late inj s).asms = s.asms := rfl
theorem owe_landed (r q d sq ch st v : Nat) (dup late inj : Bool) (s : State) :
    (owe r q d sq ch st v dup late inj s).landed = s.landed := rfl

/-- An assembly without its SEAL is not complete. -/
theorem asmFull_unsealed {a : Asm} (h : a.sealP = none) : asmFull a s = s := by
  unfold asmFull
  rw [if_neg (by rw [h]; simp)]

/-- A later DATA cell joins the only assembly there is. -/
theorem dataCell_joins {a : Asm} (hs : s.asms = [a]) (ha : asmOf s c = some a) (hseal : a.sealP = none) : dataCell c s =
    { s with asms := [{ a with
        cells := tset (wIndex c) c.payload a.cells, vc1 := a.vc1 || wVc c == 1, mc := a.mc || wMcast c }] } := by
  unfold dataCell
  rw [ha]
  dsimp only
  rw [asmFull_unsealed (by exact hseal), putAsm, hs, List.map_cons, List.map_nil, if_pos (by exact a.same_self)]
  rfl

end

theorem markStable_streams : MarkStable State.streams := switchStable_streams.markStable
theorem markStable_receipts : MarkStable State.receipts := switchStable_receipts.markStable

/-- Settles O28. -/
theorem chunkAssembly : Obligations.ChunkAssembly := by
  intro s s1 n b c hs hd hc hm
  refine ⟨fun ht ha hb => ⟨_, hs.run_takeType hd hc ht hm, ?_⟩, fun ht ha hb => ⟨_, hs.run_takeType hd hc ht hm, ?_⟩,
    fun ht ha hb => ⟨_, hs.run_takeType hd hc ht hm, ?_⟩, fun ht ha hb => ⟨_, hs.run_takeType hd hc ht hm, ?_⟩,
    fun ht a has ha hseal => ⟨_, hs.run_takeType hd hc ht hm, ?_⟩⟩
  · rw [dataCell_opens ha hb, commit_str, commit_asms, commit_regs, commit_ports, takeBlock, str_modStr_self]
    exact ⟨rfl, rfl, rfl, rfl⟩
  · rw [dataCell_refused ha hb, commit_asms, commit_streams, commit_receipts, commit_rdN]
    exact ⟨markStable_asms.cnt _ _, markStable_streams.cnt _ _, markStable_receipts.cnt _ _, by rw [cnt, rdN_cntBy]⟩
  · rw [sealCell_opens ha hb, commit_str, commit_asms, commit_regs, commit_ports, takeBlock, str_modStr_self]
    exact ⟨rfl, rfl, rfl, rfl⟩
  · rw [sealCell_refused ha hb, commit_asms, commit_receipts, commit_rdN, owe_asms, owe_receipts, rdN_congr (owe_regs _ _ _ _ _ _ _ _ _ _ _),
      markStable_asms.cnt, markStable_receipts.cnt, cnt, rdN_cntBy]
    exact ⟨rfl, rfl, rfl⟩
  · rw [dataCell_joins has ha hseal, commit_asms, commit_regs]
    exact ⟨rfl, rfl⟩

end Sys2Proof.Machine
end

section
/-! SUPPORT. What taking a chunk and capturing it can change, said once: registers, detectors, streams, captures and the store;
no assembly, no landed record, no receipt, no tag. -/
namespace Sys2Proof.Machine

/-- A reading of the state that depends on nothing the positions of steps and their captures change. -/
structure TakeStable {α : Type} (g : State → α) : Prop extends CaptureStable g where
  streams : ∀ x s, g { s with streams := x } = g s

variable {α : Type} {g : State → α}

theorem RunStable.takeStable (h : RunStable g) : TakeStable g := ⟨h.toCaptureStable, h.streams⟩

namespace CaptureStable

theorem capData (h : CaptureStable g) (i t p : Nat) (e : Option Nat) (b : List Byte) (s : State) : g (capData i t p e b s) = g s := by
  unfold Machine.capData
  split
  · rfl
  · split
    · rfl
    · dsimp only
      split
      · exact (h.caps _ _ _).trans (h.wrN _ _ s)
      · rw [h.ev, h.modCap, h.wrN]

theorem capEntry (h : CaptureStable g) (c : Option Nat) (p r n ch o d f dl : Nat) (b : List Byte) (s : State) :
    g (capEntry c p r n ch o d f dl b s) = g s := by
  have data (i t p : Nat) (e : Option Nat) (s : State) : g (if d = 5 then s else Machine.capData i t p e b s) = g s := by
    split
    · rfl
    · exact h.capData _ _ _ _ _ s
  unfold Machine.capEntry
  split
  · rfl
  · split
    · rfl
    · dsimp only
      split
      · exact (h.capFlushEntries _ _).trans ((data _ _ _ _ _).trans (h.modCap _ _ s))
      · exact (data _ _ _ _ _).trans (h.modCap _ _ s)

theorem entryFor (h : CaptureStable g) (k : Nat) (r : Run) (j : Nat) (b d : List Byte) (n : Nat) (s : State) :
    g (entryFor k r j b d n s) = g s := h.capEntry _ _ _ _ _ _ _ _ _ _ s

end CaptureStable

namespace TakeStable

theorem modStr (h : TakeStable g) (n : Nat) (f : Stream → Stream) (s : State) : g (modStr n f s) = g s := h.streams _ s
theorem modRun (h : TakeStable g) (n r : Nat) (f : Run → Run) (s : State) : g (modRun n r f s) = g s := h.modStr _ _ s
theorem modPos (h : TakeStable g) (k rid j : Nat) (f : Pos → Pos) (s : State) : g (modPos k rid j f s) = g s := h.modRun _ _ _ s
theorem giveBlock (h : TakeStable g) (k : Nat) (s : State) : g (giveBlock k s) = g s := h.modStr _ _ s
theorem takeBlock (h : TakeStable g) (k : Nat) (s : State) : g (takeBlock k s) = g s := h.modStr _ _ s

theorem markInj (h : TakeStable g) (k : Nat) (inj : Bool) (s : State) : g (markInj k inj s) = g s := by
  unfold Machine.markInj; split
  · exact h.modStr _ _ _
  · rfl

/-! ### Positions -/

theorem trySlots (h : TakeStable g) (front : Bool) (k rid j : Nat) (s : State) : g (trySlots front k rid j s) = g s := by
  unfold Machine.trySlots
  split
  · rfl
  split
  · rfl
  split
  · rfl
  split
  · exact h.modPos _ _ _ _ s
  · exact (h.ev _ _ _).trans (h.modPos _ _ _ _ s)

theorem tryBlock (h : TakeStable g) (k rid j : Nat) (s : State) : g (tryBlock k rid j s) = g s := by
  unfold Machine.tryBlock
  split
  · rfl
  split
  · rfl
  split
  · rfl
  split
  · exact (h.takeBlock _ _).trans (h.modPos _ _ _ _ s)
  · exact h.modRun _ _ _ s

theorem openPos (h : TakeStable g) (k rid j : Nat) (s : State) : g (openPos k rid j s) = g s := by
  unfold Machine.openPos
  split
  · rfl
  split
  · rfl
  dsimp only
  split
  · rw [h.tryBlock, h.trySlots, h.modRun]
  · exact h.modRun _ _ _ s

end TakeStable

theorem takeStable_asms : TakeStable State.asms := by
  repeat' first | exact markStable_asms | constructor
  all_goals intros; rfl
theorem takeStable_receipts : TakeStable State.receipts := by
  repeat' first | exact markStable_receipts | constructor
  all_goals intros; rfl
theorem takeStable_landed : TakeStable State.landed := by
  repeat' first | exact switchStable_landed.markStable | constructor
  all_goals intros; rfl

end Sys2Proof.Machine
end

section
/-! SUPPORT. Landings: the check of a chunk, and what Table 12.1 makes of it (R107, R381–R384, R387). -/
namespace Sys2Proof.Machine

section
variable {src k seq : Nat} {a : Asm} {b data : List Byte} {s : State}

/-! ### Branches of the classification -/

/-- The chunk whose landing is due: four ticks have passed since its last cell. -/
abbrev LandingDue (s : State) (src k seq : Nat) (a : Asm) (b data : List Byte) : Prop :=
  s.asms.find? (fun a => a.src == src && a.stream == k && a.seq == seq && a.checked s) = some a ∧ a.sealP = some b
    ∧ data = ((List.range 64).map (fun i => tget [] i a.cells)).flatten

/-- It has landed before. -/
abbrev landedBefore (s : State) (src k seq step check : Nat) : Option Landed :=
  s.landed.find? (fun d => d.stream == k && d.src == src && d.step == step && recHeld s d
    && d.entries.any (fun e => e.1 == seq && e.2 == check))

theorem LandingDue.key (h : LandingDue s src k seq a b data) : a.src = src ∧ a.stream = k ∧ a.seq = seq := by
  have h1 := List.find?_some h.1
  rw [Bool.and_eq_true, Bool.and_eq_true, Bool.and_eq_true, beq_iff_eq, beq_iff_eq, beq_iff_eq] at h1
  exact ⟨h1.1.1.1, h1.1.1.2, h1.1.2⟩

/-- A failed check is counted, and its block given back (R107). -/
def checkCounted (k src seq : Nat) (b : List Byte) (a : Asm) (s : State) : State :=
  raise { i := 1, inj := (sFlags b).testBit 4, stream := k, part := (ownerOf (dropAsm a s) k).getD 0xFF, engine := src, code := seq }
    (giveBlock k (cnt (R.strChkFailCount k) (dropAsm a s)))

/-- A chunk that fails its check. -/
theorem chunkLanding_checkBad (h : LandingDue s src k seq a b data) (hc : crc32c data ≠ sCheck b) : chunkLanding src k seq s =
    owe (strRank (checkCounted k src seq b a s) k) (answerStream (dropAsm a s) k a b) src seq (crc32c data) (sStep b) vCheckFail
      false (answerLate (dropAsm a s) k a b) ((sFlags b).testBit 4) (checkCounted k src seq b a s) := by
  obtain ⟨hf, hb, hd⟩ := h
  unfold chunkLanding
  rw [hf]
  dsimp only
  rw [hb]
  dsimp only
  rw [← hd, if_pos hc]
  rfl

/-- What a chunk that passes its check meets. -/
theorem chunkLanding_checked (h : LandingDue s src k seq a b data) (hc : crc32c data = sCheck b) : chunkLanding src k seq s =
    match landedBefore (dropAsm a s) src k seq (sStep b) (crc32c data) with
    | some d => owe d.self d.rstream src seq (crc32c data) (sStep b) vTaken true false ((sFlags b).testBit 4)
        (giveBlock k (cnt (R.strDupCount k) (dropAsm a s)))
    | none =>
      match closedFor (dropAsm a s) k a b with
      | some (c, j) => takeChunk k c.run true c.step c.lastOff j a b data (dropAsm a s)
      | none =>
        match runFor (dropAsm a s) k a b with
        | some (r, j) => takeChunk k r false (str (dropAsm a s) k).req.step (str (dropAsm a s) k).req.last j a b data (dropAsm a s)
        | none => owe (strRank (dropAsm a s) k) (answerStream (dropAsm a s) k a b) src seq 0 (sStep b) vNoStep false false
            ((sFlags b).testBit 4) (ev (R.strCollEvents k) 1 (giveBlock k (dropAsm a s))) := by
  obtain ⟨hf, hb, hd⟩ := h
  unfold chunkLanding
  rw [hf]
  dsimp only
  rw [hb]
  dsimp only
  rw [← hd, if_neg (not_not_intro hc)] <;> rfl

theorem chunkLanding_duplicate (h : LandingDue s src k seq a b data) (hc : crc32c data = sCheck b) {d : Landed}
    (hl : landedBefore s src k seq (sStep b) (crc32c data) = some d) : chunkLanding src k seq s =
    owe d.self d.rstream src seq (crc32c data) (sStep b) vTaken true false ((sFlags b).testBit 4)
      (giveBlock k (cnt (R.strDupCount k) (dropAsm a s))) := by
  rw [chunkLanding_checked h hc]
  rw [← show landedBefore (dropAsm a s) src k seq (sStep b) (crc32c data) = landedBefore s src k seq (sStep b) (crc32c data) from rfl] at hl
  rw [hl]

theorem chunkLanding_noStep (h : LandingDue s src k seq a b data) (hc : crc32c data = sCheck b)
    (hl : landedBefore s src k seq (sStep b) (crc32c data) = none) (hcl : closedFor (dropAsm a s) k a b = none)
    (hr : runFor (dropAsm a s) k a b = none) : chunkLanding src k seq s =
    owe (strRank (dropAsm a s) k) (answerStream (dropAsm a s) k a b) src seq 0 (sStep b) vNoStep false false
      ((sFlags b).testBit 4) (ev (R.strCollEvents k) 1 (giveBlock k (dropAsm a s))) := by
  rw [chunkLanding_checked h hc]
  rw [← show landedBefore (dropAsm a s) src k seq (sStep b) (crc32c data) = landedBefore s src k seq (sStep b) (crc32c data) from rfl] at hl
  rw [hl, hcl, hr]

theorem chunkLanding_running (h : LandingDue s src k seq a b data) (hc : crc32c data = sCheck b)
    (hl : landedBefore s src k seq (sStep b) (crc32c data) = none) (hcl : closedFor (dropAsm a s) k a b = none) {r : Run} {j : Nat}
    (hr : runFor (dropAsm a s) k a b = some (r, j)) : chunkLanding src k seq s =
    takeChunk k r false (str s k).req.step (str s k).req.last j a b data (dropAsm a s) := by
  rw [chunkLanding_checked h hc]
  rw [← show landedBefore (dropAsm a s) src k seq (sStep b) (crc32c data) = landedBefore s src k seq (sStep b) (crc32c data) from rfl] at hl
  rw [hl, hcl, hr]
  rfl

/-! ### A chunk taken in time (R380–R387) -/

theorem rankUse_quiet (q : s.Quiet) {n r : Nat} (ha : R.rankMap n r ∉ s.eccBad) : rankUse n r s = (s, rfld s (R.rankMap n r) 12 0) := by
  unfold rankUse
  rw [if_neg ha, awlFire_quiet q]
  exact if_neg Bool.false_ne_true

/-- The SEAL's rank stands for the source the cells came from. -/
theorem sealOk_source {r : Run} (h : sealOk s r src b = true) : sRank b < r.map.length ∧ r.map.getD (sRank b) 0x1FFF = src := by
  unfold sealOk at h
  simp only [Bool.and_eq_true, decide_eq_true_eq, beq_iff_eq] at h
  exact ⟨h.1.1.2, h.1.2⟩

/-- A landed record with a landing, in its leg's place. -/
def landedIn (d : Landed) (k src rid seq check j : Nat) (s : State) : State :=
  releaseEarlier k src rid (putRecord (landAt d seq check j (now s + 4 * retxWait s)) s)

/-- The contribution of a chunk. -/
def contribOf (a : Asm) (b data : List Byte) : Contrib :=
  { rank := sRank b, count := sContrib b, elements := sElements b, data := data, sstep := sStep b, seq := a.seq
    late := (sFlags b).testBit 0, check := crc32c data, inj := (sFlags b).testBit 4, vc1 := a.vc1, carry := (sFlags b).testBit 1 }

/-- The chunk joins its position. -/
def chunkTaken (k : Nat) (r : Run) (j : Nat) (a : Asm) (b data : List Byte) (s : State) : State :=
  modPos k r.rid j (fun p => { p with taken := p.taken ++ [contribOf a b data] })
    (markInj k ((sFlags b).testBit 4) (entryFor k r j b data (b2n false) (openPos k r.rid j s)))

theorem takeChunk_inTime (q : s.Quiet) {r : Run} {step last j : Nat} {d : Landed} (hseal : sealOk s r a.src b = true)
    (hecc : R.rankMap (str s k).part (sRank b) ∉ s.eccBad) (hrank : rfld s (R.rankMap (str s k).part (sRank b)) 12 0 ≠ 0x1FFF)
    (hneed : needRecord k a.src step r s = some d) (hnew : d.entries.any (fun e => e.1 == a.seq && e.2 != crc32c data) = false)
    (hd : mtcN s ≤ r.deadline) : takeChunk k r false step last j a b data s =
    owe r.self (r.peerStr k) a.src a.seq (crc32c data) (sStep b) vTaken false false ((sFlags b).testBit 4)
      (chunkTaken k r j a b data (landedIn d k a.src r.rid a.seq (crc32c data) j s)) := by
  obtain ⟨hlt, hsrc⟩ := sealOk_source hseal
  have hu : rankUseIn (str s k).part (sRank b) r.map s = (s, a.src) := by
    unfold rankUseIn
    rw [rankUse_quiet q hecc, ← hsrc]
    exact congrArg (Prod.mk s) (if_neg hrank)
  have hlate : decide (r.deadline < mtcN s) = false := decide_eq_false (Nat.not_lt.2 hd)
  unfold takeChunk
  rw [hlate, if_pos hlt, hu]
  dsimp only
  rw [hseal, bne_self_eq_false, Bool.not_true, Bool.or_false, if_neg Bool.false_ne_true, hneed]
  dsimp only
  rw [hnew, if_neg Bool.false_ne_true, if_neg Bool.false_ne_true, if_neg (fun x => Bool.false_ne_true x.1), if_neg Bool.false_ne_true]
  rfl

theorem TakeStable.chunkTaken {α : Type} {g : State → α} (h : TakeStable g) (k : Nat) (r : Run) (j : Nat) (a : Asm)
    (b data : List Byte) (s : State) : g (chunkTaken k r j a b data s) = g s := by
  rw [Machine.chunkTaken, h.modPos, h.markInj, h.entryFor, h.openPos]

theorem needRecord_key {r : Run} {step : Nat} {d : Landed} (h : needRecord k src step r s = some d) :
    d.stream = k ∧ d.src = src ∧ d.rid = r.rid := by
  unfold needRecord at h
  split at h
  · rename_i e he
    cases h
    have h1 := List.find?_some he
    rw [Bool.and_eq_true, Bool.and_eq_true, beq_iff_eq, beq_iff_eq, beq_iff_eq] at h1
    exact ⟨h1.1.1, h1.1.2, h1.2⟩
  · split at h
    · cases h
      exact ⟨rfl, rfl, rfl⟩
    · cases h

/-- A stored record is its leg's, and no other is. -/
theorem recordOf_putRecord (d : Landed) (s : State) : recordOf (putRecord d s) d.stream d.src d.rid = some d := by
  unfold recordOf putRecord
  rw [List.find?_append, List.find?_filter, List.find?_eq_none.2, Option.none_or, List.find?_cons_of_pos]
  · simp
  · rintro e - h
    have h1 := of_decide_eq_true h
    rw [h1.2] at h1
    exact absurd h1.1 (by decide)

/-- The records of earlier steps are released, and its own is not (R383). -/
theorem recordOf_releaseEarlier (k src rid : Nat) (s : State) : recordOf (releaseEarlier k src rid s) k src rid = recordOf s k src rid := by
  have keeps (e : Landed) (h : e.rid = rid) :
      (((str s k).closed.filter (fun c => decide (c.run.rid < rid))).map (fun c => c.run.rid)).contains e.rid = false := by
    rw [Bool.eq_false_iff, ne_eq, List.contains_iff_mem, List.mem_map]
    rintro ⟨c, hc, hr⟩
    have := of_decide_eq_true (List.mem_filter.1 hc).2
    omega
  unfold recordOf releaseEarlier modStr
  dsimp only
  rw [List.find?_filter]
  congr 1
  funext e
  by_cases he : e.rid = rid
  · rw [keeps e he]
    simp only [Bool.and_false, Bool.not_false, true_and, Bool.decide_eq_true]
  · simp [he]

theorem landAt_key (d : Landed) (seq check j t : Nat) :
    (landAt d seq check j t).stream = d.stream ∧ (landAt d seq check j t).src = d.src ∧ (landAt d seq check j t).rid = d.rid :=
  ⟨rfl, rfl, rfl⟩

theorem landAt_entries (d : Landed) (seq check j t : Nat) :
    (landAt d seq check j t).entries = d.entries.filter (fun e => e.1 % 512 != seq % 512) ++ [(seq, check)] := rfl

/-- The leg's record holds the landing. -/
theorem recordOf_landedIn {d : Landed} {rid check j : Nat} (hk : d.stream = k ∧ d.src = src ∧ d.rid = rid) :
    (recordOf (landedIn d k src rid seq check j s) k src rid).any (fun e => e.entries.contains (seq, check)) = true := by
  obtain ⟨rfl, rfl, rfl⟩ := hk
  obtain ⟨e, he⟩ : ∃ e, landAt d seq check j (now s + 4 * retxWait s) = e := ⟨_, rfl⟩
  have hkey := landAt_key d seq check j (now s + 4 * retxWait s)
  have hent := landAt_entries d seq check j (now s + 4 * retxWait s)
  rw [he] at hkey hent
  have hr := recordOf_putRecord e s
  rw [hkey.1, hkey.2.1, hkey.2.2] at hr
  rw [landedIn, recordOf_releaseEarlier, he, hr, Option.any_some, hent]
  simp

theorem recordOf_congr {t : State} (h : t.landed = s.landed) (k src rid : Nat) : recordOf t k src rid = recordOf s k src rid := by
  rw [recordOf, h, recordOf]

theorem landedIn_asms (d : Landed) (rid check j : Nat) : (landedIn d k src rid seq check j s).asms = s.asms := rfl
theorem landedIn_receipts (d : Landed) (rid check j : Nat) : (landedIn d k src rid seq check j s).receipts = s.receipts := rfl

/-! ### What the outcomes leave -/

theorem dropAsm_asms (a : Asm) : (dropAsm a s).asms = s.asms.filter (fun b => !b.same a) := rfl
theorem dropAsm_landed (a : Asm) : (dropAsm a s).landed = s.landed := rfl
theorem dropAsm_receipts (a : Asm) : (dropAsm a s).receipts = s.receipts := rfl

theorem TakeStable.checkCounted {α : Type} {g : State → α} (h : TakeStable g) (k src seq : Nat) (b : List Byte) (a : Asm) (s : State) :
    g (checkCounted k src seq b a s) = g (dropAsm a s) := by
  rw [Machine.checkCounted, h.raise_mk (by decide), h.giveBlock, h.cnt]

theorem rdN_giveBlock (k x : Nat) : rdN (giveBlock k s) x = rdN s x := rfl
theorem rdN_dropAsm (a : Asm) (x : Nat) : rdN (dropAsm a s) x = rdN s x := rfl

theorem rdN_checkCounted (hk : k < 256) : rdN (checkCounted k src seq b a s) (R.strChkFailCount k)
    = min (rdN s (R.strChkFailCount k) + 1) 0xFFFFFFFF := by
  have hmid : raiseReg (R.strChkFailCount k) = false :=
    raiseReg_of_mid (by unfold R.strChkFailCount; omega) (by unfold R.strChkFailCount; omega)
  rw [checkCounted, rdN_raise_mk (by decide) hmid, rdN_giveBlock, cnt, rdN_cntBy, rdN_dropAsm]

theorem checkBad_outcome (h : LandingDue s src k seq a b data) (hk : k < 256) (hc : crc32c data ≠ sCheck b) :
    (chunkLanding src k seq s).asms = s.asms.filter (fun x => !x.same a)
    ∧ rdN (chunkLanding src k seq s) (R.strChkFailCount k) = min (rdN s (R.strChkFailCount k) + 1) 0xFFFFFFFF
    ∧ rbit (chunkLanding src k seq s) R.glbAlertStatus 1 = true
    ∧ (chunkLanding src k seq s).receipts.length = s.receipts.length + 1 ∧ (chunkLanding src k seq s).landed = s.landed := by
  rw [chunkLanding_checkBad h hc, owe_asms, owe_receipts, owe_landed, rdN_congr (owe_regs _ _ _ _ _ _ _ _ _ _ _),
    rbit_congr (owe_regs _ _ _ _ _ _ _ _ _ _ _), takeStable_asms.checkCounted, takeStable_receipts.checkCounted,
    takeStable_landed.checkCounted, rdN_checkCounted hk, dropAsm_asms, dropAsm_landed, dropAsm_receipts]
  exact ⟨rfl, rfl, rbit_raise_alert_mk (by decide) _, rfl, rfl⟩

theorem duplicate_outcome (h : LandingDue s src k seq a b data) (hc : crc32c data = sCheck b) {d : Landed}
    (hl : landedBefore s src k seq (sStep b) (crc32c data) = some d) :
    (chunkLanding src k seq s).asms = s.asms.filter (fun x => !x.same a) ∧ (chunkLanding src k seq s).landed = s.landed
    ∧ rdN (chunkLanding src k seq s) (R.strDupCount k) = min (rdN s (R.strDupCount k) + 1) 0xFFFFFFFF
    ∧ (chunkLanding src k seq s).receipts.length = s.receipts.length + 1 := by
  rw [chunkLanding_duplicate h hc hl, owe_asms, owe_receipts, owe_landed, rdN_congr (owe_regs _ _ _ _ _ _ _ _ _ _ _),
    takeStable_asms.giveBlock, takeStable_asms.cnt, takeStable_landed.giveBlock, takeStable_landed.cnt,
    takeStable_receipts.giveBlock, takeStable_receipts.cnt, rdN_giveBlock, cnt, rdN_cntBy, rdN_dropAsm, dropAsm_asms,
    dropAsm_landed, dropAsm_receipts]
  exact ⟨rfl, rfl, rfl, rfl⟩

theorem noStep_outcome (h : LandingDue s src k seq a b data) (hc : crc32c data = sCheck b)
    (hl : landedBefore s src k seq (sStep b) (crc32c data) = none) (hcl : closedFor (dropAsm a s) k a b = none)
    (hr : runFor (dropAsm a s) k a b = none) :
    (chunkLanding src k seq s).asms = s.asms.filter (fun x => !x.same a) ∧ (chunkLanding src k seq s).landed = s.landed
    ∧ rbit (chunkLanding src k seq s) (R.strCollEvents k) 1 = true
    ∧ (chunkLanding src k seq s).receipts.length = s.receipts.length + 1 := by
  rw [chunkLanding_noStep h hc hl hcl hr, owe_asms, owe_receipts, owe_landed, rbit_congr (owe_regs _ _ _ _ _ _ _ _ _ _ _),
    takeStable_asms.ev, takeStable_asms.giveBlock, takeStable_landed.ev, takeStable_landed.giveBlock,
    takeStable_receipts.ev, takeStable_receipts.giveBlock, rbit_ev _ _ _ (by decide),
    dropAsm_asms, dropAsm_landed, dropAsm_receipts]
  exact ⟨rfl, rfl, rfl, rfl⟩

theorem inTime_outcome (h : LandingDue s src k seq a b data) (q : s.Quiet) (hc : crc32c data = sCheck b)
    (hl : landedBefore s src k seq (sStep b) (crc32c data) = none) (hcl : closedFor (dropAsm a s) k a b = none) {r : Run} {j : Nat}
    (hr : runFor (dropAsm a s) k a b = some (r, j)) {d : Landed} (hseal : sealOk (dropAsm a s) r a.src b = true)
    (hecc : R.rankMap (str s k).part (sRank b) ∉ s.eccBad) (hrank : rfld s (R.rankMap (str s k).part (sRank b)) 12 0 ≠ 0x1FFF)
    (hneed : needRecord k a.src (str s k).req.step r (dropAsm a s) = some d)
    (hnew : d.entries.any (fun e => e.1 == a.seq && e.2 != crc32c data) = false) (hd : mtcN s ≤ r.deadline) :
    (chunkLanding src k seq s).asms = s.asms.filter (fun x => !x.same a)
    ∧ (recordOf (chunkLanding src k seq s) k a.src r.rid).any (fun e => e.entries.contains (a.seq, crc32c data)) = true
    ∧ (chunkLanding src k seq s).receipts.length = s.receipts.length + 1 := by
  have ht := takeChunk_inTime (s := dropAsm a s) (last := (str s k).req.last) (j := j) q hseal hecc hrank hneed hnew hd
  rw [chunkLanding_running h hc hl hcl hr, ht, owe_asms, owe_receipts, recordOf_congr (owe_landed _ _ _ _ _ _ _ _ _ _ _),
    recordOf_congr (takeStable_landed.chunkTaken _ _ _ _ _ _ _), takeStable_asms.chunkTaken, takeStable_receipts.chunkTaken,
    landedIn_asms, landedIn_receipts, dropAsm_asms]
  exact ⟨rfl, recordOf_landedIn (needRecord_key hneed), rfl⟩

end

theorem exec_chunkLanding {s : State} (hs : s.Ready) (src k seq : Nat) :
    exec (.chunkLanding src k seq) s = .next (commit false s (chunkLanding src k seq s)) := hs.run _

/-- Settles O29. -/
theorem chunkLandings : Obligations.ChunkLandings := by
  intro s src k seq a b hs hk hf hb data hd
  have h : LandingDue s src k seq a b data := ⟨hf, hb, hd⟩
  refine ⟨fun hc => ⟨_, exec_chunkLanding hs _ _ _, ?_⟩, fun d hc hl => ⟨_, exec_chunkLanding hs _ _ _, ?_⟩,
    fun hc hl hcl hr => ⟨_, exec_chunkLanding hs _ _ _, ?_⟩,
    fun r j d q hc hl hcl hr hseal hecc hrank hneed hnew hdl => ⟨_, exec_chunkLanding hs _ _ _, ?_⟩⟩
  · rw [commit_asms, commit_rdN, commit_rbit, commit_receipts, commit_landed]
    exact checkBad_outcome h hk hc
  · rw [commit_asms, commit_rdN, commit_receipts, commit_landed]
    exact duplicate_outcome h hc hl
  · rw [commit_asms, commit_landed, commit_rbit, commit_receipts]
    exact noStep_outcome h hc hl hcl hr
  · rw [commit_asms, commit_receipts, recordOf_congr (commit_landed _ _ _)]
    exact inTime_outcome h q hc hl hcl hr hseal hecc hrank hneed hnew hdl

end Sys2Proof.Machine
end

section
/-! SUPPORT. Completions and faults as their stream meets them, and the deadlines and timeouts that cause them (R294, R296, R377,
R383, R405). -/
namespace Sys2Proof.Machine

variable {α β : Type} {g : State → α} {h : Stream → β} {k n : Nat} {s : State}

theorem str_congr {t : State} (e : t.streams = s.streams) (k : Nat) : str t k = str s k := by rw [str, e, str]

/-- What a change of a stream keeps of it is kept of every stream. -/
theorem str_modStr_field {f : Stream → Stream} (hf : ∀ x, h (f x) = h x) (m k : Nat) (s : State) :
    h (str (modStr m f s) k) = h (str s k) := by
  by_cases e : k = m
  · rw [e, str_modStr_self, hf]
  · rw [str_modStr_ne e]

/-! ### Writes made for no stream -/

theorem WriteStable.windowCheck_none (e : WriteStable g) (ws : List Win) (n a len : Nat) (k : WKind) (b : Bool) (o c : Nat) (s : State) :
    g (windowCheck none ws n a len k b o c s).1 = g s := by
  unfold windowCheck windowCheckAt
  split
  · dsimp only
    split
    · exact (e.windowFault _ _ _ _ _ _ _ _).trans (e.awlFire _ _ _ _ s)
    · exact e.awlFire _ _ _ _ _
  · exact e.windowFault _ _ _ _ _ _ _ _

theorem WriteStable.localWrite_none (e : WriteStable g) (ws : List Win) (n a : Nat) (b : List Byte) (o : Owner) (s : State) :
    g (localWrite none ws n a b o s).1 = g s := by
  unfold localWrite
  split
  · exact e.badAccess s
  · split
    · exact e.badAccess s
    · dsimp only
      split
      · exact e.windowCheck_none _ _ _ _ _ _ _ _ s
      · split
        · rw [e.storeWrite, e.windowCheck_none]
        · split
          · rw [e.pkgIssue, e.windowCheck_none]
          · exact e.windowCheck_none _ _ _ _ _ _ _ _ s

theorem ledgerStable_streams : LedgerStable State.streams := by
  repeat' first | exact markStable_streams | constructor
  all_goals intros; rfl

theorem accessStable_waiting : AccessStable State.waiting := by
  repeat' first | exact markStable_waiting | constructor
  all_goals intros; rfl
theorem accessStable_tags : AccessStable State.tags := by
  repeat' first | exact switchStable_tags.markStable | constructor
  all_goals intros; rfl

/-! ### The stream a completion leaves -/

theorem str_annealDrop (hb : ∀ x u, h { x with inUse := u } = h x) (n d at' : Nat) (a : Anneal) (s : State) :
    h (str (annealDrop n d at' a s) k) = h (str s k) := by
  unfold annealDrop
  rw [str_congr (ledgerStable_streams.ledger _ _), str_congr (ledgerStable_streams.modPar _ _ _)]
  split
  · exact str_modStr_field (fun x => hb x _) _ _ _
  · rfl

theorem str_completionWrite (hb : ∀ x u, h { x with inUse := u } = h x) (n : Nat) (o : Option Nat) (q : Req) (st : Nat) (s : State) :
    h (str (completionWrite n o q st s).1 k) = h (str s k) := by
  unfold completionWrite
  rw [str_congr (ledgerStable_streams.localWrite_none _ _ _ _ _ _), completionTail, str_congr (ledgerStable_streams.wrN _ _ _),
    str_congr (ledgerStable_streams.modPar _ _ _)]
  unfold completionExpire
  split
  · exact forEach_field (fun s => h (str s k)) _ _ (fun _ _ s => str_annealDrop hb _ _ _ _ s) s
  · rfl

/-- Its end leaves a stream as it is, or IDLE. -/
theorem completionDone_streams (ok : Bool) (n k : Nat) (sig : Option (Nat × Nat)) (s : State) : ∃ u : State, u.streams = s.streams ∧
    ((completionDone ok n (some k) sig s).streams = u.streams ∨ (completionDone ok n (some k) sig s).streams = (toIdle k u).streams) := by
  obtain ⟨u, hu⟩ : ∃ u, (if ok then s else ev (R.parEvents n) 2 s) = u := ⟨_, rfl⟩
  obtain ⟨v, hv⟩ : ∃ v, (if (str u k).st == .quenching then u else toIdle k u) = v := ⟨_, rfl⟩
  refine ⟨u, ?_, ?_⟩
  · rw [← hu]
    split
    · rfl
    · exact markStable_streams.ev _ _ s
  · have hd : (completionDone ok n (some k) sig s).streams = v.streams := by
      unfold completionDone
      rw [hu]
      dsimp only
      rw [hv]
      split
      · split <;> rfl
      · rfl
    rw [hd, ← hv]
    exact (ite_eq_or_eq _ _ _).imp (congrArg State.streams) (congrArg State.streams)

theorem toIdle_str (k : Nat) (s : State) : (str (toIdle k s) k).runs = [] ∧ (str (toIdle k s) k).st = .idle := by
  rw [toIdle, str_modStr_self]
  exact ⟨rfl, rfl⟩

/-- A stopped stream without steps stays without, as it is or IDLE. -/
theorem str_complete {x : StrSt} {n : Nat} {q : Req} {st : Nat} (hr : (str s k).runs = []) (hx : (str s k).st = x) :
    (str (complete n (some k) q st s) k).runs = []
    ∧ ((str (complete n (some k) q st s) k).st = x ∨ (str (complete n (some k) q st s) k).st = .idle) := by
  have h1 : (str (completionWrite n (some k) q st s).1 k).runs = [] :=
    (str_completionWrite (h := Stream.runs) (fun _ _ => rfl) _ _ _ _ _).trans hr
  have h2 : (str (completionWrite n (some k) q st s).1 k).st = x :=
    (str_completionWrite (h := Stream.st) (fun _ _ => rfl) _ _ _ _ _).trans hx
  rw [complete_eq]
  generalize completionWrite n (some k) q st s = w at h1 h2
  have ended (ok : Bool) : (str (completionDone ok n (some k) (completionSig q st) w.1) k).runs = []
      ∧ ((str (completionDone ok n (some k) (completionSig q st) w.1) k).st = x
        ∨ (str (completionDone ok n (some k) (completionSig q st) w.1) k).st = .idle) := by
    obtain ⟨u, hu, e | e⟩ := completionDone_streams ok n k (completionSig q st) w.1 <;> rw [str_congr e]
    · rw [str_congr hu]
      exact ⟨h1, .inl h2⟩
    · exact ⟨(toIdle_str k u).1, .inr (toIdle_str k u).2⟩
  cases e : w.2 with
  | done => rw [completionAfter_done e]; exact ended true
  | issued => rw [completionAfter_issued e]; exact ⟨h1, .inl h2⟩
  | err x => rw [completionAfter_err e]; exact ended false

/-! ### A fault (R294) -/

/-- What stands of a stream that stops: no chunk of it is kept, and no cell waits (R294). -/
def streamsEmptied (k st : Nat) (s : State) : State :=
  { dropAsms k (forEach (str s k).runs (fun r s => capEnd r.cap st (str s k).inj s) s) with
    waiting := (dropAsms k (forEach (str s k).runs (fun r s => capEnd r.cap st (str s k).inj s) s)).waiting.filter (fun w => w.stream != k)
    landed := (dropAsms k (forEach (str s k).runs (fun r s => capEnd r.cap st (str s k).inj s) s)).landed.filter (fun l => l.stream != k)
    tags := (dropAsms k (forEach (str s k).runs (fun r s => capEnd r.cap st (str s k).inj s) s)).tags.filter
      (fun t => t.stream != k || t.copy.isSome) }

/-- The stream's own state stops with it. -/
def stoppedStream (k : Nat) (s : State) (x : Stream) : Stream :=
  { x with
    arm := none, rec1 := none, recAt := none, runs := [], gaps := gapsLeft x s, legs := [], closed := [], loops := []
    drawn := heldAfter s k }

theorem stopStream_eq (k st : Nat) (s : State) : stopStream k st s =
    modStr k (stoppedStream k (closeOwned k (streamsEmptied k st s)))
      (releaseReserve (str (closeOwned k (streamsEmptied k st s)) k).part k (closeOwned k (streamsEmptied k st s))) := rfl

/-- No waiting cell and no access of a stopped stream is left, but copies of captures. -/
abbrev Emptied (k : Nat) (s : State) : Prop := (∀ t ∈ s.tags, t.stream = k → t.copy.isSome = true) ∧ ∀ w ∈ s.waiting, w.stream ≠ k

theorem Emptied.congr {t : State} (e : Emptied k s) (h1 : t.tags = s.tags) (h2 : t.waiting = s.waiting) : Emptied k t := by
  rw [Emptied, h1, h2]; exact e

theorem emptied_streamsEmptied (k st : Nat) (s : State) : Emptied k (streamsEmptied k st s) := by
  refine ⟨fun t ht hk => ?_, fun w hw hk => ?_⟩
  · have := (List.mem_filter.1 ht).2
    rw [hk, bne_self_eq_false, Bool.false_or] at this
    exact this
  · have := (List.mem_filter.1 hw).2
    rw [hk, bne_self_eq_false] at this
    cases this

theorem stopStream_emptied (k st : Nat) (s : State) : Emptied k (stopStream k st s) ∧ (str (stopStream k st s) k).runs = [] := by
  refine ⟨(emptied_streamsEmptied k st s).congr ?_ ?_, ?_⟩
  · rw [stopStream_eq, accessStable_tags.modStr]
    exact accessStable_tags.closeOwned _ _
  · rw [stopStream_eq, accessStable_waiting.modStr]
    exact accessStable_waiting.closeOwned _ _
  · rw [stopStream_eq, str_modStr_self]
    rfl

/-- A stream that has stopped for a fault, before its request is completed. -/
def faultStopped (k idx st : Nat) (s : State) : State :=
  modPar (str s k).part (fun p => if p.startStr = some k then { p with startStr := none } else p)
    (modStr k (fun x => { x with st := .faulted, status := st, faultStep := idx, finished := true })
      (stopStream k st (wrN (R.strFault k) (idx % 4096 * 256 + st) s)))

theorem faultStream_running {idx st : Nat} (hr : (str s k).st = .running) (hf : (str s k).finished = false) :
    faultStream k idx st s = complete (str s k).part (some k) (str s k).req st (faultStopped k idx st s) := by
  unfold faultStream faultStopped
  dsimp only
  rw [hr]
  dsimp only
  rw [hf, if_neg Bool.false_ne_true]

/-- A fault leaves its stream without steps, and nothing of it waits. -/
theorem faultStream_leaves {idx st : Nat} (hr : (str s k).st = .running) (hf : (str s k).finished = false) :
    (str (faultStream k idx st s) k).runs = []
    ∧ ((str (faultStream k idx st s) k).st = .faulted ∨ (str (faultStream k idx st s) k).st = .idle)
    ∧ Emptied k (faultStream k idx st s) := by
  have he := stopStream_emptied k st (wrN (R.strFault k) (idx % 4096 * 256 + st) s)
  have hs : (str (faultStopped k idx st s) k).runs = [] ∧ (str (faultStopped k idx st s) k).st = .faulted := by
    rw [faultStopped, str_congr (ledgerStable_streams.modPar _ _ _), str_modStr_self]
    exact ⟨he.2, rfl⟩
  have hc := str_complete (n := (str s k).part) (q := (str s k).req) (st := st) hs.1 hs.2
  rw [faultStream_running hr hf]
  refine ⟨hc.1, hc.2, he.1.congr ?_ ?_⟩
  · rw [accessStable_tags.complete, faultStopped, accessStable_tags.modPar, accessStable_tags.modStr]
  · rw [accessStable_waiting.complete, faultStopped, accessStable_waiting.modPar, accessStable_waiting.modStr]

/-! ### A deadline (R377, R405) -/

/-- A receiving step under WAIT that has acted, and another of its number whose deadline is a tick later. -/
def deadlineRun (d : Nat) : Run := { rid := 0, idx := 0, rc := { opcode := 2, deadline := d }, fired := 0, base := 0, bias := 0 }

/-- Both are due. -/
def deadlinesDue : State :=
  { t := { ticks := 2, mtc := 2 }, rst := { cold := false }, streams := [(0, { st := .running, runs := [deadlineRun 1, deadlineRun 2] })] }

/-- The limits the expiry of the first leaves: each run's follows its own deadline. -/
theorem limits_deadlineExpiry : (str (deadlineExpiry 0 0 deadlinesDue) 0).runs.map (fun r => r.limit)
    = [1 + 4 * retxWait deadlinesDue, 2 + 4 * retxWait deadlinesDue] := by decide +kernel

/-- Refutes O30: where two runs of a stream have the same number, the expiry gives each the limit of its own deadline, the second
not that of the first. -/
theorem not_deadlinesAndTimeouts : ¬ Obligations.DeadlinesAndTimeouts := by
  intro h
  have hs : deadlinesDue.Ready := ⟨rfl, rfl⟩
  have hq : deadlinesDue.Quiet := by intro e he; cases he
  obtain ⟨t, ht, -, -, hstr⟩ := (h deadlinesDue 0 0 (deadlineRun 1) hs hq).1 (by decide +kernel) (by decide +kernel) (by decide +kernel)
    (by decide +kernel) (by decide +kernel) |>.1 (by decide +kernel) (by decide +kernel) (by decide +kernel)
  have he : exec (.deadlineExpiry 0 0) deadlinesDue = .next (commit false deadlinesDue (deadlineExpiry 0 0 deadlinesDue)) := hs.run _
  rw [he] at ht
  cases ht
  have hl := limits_deadlineExpiry
  rw [str_congr ((commit_streams _ _ _).symm.trans hstr)] at hl
  exact absurd hl (by decide +kernel)

end Sys2Proof.Machine
end

section
/-! SUPPORT. The bytes of the two memories as they are read while a command writes them, and once its writes are applied. -/
namespace Sys2Proof.Machine

/-! ### Writes applied -/

/-- Bytes returned to what unlisted bytes read as. -/
theorem Memory.get_clear (d : Byte) (m : List Host.Cell) (a n b : Nat) :
    Memory.get d (Memory.clear m a n) b = if a ≤ b ∧ b < a + n then d else Memory.get d m b := by
  induction m with
  | nil => exact (ite_self (c := a ≤ b ∧ b < a + n) d).symm
  | cons c m ih =>
    obtain ⟨j, v⟩ := c
    have here (l : List Host.Cell) : Memory.get d ((j, v) :: l) b = if j = b then v else Memory.get d l b := by
      by_cases hb : j = b <;> simp [Memory.get, tget, tfind, hb]
    unfold Memory.clear at ih ⊢
    rw [here m]
    by_cases hk : j < a ∨ a + n ≤ j
    · rw [List.filter_cons, if_pos (by exact decide_eq_true hk), here, ih]
      by_cases hb : j = b
      · rw [if_pos hb, if_pos hb, if_neg (by omega)]
      · rw [if_neg hb, if_neg hb]
    · rw [List.filter_cons, if_neg (by simpa using hk), ih]
      by_cases hb : j = b
      · rw [if_pos (by omega), if_pos (by omega)]
      · rw [if_neg hb]

theorem Memory.get_write (d : Byte) (m : List Host.Cell) (w : MemWrite) (a : Nat) :
    Memory.get d (Memory.write d m w) a = overlayOne d a (Memory.get d m a) w := by
  unfold Memory.write overlayOne
  by_cases h : w.clear = 0
  · rw [if_pos h, if_neg (not_not_intro h), Memory.get_put]
  · rw [if_neg h, if_pos h, Memory.get_clear]

/-- A byte read after the writes are applied is the one read through them. -/
theorem Memory.get_apply (fl : Bool) (d : Byte) (l : List MemWrite) (m : List Host.Cell) (a : Nat) :
    Memory.get d (Memory.apply fl d m l) a = overlay fl d a (Memory.get d m a) l := by
  induction l generalizing m with
  | nil => rfl
  | cons w l ih =>
    rw [Memory.apply, ih, overlay]
    congr 1
    split
    · exact Memory.get_write d m w a
    · rfl

theorem overlay_append (fl : Bool) (d : Byte) (a : Nat) (b : Byte) (l m : List MemWrite) :
    overlay fl d a b (l ++ m) = overlay fl d a (overlay fl d a b l) m := by
  induction l generalizing b with
  | nil => rfl
  | cons w l ih => exact ih _

/-! ### Staging and flash bytes -/

section
variable {s t : State}

theorem stgGet_commit (b : Bool) (h : t.stg = s.stg) (a : Nat) : stgGet (commit b s t) a = stgGet t a := by
  rw [stgGet, stgGet, h]
  exact Memory.get_apply false stgFill t.writes s.stg a

theorem flashGet_commit (b : Bool) (h : t.flash = s.flash) (a : Nat) : flashGet (commit b s t) a = flashGet t a := by
  rw [flashGet, flashGet, h]
  exact Memory.get_apply true flashFill t.writes s.flash a

/-- A command that writes nothing leaves the stores as they were. -/
theorem commit_stg (b : Bool) (h : t.writes = []) : (commit b s t).stg = s.stg := by
  show Memory.apply false stgFill s.stg t.writes = _
  rw [h, Memory.apply_nil]
theorem commit_flash (b : Bool) (h : t.writes = []) : (commit b s t).flash = s.flash := by
  show Memory.apply true flashFill s.flash t.writes = _
  rw [h, Memory.apply_nil]

theorem stgGet_congr (h1 : t.stg = s.stg) (h2 : t.writes = s.writes) (a : Nat) : stgGet t a = stgGet s a := by
  rw [stgGet, stgGet, h1, h2]

/-- The bytes of a staging write, and the others. -/
theorem stgGet_stgWrite (o : Nat) (l : List Byte) (s : State) (a : Nat) :
    stgGet (stgWrite o l s) a = if o ≤ a ∧ a < o + l.length then l.getD (a - o) 0 else stgGet s a := by
  rw [stgGet, stgGet, stgWrite_stg]
  exact overlay_append false stgFill a _ s.writes _

theorem stgGet_storeWrite (o : Nat) (l : List Byte) (s : State) (a : Nat) :
    stgGet (storeWrite o l s) a = if o ≤ a ∧ a < o + l.length then l.getD (a - o) 0 else stgGet s a := stgGet_stgWrite o l _ a

theorem stgGet_storeWrite_in {o : Nat} {l : List Byte} {i : Nat} (h : i < l.length) (s : State) :
    stgGet (storeWrite o l s) (o + i) = l.getD i 0 := by
  rw [stgGet_storeWrite, if_pos (by omega), Nat.add_sub_cancel_left]

theorem stgGet_storeWrite_out {o : Nat} {l : List Byte} {a : Nat} (h : a < o ∨ o + l.length ≤ a) (s : State) :
    stgGet (storeWrite o l s) a = stgGet s a := by
  rw [stgGet_storeWrite, if_neg (by omega)]

theorem stgRead_congr (h : ∀ a, stgGet t a = stgGet s a) (o n : Nat) : stgRead t o n = stgRead s o n := by
  induction n generalizing o with
  | zero => rfl
  | succ n ih => rw [stgRead, stgRead, h, ih]

theorem stgRead_length (s : State) (o n : Nat) : (stgRead s o n).length = n := by
  induction n generalizing o with
  | zero => rfl
  | succ n ih => rw [stgRead, List.length_cons, ih]

/-- What was written reads back. -/
theorem stgRead_of_get {l : List Byte} {o : Nat} (h : ∀ i, i < l.length → stgGet s (o + i) = l.getD i 0) :
    stgRead s o l.length = l := by
  induction l generalizing o with
  | nil => rfl
  | cons v l ih =>
    rw [List.length_cons, stgRead]
    congr 1
    · exact h 0 (Nat.succ_pos _)
    · refine ih (fun i hi => ?_)
      rw [Nat.add_right_comm]
      exact h (i + 1) (Nat.succ_lt_succ hi)

theorem stgRead_storeWrite (o : Nat) (l : List Byte) (s : State) : stgRead (storeWrite o l s) o l.length = l :=
  stgRead_of_get (fun _ h => stgGet_storeWrite_in h s)

end

theorem switchStable_stg : SwitchStable State.stg := by constructor <;> intros <;> rfl
theorem switchStable_flash : SwitchStable State.flash := by constructor <;> intros <;> rfl
theorem switchStable_gets : SwitchStable State.gets := by constructor <;> intros <;> rfl

end Sys2Proof.Machine
end

section
/-! SUPPORT. The target of one-sided requests: what is refused, what is kept, and answers on the port a request came by (R25,
R231, R242–R244). -/
namespace Sys2Proof.Machine

section
variable {n : Nat} {c : Cell} {s : State}

/-! ### Cells sent on a named port (R25) -/

theorem firstOf_own (s : State) : firstOf s 256 = true :=
  List.all_eq_true.2 (fun w _ => by rw [beq_self_eq_true, Bool.or_true])

/-- A cell the engine sends on a usable port with room joins its queue. -/
def sentOn (n : Nat) (c : Cell) (s : State) : State :=
  modPort n (fun p => putQueue .vc0s (queue p .vc0s ++ [asQueued .vc0s (setWelt 37 37 s.ep.inj c)]) p) s

theorem injectPort_room (hu : usable s false n = true) (hd : (port s n).st ≠ .doze) (hq : 0 < queueFree s n .vc0s) :
    (injectPort 256 n c s).1 = sentOn n c s := by
  have hn : injectNeed 0 .vc0s ≤ queueFree s n .vc0s := hq
  unfold injectPort
  rw [firstOf_own, Bool.not_true, if_neg Bool.false_ne_true, if_pos hu]
  unfold injectAt
  rw [if_pos hn]
  exact enqueue_of_not_doze hd _ _

theorem queue_sentOn : (port (sentOn n c s) n).qVc0s.length = (port s n).qVc0s.length + 1 := by
  rw [sentOn, port_modPort_self]
  exact List.length_append

/-- The response `respond` sends. -/
def response (src stream opn status : Nat) (dup inj : Bool) (len check old pseq : Nat) (s : State) : Cell :=
  mkCell src (ownId s) 0 6 stream (osSeq true opn) 0
    (pad64 (bytesBE 1 status ++ bytesBE 1 (b2n dup + 2 * b2n inj) ++ bytesBE 2 len ++ bytesBE 4 check
      ++ bytesBE 4 old ++ bytesBE 1 (incarnation s) ++ bytesBE 1 pseq))

theorem respond_eq {src st opn status : Nat} {dup inj : Bool} {len ch old ps : Nat} (h : status ≠ 5) :
    respond n src st opn status dup inj len ch old ps s =
    (injectPort 256 n (response src st opn status dup inj len ch old ps s) s).1 := by
  unfold respond
  rw [if_neg h]
  rfl

/-- An answer on a usable port with room is queued there. -/
theorem respond_room {src st opn status : Nat} {dup inj : Bool} {len ch old ps : Nat} (h : status ≠ 5)
    (hu : usable s false n = true) (hd : (port s n).st ≠ .doze) (hq : 0 < queueFree s n .vc0s) :
    respond n src st opn status dup inj len ch old ps s = sentOn n (response src st opn status dup inj len ch old ps s) s := by
  rw [respond_eq h, injectPort_room hu hd hq]

/-! ### Refused cells, and the first cells of a PUT, a PUT's tail and a GET (R242, R243) -/

theorem rdN_reqRefused : rdN (reqRefused s) R.memReqRefusedCount = min (rdN s R.memReqRefusedCount + 1) 0xFFFFFFFF := rdN_cntBy _ _ _

theorem SwitchStable.reqRefused {α : Type} {g : State → α} (h : SwitchStable g) (s : State) : g (reqRefused s) = g s := h.cnt _ s

theorem putData_refused (h : targetFrom s n c = false) : putData n c s = reqRefused s := by
  unfold putData
  rw [h]
  rfl
theorem putTail_refused (h : targetFrom s n c = false) : putTail n c s = reqRefused s := by
  unfold putTail
  rw [h]
  rfl
theorem getReq_refused (h : targetFrom s n c = false) : getReq n c s = reqRefused s := by
  unfold getReq
  rw [h]
  rfl
theorem atomicTail_refused (h : targetFrom s n c = false) : atomicTail n c s = reqRefused s := by
  unfold atomicTail
  rw [h]
  rfl

/-- The first data cell of a PUT opens a slot. -/
theorem putData_opens (h : targetFrom s n c = true) (hs : slotAt s n (wStream c) (osOpn c) = none) (hl : s.slots.length < 128)
    (hp : putLost s n (wStream c) (osOpn c) = false ∨ wIndex c = 0) : putData n c s =
    { dropLost n (wStream c) (osOpn c) s with slots := s.slots ++
      [{ port := n, stream := wStream c, opn := osOpn c, cells := [(wIndex c, c.payload)], src := wSrc c, due := now s + 2 * retxWait s }] } := by
  have hlost : ¬ (putLost s n (wStream c) (osOpn c) && wIndex c != 0) = true := by
    rcases hp with hp | hp <;> simp [hp]
  have hslot : slotAt (dropLost n (wStream c) (osOpn c) s) n (wStream c) (osOpn c) = none := hs
  unfold putData
  rw [h, Bool.not_true, if_neg Bool.false_ne_true, if_neg hlost]
  dsimp only
  rw [hslot]
  exact if_pos hl

/-- The tail of a PUT that passes its tests opens a slot where none is. -/
theorem putTail_opens {t : State} (h : targetFrom s n c = true) (hs : slotAt s n (wStream c) (osOpn c) = none)
    (ht : targetTest n (wStream c) 4 (wSrc c) c.payload s = (t, none)) (hl : t.slots.length < 128)
    (hp : putLost t n (wStream c) (osOpn c) = false) : putTail n c s =
    { t with slots := t.slots ++
      [{ port := n, stream := wStream c, opn := osOpn c, tail := some c.payload, src := wSrc c, due := now s + 2 * retxWait s }] } := by
  unfold putTail
  dsimp only
  rw [h, Bool.not_true, if_neg Bool.false_ne_true, hs]
  dsimp only
  rw [ht]
  exact if_pos ⟨hl, hp⟩

theorem getReq_kept {t : State} (h : targetFrom s n c = true)
    (ht : targetTest n (wStream c) 5 (wSrc c) c.payload s = (t, none)) : getReq n c s =
    { t with gets := t.gets ++ [{ port := n, stream := wStream c, opn := osOpn c, src := wSrc c, addr := tAddr c.payload
                                  len := tLen c.payload, pseq := tPseq c.payload, inj := tInj c.payload, part := tPart c.payload }] } := by
  unfold getReq
  dsimp only
  rw [h, Bool.not_true, if_neg Bool.false_ne_true, ht]

theorem getReq_answered {t : State} {e : Nat} (h : targetFrom s n c = true)
    (ht : targetTest n (wStream c) 5 (wSrc c) c.payload s = (t, some e)) : getReq n c s =
    respond n (wSrc c) (wStream c) (osOpn c) e false (tInj c.payload) 0 0 0 (tPseq c.payload) t := by
  unfold getReq
  dsimp only
  rw [h, Bool.not_true, if_neg Bool.false_ne_true, ht]

/-! ### A test that passes leaves only an opportunity behind (Table 7.7) -/

theorem windowCheckAt_passes {p st : Nat} {x : Option Nat} {ws : List Win} {m a len : Nat} {k : WKind} {b : Bool} {o d : Nat}
    (h : (windowCheckAt p st x ws m a len k b o d s).2 = true) :
    (windowCheckAt p st x ws m a len k b o d s).1 = (awlFire 8 none none (some m) s).1 := by
  unfold windowCheckAt at h ⊢
  by_cases hw : windowOk ws a len k b = true
  · rw [if_pos hw] at h ⊢
    dsimp only at h ⊢
    by_cases hf : (awlFire 8 none none (some m) s).2 = true
    · rw [if_pos hf] at h
      cases h
    · rw [if_neg hf]
  · rw [if_neg hw] at h
    cases h

/-- Test 4 of Table 7.7: the window check. -/
def targetWindow (n st ty src : Nat) (b : List Byte) (s : State) : State × Option Nat :=
  let w := windowCheckAt n st none (winsOf s (tPart b)) (tPart b) (tAddr b) (tLen b)
    (if ty == 7 then .atomic else if ty = 4 then .write else .read) (decide (n = 19 ∨ n = 20)) src 1 s
  if w.2 then (w.1, none) else (w.1, some 1)

/-- A tail's OP is one of its TYPE's (Table 7.7). -/
def targetOp (ty : Nat) (b : List Byte) : Bool := if ty == 7 then decide (1 ≤ tOp b ∧ tOp b ≤ 3) else tOp b == 0

theorem targetTest_cases (n st ty src : Nat) (b : List Byte) (s : State) :
    targetTest n st ty src b s = (badAccess s, some 3)
    ∨ targetOp ty b = true ∧ targetTest n st ty src b s = targetWindow n st ty src b s := by
  generalize hr : targetTest n st ty src b s = r
  unfold targetTest at hr
  simp only [] at hr
  rw [ite_eq_iff] at hr
  rcases hr with ⟨-, hr⟩ | ⟨hop, hr⟩
  · exact .inl hr.symm
  have hop := (not_or.1 (not_or.1 hop).2).2
  rw [Bool.not_eq_true', Bool.not_eq_false] at hop
  generalize placeOf s (offOf (tAddr b)) (tLen b) = p at hr
  cases p with
  | bad => exact .inl hr.symm
  | store o =>
    rw [ite_eq_iff] at hr
    exact hr.imp (fun h => h.2.symm) (fun h => ⟨hop, h.2.symm⟩)
  | accel =>
    rw [ite_eq_iff] at hr
    exact hr.imp (fun h => h.2.symm) (fun h => ⟨hop, h.2.symm⟩)

theorem targetTest_op {st ty src : Nat} {b : List Byte} {t : State} (h : targetTest n st ty src b s = (t, none)) :
    targetOp ty b = true := by
  rcases targetTest_cases n st ty src b s with e | ⟨e, -⟩
  · rw [e] at h
    cases (Prod.mk.inj h).2
  · exact e

theorem targetTest_passes {st ty src : Nat} {b : List Byte} {t : State} (h : targetTest n st ty src b s = (t, none)) :
    t = (awlFire 8 none none (some (tPart b)) s).1 := by
  rcases targetTest_cases n st ty src b s with e | ⟨-, e⟩
  · rw [e] at h
    cases (Prod.mk.inj h).2
  · rw [e] at h
    unfold targetWindow at h
    generalize hw : windowCheckAt n st none _ _ _ _ _ _ src 1 s = w at h
    dsimp only at h
    by_cases h2 : w.2 = true
    · rw [if_pos h2] at h
      rw [← (Prod.mk.inj h).1, ← hw]
      exact windowCheckAt_passes (by rw [hw, h2])
    · rw [if_neg h2] at h
      cases (Prod.mk.inj h).2

/-- Nor does it change the time a slot is given. -/
theorem targetTest_due {st ty src : Nat} {b : List Byte} {t : State} (h : targetTest n st ty src b s = (t, none)) :
    now t + 2 * retxWait t = now s + 2 * retxWait s := by
  have hr : rd t R.strRetxWait = rd s R.strRetxWait := by
    rw [targetTest_passes h]
    exact (injectStable_rd (by decide)).awlFire _ _ _ _ s
  have ht : t.t = s.t := by
    rw [targetTest_passes h]
    exact switchStable_t.awlFire _ _ _ _ s
  rw [now_congr ht, retxWait, retxWait, rdN, rdN, hr]

theorem MarkStable.targetTest {α : Type} {g : State → α} (h : MarkStable g) {st ty src : Nat} {b : List Byte} {t : State}
    (e : Machine.targetTest n st ty src b s = (t, none)) : g t = g s := by
  rw [targetTest_passes e]
  exact h.awlFire _ _ _ _ s

end

/-- A refused request changes no slot and no byte, and is counted. -/
theorem refused_clause {s s1 : State} {n : Nat} {b : List Byte} {c : Cell} (hs : s.Ready) (hd : deliveredCell n b s = some (s1, c)) :
    (commit false s (reqRefused s1)).slots = s1.slots ∧ (commit false s (reqRefused s1)).gets = s1.gets
    ∧ (commit false s (reqRefused s1)).stg = s.stg
    ∧ rdN (commit false s (reqRefused s1)) R.memReqRefusedCount = min (rdN s1 R.memReqRefusedCount + 1) 0xFFFFFFFF := by
  refine ⟨?_, ?_, commit_stg _ ?_, ?_⟩
  · rw [commit_slots, switchStable_slots.reqRefused]
  · exact switchStable_gets.reqRefused s1
  · rw [switchStable_writes.reqRefused, switchStable_writes.delivered hd, hs.2]
  · rw [commit_rdN, rdN_reqRefused]

/-- Settles O31. -/
theorem oneSidedRequests : Obligations.OneSidedRequests := by
  intro s s1 n b c hs hd hc hm
  have data (h4 : wType c = 4) (ht : osTail c = false) :=
    hs.run_takeCell (pick := fun c => wType c == 4 && !osTail c) (f := putData n) hd hc (by simp [h4, ht]) hm
  have tail (h4 : wType c = 4) (ht : osTail c = true) :=
    hs.run_takeCell (pick := fun c => wType c == 4 && osTail c) (f := putTail n) hd hc (by simp [h4, ht]) hm
  obtain ⟨h1, h2, h3, h4⟩ := refused_clause hs hd
  refine ⟨fun h => ⟨fun ht hl => ?_, fun ht hl => ?_, fun ht => ?_, fun ht => ?_⟩, fun h ht hl hsl hlen hlost => ?_,
    fun s2 h ht hl hsl htest hlen hlost => ?_, fun s2 h ht htest => ?_, fun s2 e h ht htest he hu hdz hq => ?_⟩
  · refine ⟨_, data ht hl, ?_⟩
    rw [putData_refused h]
    exact ⟨h1, h4⟩
  · refine ⟨_, tail ht hl, ?_⟩
    rw [putTail_refused h]
    exact ⟨h1, h4⟩
  · refine ⟨_, hs.run_takeType hd hc ht hm, ?_⟩
    rw [getReq_refused h]
    exact ⟨h2, h4⟩
  · refine ⟨_, hs.run_takeType hd hc ht hm, ?_⟩
    rw [atomicTail_refused h]
    exact ⟨h1, h3, h4⟩
  · refine ⟨_, data ht hl, ?_⟩
    rw [putData_opens h hsl hlen hlost, commit_regs, commit_slots]
    exact ⟨rfl, rfl⟩
  · refine ⟨_, tail ht hl, ?_⟩
    rw [putTail_opens h hsl htest hlen hlost, commit_regs, commit_slots, targetTest_due htest]
    exact ⟨rfl, rfl⟩
  · refine ⟨_, hs.run_takeType hd hc ht hm, ?_⟩
    rw [getReq_kept h htest, commit_regs]
    exact ⟨rfl, rfl⟩
  · refine ⟨_, hs.run_takeType hd hc ht hm, ?_⟩
    rw [getReq_answered h htest, respond_room he hu hdz hq, commit_port, queue_sentOn]
    exact ⟨rfl, rfl⟩

end Sys2Proof.Machine
end

section
/-! SUPPORT. The landing of one-sided accesses that are next in order, and the ATOMIC (R243–R246, R251, R254). -/
namespace Sys2Proof.Machine

section
variable {n k : Nat} {x : Slot} {b : List Byte} {off : Nat} {s : State}

/-! ### Slots and order records -/

theorem orderOf_modOrder (n k : Nat) (f : Order → Order) (s : State) : orderOf (modOrder n k f s) n k = f (orderOf s n k) := by
  unfold orderOf modOrder
  exact tget_tset_self _ _ _ _

theorem orderOf_congr {t : State} (h : t.orders = s.orders) (n k : Nat) : orderOf t n k = orderOf s n k := by
  rw [orderOf, h, orderOf]

theorem switchStable_orders : SwitchStable State.orders := by constructor <;> intros <;> rfl

theorem SwitchStable.respond {α : Type} {g : State → α} (h : SwitchStable g) (n src st opn status : Nat) (dup inj : Bool)
    (len check old ps : Nat) (s : State) : g (respond n src st opn status dup inj len check old ps s) = g s := by
  unfold Machine.respond
  dsimp only
  rw [h.injectPort]
  split
  · exact h.cnt _ s
  · rfl

theorem landHeld_empty (h : s.slots = []) (m : Nat) : landHeld n k m s = s := by
  cases m with
  | zero => rfl
  | succ m =>
    unfold landHeld
    rw [h]
    rfl

theorem dropSlot_only (h : s.slots = [x]) : (dropSlot x.port x.stream x.opn s).slots = [] := by
  unfold dropSlot
  rw [h]
  simp

theorem putSlot_only (h : s.slots = [x]) {y : Slot} (hy : x.port = y.port ∧ x.stream = y.stream ∧ x.opn = y.opn) :
    (putSlot y s).slots = [y] := by
  unfold putSlot
  rw [h, List.map_cons, List.map_nil, if_pos hy]

/-! ### The two landings: the cases are decided before the lets are looked through, or the kernel would evaluate them -/

theorem storeReadAt_quiet (q : s.Quiet) (hb : s.stgBad = []) (p st : Nat) (w : Option Nat) (m o len : Nat) :
    storeReadAt p st w m o len s = (s, some (stgRead s o len)) := by
  have hw : badWord s o len = none := by rw [badWord, hb]; rfl
  unfold storeReadAt
  rw [hw, awlFire_quiet q]
  exact if_neg Bool.false_ne_true

/-- The word an ATOMIC writes. -/
def atomicWord (b : List Byte) (off : Nat) (s : State) : List Byte :=
  bytesLE 4 (atomicResult (tOp b) (natLE (stgRead s off 4)) (tOperand b) (tCompare b))

theorem atomicDo_quiet (q : s.Quiet) (hb : s.stgBad = []) (p st m : Nat) :
    atomicDo p st none m off (tOp b) (tOperand b) (tCompare b) s
    = (storeWrite off (atomicWord b off s) s, some (natLE (stgRead s off 4))) := by
  unfold atomicDo
  rw [storeReadAt_quiet q hb]
  rfl

/-- An access that is over leaves its slot, and the order moves on. -/
def accessLeaves (x : Slot) (s : State) : State :=
  modOrder x.port x.stream (fun o => { o with expect := (o.expect + 1) % 256 }) (dropSlot x.port x.stream x.opn s)

/-- The answer to an ATOMIC, whose old word is kept. -/
def atomicAnswered (x : Slot) (b : List Byte) (old : Nat) (s : State) : State :=
  respond x.port x.src x.stream x.opn 0 false (tInj b) 0 0 old (tPseq b) (modOrder x.port x.stream (fun o => { o with old := old }) s)

theorem landSlot_atomic (q : s.Quiet) (hb : s.stgBad = []) (ht : x.tail = some b) (hop : tOp b ≠ 0)
    (hp : placeOf s (offOf (tAddr b)) 4 = .store off) : landSlot x s =
    (accessLeaves x (atomicAnswered x b (natLE (stgRead s off 4)) (storeWrite off (atomicWord b off s) s)), true) := by
  unfold landSlot
  rw [ht]
  simp -zeta only [hp, ne_eq, hop, not_false_eq_true, if_true, atomicDo_quiet q hb]
  rfl

/-- The bytes of a PUT. -/
def putBytes (x : Slot) (b : List Byte) : List Byte := ((List.range (tLen b / 64)).map (fun i => tget [] i x.cells)).flatten

theorem landSlot_put (ht : x.tail = some b) (hop : tOp b = 0) (hp : placeOf s (offOf (tAddr b)) (tLen b) = .store off) :
    landSlot x s = (putSlot { x with st := .landing } (storeWrite off (putBytes x b) s), false) := by
  unfold landSlot
  rw [ht]
  simp -zeta only [hp, hop, ne_eq, not_true_eq_false, if_false]
  rfl

/-- An access that is next lands, and the held ones behind it do. -/
theorem orderSlot_next (ht : x.tail = some b) (hd : (tPseq b + 256 - (orderOf s x.port x.stream).expect) % 256 = 0)
    (hbusy : s.slots.any (fun y => y.port == x.port && y.stream == x.stream && y.st == .landing) = false) :
    orderSlot x s = if (landSlot x s).2 then landHeld x.port x.stream 128 (landSlot x s).1 else (landSlot x s).1 := by
  unfold orderSlot
  rw [ht]
  simp only []
  rw [if_pos ⟨hd, by rw [hbusy]; rfl⟩]

/-- A number that is the one expected is at distance 0. -/
theorem pseq_next {p e : Nat} (h : p = e) : (p + 256 - e) % 256 = 0 := by omega

/-! ### An ATOMIC (R251) -/

/-- The slot an access has for as long as its tail is handled. -/
def tailSlot (n : Nat) (c : Cell) (s : State) : Slot :=
  { port := n, stream := wStream c, opn := osOpn c, tail := some c.payload, src := wSrc c, due := now s + 2 * retxWait s }

theorem atomicTail_next {c : Cell} {t : State} (h : targetFrom s n c = true) (hs : slotAt s n (wStream c) (osOpn c) = none)
    (ht : targetTest n (wStream c) 7 (wSrc c) c.payload s = (t, none)) (hsl : t.slots = [])
    (hp : tPseq c.payload = (orderOf t n (wStream c)).expect) : atomicTail n c s =
    orderSlot (tailSlot n c t) { t with slots := [tailSlot n c t] } := by
  have hd := pseq_next hp
  unfold atomicTail
  dsimp only
  rw [h, Bool.not_true, if_neg Bool.false_ne_true, hs, Option.isSome_none, if_neg Bool.false_ne_true, ht]
  dsimp only
  rw [hd, hsl]
  rfl

/-- The order an ATOMIC leaves. -/
theorem orderOf_accessLeaves_atomic (x : Slot) (b : List Byte) (old : Nat) (s : State) :
    orderOf (accessLeaves x (atomicAnswered x b old s)) x.port x.stream
    = { expect := ((orderOf s x.port x.stream).expect + 1) % 256, old := old } := by
  rw [accessLeaves, orderOf_modOrder, atomicAnswered]
  have h : orderOf (dropSlot x.port x.stream x.opn (respond x.port x.src x.stream x.opn 0 false (tInj b) 0 0 old (tPseq b)
      (modOrder x.port x.stream (fun o => { o with old := old }) s))) x.port x.stream = { orderOf s x.port x.stream with old := old } :=
    (orderOf_congr (switchStable_orders.respond _ _ _ _ _ _ _ _ _ _ _ _) _ _).trans (orderOf_modOrder _ _ _ s)
  rw [h]

/-- A reading that neither slots nor order records enter. -/
structure AnswerStable {α : Type} (g : State → α) : Prop extends SwitchStable g where
  slots : ∀ x s, g { s with slots := x } = g s
  orders : ∀ x s, g { s with orders := x } = g s

theorem AnswerStable.leaves {α : Type} {g : State → α} (h : AnswerStable g) (x : Slot) (b : List Byte) (old : Nat) (s : State) :
    g (accessLeaves x (atomicAnswered x b old s)) = g s := by
  refine (h.orders _ _).trans ((h.slots _ _).trans ?_)
  rw [atomicAnswered, h.respond]
  exact h.orders _ _

theorem answerStable_writes : AnswerStable State.writes := by
  repeat' first | exact switchStable_writes | constructor
  all_goals intros; rfl
theorem answerStable_stg : AnswerStable State.stg := by
  repeat' first | exact switchStable_stg | constructor
  all_goals intros; rfl

theorem slots_accessLeaves_atomic (b : List Byte) (old : Nat) (h : s.slots = [x]) :
    (accessLeaves x (atomicAnswered x b old s)).slots = [] := by
  refine dropSlot_only ?_
  rw [atomicAnswered, switchStable_slots.respond]
  exact h

theorem bytesLE_length (n v : Nat) : (bytesLE n v).length = n := by
  induction n generalizing v with
  | zero => rfl
  | succ n ih => rw [bytesLE, List.length_cons, ih]

/-- An ATOMIC that is next writes its word, and no other byte. -/
theorem orderSlot_atomic (q : s.Quiet) (hb : s.stgBad = []) (hs : s.slots = [x]) (hst : x.st = .filling) (ht : x.tail = some b)
    (hop : tOp b ≠ 0) (hd : tPseq b = (orderOf s x.port x.stream).expect) (hp : placeOf s (offOf (tAddr b)) 4 = .store off) :
    orderSlot x s = accessLeaves x (atomicAnswered x b (natLE (stgRead s off 4)) (storeWrite off (atomicWord b off s) s)) := by
  have hbusy : s.slots.any (fun y => y.port == x.port && y.stream == x.stream && y.st == .landing) = false := by
    rw [hs, List.any_cons, List.any_nil, hst, Bool.or_false]
    exact Bool.and_false _
  rw [orderSlot_next ht (pseq_next hd) hbusy, landSlot_atomic q hb ht hop hp, if_pos rfl]
  exact landHeld_empty (slots_accessLeaves_atomic b _ (by exact hs)) 128

end

/-- Settles O32. -/
theorem atomics : Obligations.Atomics := by
  intro s s1 s2 n b c off o hs hd hc hm h7 htf hsl htest q hslots hbad hps he hplace ho
  have hwr : s2.writes = [] := by rw [switchStable_writes.markStable.targetTest htest, switchStable_writes.delivered hd, hs.2]
  have hstg : s2.stg = s.stg := by rw [switchStable_stg.markStable.targetTest htest, switchStable_stg.delivered hd]
  have hget (a : Nat) : stgGet s2 a = stgGet s a := stgGet_congr hstg (hwr.trans hs.2.symm) a
  have hop : tOp c.payload ≠ 0 := by
    have := targetTest_op htest
    rw [targetOp, if_pos (by rfl), decide_eq_true_eq] at this
    omega
  obtain ⟨u, hu⟩ : ∃ u, ({ s2 with slots := [tailSlot n c s2] } : State) = u := ⟨_, rfl⟩
  have hu1 (a : Nat) : stgGet u a = stgGet s a := by rw [← hget, ← hu]; rfl
  have hland : atomicTail n c s1 = accessLeaves (tailSlot n c s2) (atomicAnswered (tailSlot n c s2) c.payload (natLE (stgRead u off 4))
      (storeWrite off (atomicWord c.payload off u) u)) := by
    rw [atomicTail_next htf hsl htest hslots hps, hu]
    exact orderSlot_atomic (by rw [← hu]; exact q) (by rw [← hu]; exact hbad) (by rw [← hu]) rfl rfl hop
      (by rw [← hu]; exact hps) (by rw [← hu]; exact hplace)
  have hold : natLE (stgRead u off 4) = o := by rw [ho, stgRead_congr hu1]
  have hword : (atomicWord c.payload off u).length = 4 := bytesLE_length 4 _
  have hfin (a : Nat) : stgGet (commit false s (atomicTail n c s1)) a = stgGet (storeWrite off (atomicWord c.payload off u) u) a := by
    rw [hland, stgGet_commit false ((answerStable_stg.leaves _ _ _ _).trans (by rw [← hu]; exact hstg))]
    exact stgGet_congr (answerStable_stg.leaves _ _ _ _) (answerStable_writes.leaves _ _ _ _) a
  refine ⟨_, hs.run_takeType hd hc h7 hm, ?_, fun a ha => ?_, ?_, ?_⟩
  · have hr := stgRead_storeWrite off (atomicWord c.payload off u) u
    rw [hword] at hr
    rw [stgRead_congr hfin, hr, atomicWord, hold]
  · rw [hfin, stgGet_storeWrite_out (by rw [hword]; exact ha), hu1]
  · rw [commit_slots, hland]
    exact slots_accessLeaves_atomic _ _ (by rw [← hu]; rfl)
  · rw [orderOf_congr (commit_orders _ _ _), hland, hold]
    refine (orderOf_accessLeaves_atomic (tailSlot n c s2) _ _ _).trans ?_
    rw [← hu]
    rfl

end Sys2Proof.Machine
end

section
/-! SUPPORT. PUTs at the target, and the reads of a GET (R231, R243–R247). -/
namespace Sys2Proof.Machine

section
variable {n k opn : Nat} {x : Slot} {b : List Byte} {off : Nat} {s : State}

/-! ### The alert an answer leaves -/

theorem rd_resume_ne {a : Nat} (h1 : a ≠ R.prtEvents n) (h2 : a ≠ R.prtResumeCount n) (r : Bool) (s : State) :
    rd (resume n r s) a = rd s a := by
  unfold resume
  dsimp only
  have wake (i : Nat) : rd (if ((port s n).st == .doze || (port s n).st == .sleep) = true then
      emit (.wake n) (cnt (R.prtResumeCount n) (ev (R.prtEvents n) i s)) else ev (R.prtEvents n) i s) a = rd s a := by
    split
    · exact (rd_cnt_ne h2 _).trans (rd_ev_ne h1 _ _)
    · exact rd_ev_ne h1 _ _
  split
  · rw [rd_modPort]
    split <;> exact wake _
  · rfl

theorem rd_enqueue_ne {a : Nat} (h1 : a ≠ R.prtEvents n) (h2 : a ≠ R.prtResumeCount n) (q : QCls) (c : Cell) (s : State) :
    rd (enqueue n q c s) a = rd s a := by
  unfold enqueue
  dsimp only
  split
  · rw [rd_resume_ne h1 h2, rd_modPort]
  · rw [rd_modPort]

/-- An alert stands through a cell sent on a port. -/
theorem alert_injectPort {i : Nat} (hi : rbit s R.glbAlertStatus i = true) (c : Cell) :
    rbit (injectPort 256 n c s).1 R.glbAlertStatus i = true := by
  unfold injectPort
  rw [firstOf_own, Bool.not_true, if_neg Bool.false_ne_true]
  split
  · unfold injectAt
    split
    · rw [rbit, rd_enqueue_ne (by unfold R.glbAlertStatus R.prtEvents; omega) (by unfold R.glbAlertStatus R.prtResumeCount; omega)]
      exact hi
    · exact hi
  · refine rbit_raise_alert_of (show 19 < 32 by decide) ?_
    rw [rbit_evI_ne (by decide), rbit_cnt_ne (by decide)]
    exact hi

theorem alert_respond {i status : Nat} (hi : rbit s R.glbAlertStatus i = true) (h5 : status ≠ 5) (src st opn : Nat) (dup inj : Bool)
    (len ch old ps : Nat) : rbit (respond n src st opn status dup inj len ch old ps s) R.glbAlertStatus i = true := by
  rw [respond_eq h5]
  exact alert_injectPort hi _

/-! ### The only slot there is -/

theorem slotAt_only (h : s.slots = [x]) : slotAt s x.port x.stream x.opn = some x := by
  unfold slotAt
  rw [h]
  exact List.find?_cons_of_pos (by simp)

/-- A check that completes is handled as its data says (R243, R244). -/
theorem putCheck_due {t0 : Nat} (hs : s.slots = [x]) (hst : x.st = .checking) (hf : x.fullAt = some t0) (hd : t0 + 4 ≤ now s)
    (ht : x.tail = some b) : putCheck x.port x.stream x.opn s =
    if crc32c (putBytes x b) = tCheck b then orderSlot x s
    else respond x.port x.src x.stream x.opn 2 false (tInj b) 0 (crc32c (putBytes x b)) 0 (tPseq b) (dropSlot x.port x.stream x.opn
      (raise { i := 1, inj := tInj b, port := x.port, stream := x.stream, part := tPart b, engine := x.src, code := x.opn } s)) := by
  unfold putCheck
  rw [slotAt_only hs]
  dsimp only
  rw [hst, hf, ht]
  dsimp only
  rw [if_neg (by omega)]
  rfl

/-- A PUT that is not next is held (Table 7.8). -/
theorem orderSlot_held (ht : x.tail = some b) (h0 : (tPseq b + 256 - (orderOf s x.port x.stream).expect) % 256 ≠ 0)
    (h63 : (tPseq b + 256 - (orderOf s x.port x.stream).expect) % 256 ≤ 63) :
    orderSlot x s = putSlot { x with st := .held, skip := now s + 4 * retxWait s } s := by
  unfold orderSlot
  rw [ht]
  dsimp only
  rw [if_neg (fun e => h0 e.1), if_pos h63]

theorem rd_putSlot (y : Slot) (s : State) (a : Nat) : rd (putSlot y s) a = rd s a := rfl

/-- A PUT that is next on staging bytes begins to land. -/
theorem orderSlot_put (hs : s.slots = [x]) (hst : x.st = .checking) (ht : x.tail = some b) (hop : tOp b = 0)
    (hd : tPseq b = (orderOf s x.port x.stream).expect) (hp : placeOf s (offOf (tAddr b)) (tLen b) = .store off) :
    orderSlot x s = putSlot { x with st := .landing } (storeWrite off (putBytes x b) s) := by
  have hbusy : s.slots.any (fun y => y.port == x.port && y.stream == x.stream && y.st == .landing) = false := by
    rw [hs, List.any_cons, List.any_nil, hst, Bool.or_false]
    exact Bool.and_false _
  rw [orderSlot_next ht (pseq_next hd) hbusy, landSlot_put ht hop hp, if_neg Bool.false_ne_true]

/-- The only access that lands is over. -/
theorem putLanded_only (hs : s.slots = [x]) (hst : x.st = .landing) (ht : x.tail = some b)
    (hx : s.txns.any (fun g => g.owner == .put x.port x.stream x.opn) = false) : putLanded x.port x.stream x.opn s =
    modOrder x.port x.stream (fun o => { o with expect := (o.expect + 1) % 256 })
      (respond x.port x.src x.stream x.opn 0 false (tInj b) (tLen b) (tCheck b) 0 (tPseq b) (dropSlot x.port x.stream x.opn s)) := by
  unfold putLanded
  rw [slotAt_only hs]
  dsimp only
  rw [ht]
  dsimp only
  rw [if_pos ⟨hst, by rw [hx]; rfl⟩]
  refine landHeld_empty ?_ 128
  exact (switchStable_slots.respond _ _ _ _ _ _ _ _ _ _ _ _).trans (dropSlot_only hs)

/-! ### Accesses held too long (R245) -/

/-- The order gives up to a number. -/
def orderAt (x : Slot) (p : Nat) (s : State) : State :=
  modOrder x.port x.stream (fun o => { o with expect := p }) (ev R.memEvents 4 (cnt R.memOrderSkipCount s))

theorem orderSkip_only (hs : s.slots = [x]) (hst : x.st = .held) (hsk : x.skip ≤ now s) (ht : x.tail = some b) :
    orderSkip x.port x.stream s = landHeld x.port x.stream 128 (orderAt x (tPseq b) s) := by
  have hdue : s.slots.filter (fun y => y.port == x.port && y.stream == x.stream && y.st == .held && decide (y.skip ≤ now s)) = [x] := by
    rw [hs]
    simp [hst, hsk]
  unfold orderSkip
  dsimp only
  rw [hdue]
  simp only [List.foldl_cons, List.foldl_nil, ht]
  rfl

theorem landHeld_one (hs : s.slots = [x]) (hst : x.st = .held) (ht : x.tail = some b) (he : (orderOf s x.port x.stream).expect = tPseq b)
    (hl : (landSlot x s).2 = false) (m : Nat) : landHeld x.port x.stream (m + 1) s = (landSlot x s).1 := by
  unfold landHeld
  dsimp only
  rw [hs, List.find?_cons_of_pos (by simp [hst, ht, he])]
  dsimp only
  rw [hl, if_neg Bool.false_ne_true]

theorem rd_orderAt_ne {a : Nat} (h1 : a ≠ R.memEvents) (h2 : a ≠ R.memOrderSkipCount) (p : Nat) : rd (orderAt x p s) a = rd s a := by
  show rd (ev R.memEvents 4 (cnt R.memOrderSkipCount s)) a = rd s a
  rw [rd_ev_ne h1, rd_cnt_ne h2]

theorem slots_orderAt (p : Nat) : (orderAt x p s).slots = s.slots :=
  (switchStable_slots.markStable.ev R.memEvents 4 _).trans (switchStable_slots.markStable.cnt R.memOrderSkipCount s)

theorem placeOf_congr {t : State} (h : rd t R.memStageBase = rd s R.memStageBase) (o len : Nat) : placeOf t o len = placeOf s o len := by
  have hb : stageBase t = stageBase s := by rw [stageBase, stageBase, rfld, rfld, h]
  unfold placeOf
  rw [hb]

/-! ### The reads of a GET (R231) -/

/-- Cells sent one after the other on a port with room for all of them. -/
theorem injectPorts_room {cell : Nat → State → Cell} (l : List Nat) (s : State) (hu : usable s false n = true)
    (hd : (port s n).st ≠ .doze) (hq : l.length < queueFree s n .vc0s) :
    ∃ t, forEach l (fun i s => (injectPort 256 n (cell i s) s).1) s = t ∧ usable t false n = true ∧ (port t n).st ≠ .doze
      ∧ 0 < queueFree t n .vc0s ∧ (port t n).qVc0s.length = (port s n).qVc0s.length + l.length := by
  induction l generalizing s with
  | nil => exact ⟨s, rfl, hu, hd, hq, rfl⟩
  | cons i l ih =>
    have hst : (port (sentOn n (cell i s) s) n).st = (port s n).st ∧ (port (sentOn n (cell i s) s) n).lite = (port s n).lite := by
      rw [sentOn, port_modPort_self]
      exact ⟨rfl, rfl⟩
    have hlen := queue_sentOn (n := n) (c := cell i s) (s := s)
    have hfree : l.length < queueFree (sentOn n (cell i s) s) n .vc0s := by
      unfold queueFree queue at hq ⊢
      dsimp only at hq ⊢
      rw [hlen]
      rw [List.length_cons] at hq
      omega
    have hu1 : usable (sentOn n (cell i s) s) false n = true := by
      unfold usable routable at hu ⊢
      rw [hst.1, hst.2]
      exact hu
    obtain ⟨t, ht, h1, h2, h3, h4⟩ := ih (sentOn n (cell i s) s) hu1 (by rw [hst.1]; exact hd) hfree
    refine ⟨t, ?_, h1, h2, h3, ?_⟩
    · rw [← ht]
      show forEach l _ (injectPort 256 n (cell i s) s).1 = _
      rw [injectPort_room hu hd (by omega)]
    · rw [h4, hlen, List.length_cons]
      omega

/-- The branch of a present value. -/
theorem casesOn_some {α β : Type} {o : Option α} {g : α} {a : β} {f : α → β} (h : o = some g) :
    Option.casesOn (motive := fun _ => β) o a f = f g := by
  cases h
  rfl
set_option smartUnfolding false in
/-- A GET's job is done, and its cells go out by the port it came by. -/
theorem getReadDone_sent {g : GetJob} {data : List Byte} (q : s.Quiet) (hb : s.stgBad = []) (hg : s.gets = [g])
    (hp : placeOf s (offOf g.addr) g.len = .store off) : ∃ (cell : Nat → State → Cell) (d : Nat), getReadDone g.port g.stream g.opn data s =
      respond g.port g.src g.stream g.opn 0 false g.inj g.len d 0 g.pseq
        (forEach (List.range (g.len / 64)) (fun i s => (injectPort 256 g.port (cell i s) s).1) { s with gets := [] }) := by
  have hf : s.gets.find? (fun h => h.port == g.port && h.stream == g.stream && h.opn == g.opn) = some g := by
    rw [hg]
    exact List.find?_cons_of_pos (by simp)
  have he : s.gets.erase g = [] := by rw [hg]; exact List.erase_cons_head _ _
  obtain ⟨u, hu⟩ : ∃ u : State, { s with gets := s.gets.erase g } = u := ⟨_, rfl⟩
  have hplace : placeOf u (offOf g.addr) g.len = .store off := by rw [← hu]; exact hp
  have hread := storeReadAt_quiet (s := u) (by rw [← hu]; exact q) (by rw [← hu]; exact hb) g.port g.stream none g.part off g.len
  have hfire := awlFire_quiet (s := u) (by rw [← hu]; exact q) 1 (some g.port) none none
  refine ⟨fun i s => mkCell g.src (ownId s) 0 6 g.stream (osSeq false g.opn) i (slice (stgRead u off g.len) (64 * i) 64),
    crc32c (stgRead u off g.len), ?_⟩
  rw [← he, hu, getReadDone]
  refine (casesOn_some hf).trans ?_
  dsimp -zeta only
  rw [hu]
  generalize @placeOf = place at hplace ⊢
  extract_lets +onlyGivenNames v fail send
  have hv : place v (offOf g.addr) g.len = .store off := hplace
  have hr : storeReadAt g.port g.stream none g.part off g.len v = (u, some (stgRead u off g.len)) := hread
  have hsend : send (stgRead u off g.len) u = respond g.port g.src g.stream g.opn 0 false g.inj g.len (crc32c (stgRead u off g.len)) 0 g.pseq
      (forEach (List.range (g.len / 64)) (fun i s => (injectPort 256 g.port (mkCell g.src (ownId s) 0 6 g.stream (osSeq false g.opn) i
        (slice (stgRead u off g.len) (64 * i) 64)) s).1) u) := by
    unfold send
    rw [hfire]
    dsimp only
    rw [if_neg Bool.false_ne_true, Bool.false_or]
  clear_value send fail v
  rw [hv, ← hsend]
  dsimp -zeta only
  rw [hr]

theorem SwitchStable.injectPorts {α : Type} {g : State → α} (h : SwitchStable g) {cell : Nat → State → Cell} (l : List Nat) (s : State) :
    g (forEach l (fun i s => (Machine.injectPort 256 n (cell i s) s).1) s) = g s :=
  forEach_field g _ _ (fun _ _ s => h.injectPort _ _ _ s) s

/-! ### The clauses -/

/-- A PUT that fails its check is dropped (R243). -/
theorem putCheck_fails {t0 : Nat} (hs : s.Ready) (h : s.slots = [x]) (hst : x.st = .checking) (hf : x.fullAt = some t0)
    (hd : t0 + 4 ≤ now s) (ht : x.tail = some b) (hc : crc32c (putBytes x b) ≠ tCheck b) :
    ∃ t, exec (.putCheckComplete x.port x.stream x.opn) s = .next t ∧ t.slots = [] ∧ t.stg = s.stg
      ∧ rbit t R.glbAlertStatus 1 = true := by
  have hput := putCheck_due h hst hf hd ht
  rw [if_neg hc] at hput
  refine ⟨_, hs.run _, ?_, ?_, ?_⟩
  · rw [commit_slots, hput, switchStable_slots.respond]
    exact dropSlot_only ((switchStable_slots.markStable.raise _ (show 1 < 32 by decide) _).trans h)
  · rw [hput, commit_stg false]
    rw [switchStable_writes.respond]
    exact (switchStable_writes.markStable.raise _ (show 1 < 32 by decide) _).trans hs.2
  · rw [commit_rbit, hput]
    refine alert_respond ?_ (by decide) _ _ _ _ _ _ _ _ _
    exact (rbit_congr rfl _ _).trans (rbit_raise_alert_mk (show 1 < 32 by decide) s)

/-- A PUT that is next lands (R244). -/
theorem putCheck_lands {t0 : Nat} (hs : s.Ready) (h : s.slots = [x]) (hst : x.st = .checking) (hf : x.fullAt = some t0)
    (hd : t0 + 4 ≤ now s) (ht : x.tail = some b) (hop : tOp b = 0) (hc : crc32c (putBytes x b) = tCheck b)
    (hn : tPseq b = (orderOf s x.port x.stream).expect) (hp : placeOf s (offOf (tAddr b)) (tLen b) = .store off)
    (hl : (putBytes x b).length = tLen b) : ∃ t, exec (.putCheckComplete x.port x.stream x.opn) s = .next t
      ∧ t.slots = [{ x with st := .landing }] ∧ (∀ i, i < tLen b → stgGet t (off + i) = (putBytes x b).getD i 0)
      ∧ (∀ a, a < off ∨ off + tLen b ≤ a → stgGet t a = stgGet s a) ∧ t.regs = s.regs := by
  have hput := putCheck_due h hst hf hd ht
  rw [if_pos hc, orderSlot_put h hst ht hop hn hp] at hput
  have hget (a : Nat) : stgGet (commit false s (putCheck x.port x.stream x.opn s)) a = stgGet (storeWrite off (putBytes x b) s) a := by
    rw [hput, stgGet_commit false (by rfl)]
    exact stgGet_congr rfl rfl a
  refine ⟨_, hs.run _, ?_, fun i hi => ?_, fun a ha => ?_, ?_⟩
  · rw [commit_slots, hput]
    exact putSlot_only (s := storeWrite off (putBytes x b) s) h ⟨rfl, rfl, rfl⟩
  · rw [hget, stgGet_storeWrite_in (by rw [hl]; exact hi)]
  · rw [hget, stgGet_storeWrite_out (by rw [hl]; exact ha)]
  · rw [commit_regs, hput]
    rfl

/-- A PUT that is not next is held (R244). -/
theorem putCheck_holds {t0 : Nat} (hs : s.Ready) (h : s.slots = [x]) (hst : x.st = .checking) (hf : x.fullAt = some t0)
    (hd : t0 + 4 ≤ now s) (ht : x.tail = some b) (hc : crc32c (putBytes x b) = tCheck b)
    (h0 : (tPseq b + 256 - (orderOf s x.port x.stream).expect) % 256 ≠ 0)
    (h63 : (tPseq b + 256 - (orderOf s x.port x.stream).expect) % 256 ≤ 63) :
    ∃ t, exec (.putCheckComplete x.port x.stream x.opn) s = .next t
      ∧ t.slots = [{ x with st := .held, skip := now s + 4 * retxWait s }] ∧ t.stg = s.stg ∧ t.regs = s.regs := by
  have hput := putCheck_due h hst hf hd ht
  rw [if_pos hc, orderSlot_held ht h0 h63] at hput
  refine ⟨_, hs.run _, ?_, ?_, ?_⟩
  · rw [commit_slots, hput]
    exact putSlot_only h ⟨rfl, rfl, rfl⟩
  · rw [hput, commit_stg false]
    exact hs.2
  · rw [commit_regs, hput]
    rfl

/-- A landing done moves the order number on (R246). -/
theorem putLanded_leaves (hs : s.Ready) (h : s.slots = [x]) (hst : x.st = .landing) (ht : x.tail = some b)
    (hx : s.txns.any (fun g => g.owner == .put x.port x.stream x.opn) = false) :
    ∃ t, exec (.putLanded x.port x.stream x.opn) s = .next t ∧ t.slots = [] ∧ t.stg = s.stg
      ∧ (orderOf t x.port x.stream).expect = ((orderOf s x.port x.stream).expect + 1) % 256 := by
  have hput := putLanded_only h hst ht hx
  refine ⟨_, hs.run _, ?_, ?_, ?_⟩
  · rw [commit_slots, hput]
    exact (switchStable_slots.respond _ _ _ _ _ _ _ _ _ _ _ _).trans (dropSlot_only h)
  · rw [hput, commit_stg false]
    exact (switchStable_writes.respond _ _ _ _ _ _ _ _ _ _ _ _).trans hs.2
  · rw [orderOf_congr (commit_orders _ _ _), hput, orderOf_modOrder, orderOf_congr (switchStable_orders.respond _ _ _ _ _ _ _ _ _ _ _ _)]
    rfl

/-- A held PUT whose time is over is given up to (R245). -/
theorem orderSkip_lands (hs : s.Ready) (h : s.slots = [x]) (hst : x.st = .held) (hsk : x.skip ≤ now s) (ht : x.tail = some b)
    (hop : tOp b = 0) (hp : placeOf s (offOf (tAddr b)) (tLen b) = .store off) : ∃ t, exec (.orderSkip x.port x.stream) s = .next t
      ∧ t.slots = [{ x with st := .landing }] ∧ (orderOf t x.port x.stream).expect = tPseq b
      ∧ rdN t R.memOrderSkipCount = min (rdN s R.memOrderSkipCount + 1) 0xFFFFFFFF := by
  have ho : orderOf (orderAt x (tPseq b) s) x.port x.stream = { orderOf s x.port x.stream with expect := tPseq b } := by
    rw [orderAt, orderOf_modOrder]
    rfl
  have hland := landSlot_put (s := orderAt x (tPseq b) s) ht hop
    ((placeOf_congr (rd_orderAt_ne (by decide) (by decide) (tPseq b)) _ _).trans hp)
  have hskip : orderSkip x.port x.stream s = putSlot { x with st := .landing } (storeWrite off (putBytes x b) (orderAt x (tPseq b) s)) := by
    rw [orderSkip_only h hst hsk ht, landHeld_one (by exact h) hst ht (by rw [ho]) (by rw [hland]), hland]
  have hsl := (slots_orderAt (x := x) (s := s) (tPseq b)).trans h
  have hcount : rdN (orderAt x (tPseq b) s) R.memOrderSkipCount = min (rdN s R.memOrderSkipCount + 1) 0xFFFFFFFF := by
    refine (rdN_congr (s := ev R.memEvents 4 (cnt R.memOrderSkipCount s)) rfl R.memOrderSkipCount).trans ?_
    rw [rdN_ev_ne (by decide), cnt, rdN_cntBy]
  generalize orderAt x (tPseq b) s = u at hskip ho hsl hcount
  refine ⟨_, hs.run _, ?_, ?_, ?_⟩
  · rw [commit_slots, hskip]
    exact putSlot_only (s := storeWrite off (putBytes x b) u) hsl ⟨rfl, rfl, rfl⟩
  · rw [orderOf_congr (commit_orders _ _ _), hskip]
    exact congrArg Order.expect ho
  · rw [commit_rdN, hskip]
    exact hcount

/-- The data and the tail of a GET are queued (R231). -/
theorem getReadDone_queues {g : GetJob} {data : List Byte} (hs : s.Ready) (q : s.Quiet) (hg : s.gets = [g]) (hb : s.stgBad = [])
    (hp : placeOf s (offOf g.addr) g.len = .store off) (hu : usable s false g.port = true) (hd : (port s g.port).st ≠ .doze)
    (hq : g.len / 64 < queueFree s g.port .vc0s) : ∃ t, exec (.getReadDone g.port g.stream g.opn data) s = .next t ∧ t.gets = []
      ∧ (port t g.port).qVc0s.length = (port s g.port).qVc0s.length + g.len / 64 + 1 ∧ t.stg = s.stg := by
  obtain ⟨cell, d, hget⟩ := getReadDone_sent (data := data) q hb hg hp
  obtain ⟨t, hsent, hut, hdt, hqt, hlen⟩ := injectPorts_room (cell := cell) (List.range (g.len / 64)) { s with gets := [] } hu hd
    (by rw [List.length_range]; exact hq)
  refine ⟨_, hs.run _, ?_, ?_, ?_⟩
  · show (getReadDone g.port g.stream g.opn data s).gets = []
    rw [hget, switchStable_gets.respond, switchStable_gets.injectPorts]
  · have hr := respond_room (n := g.port) (src := g.src) (st := g.stream) (opn := g.opn) (dup := false) (inj := g.inj) (len := g.len)
      (ch := d) (old := 0) (ps := g.pseq) (show 0 ≠ 5 by decide) hut hdt hqt
    rw [port_congr (commit_ports _ _ _), hget, hsent, hr, queue_sentOn, hlen, List.length_range]
    rfl
  · rw [hget, commit_stg false]
    rw [switchStable_writes.respond, switchStable_writes.injectPorts]
    exact hs.2

end

/-- Settles O33. -/
theorem putLanding : Obligations.PutLanding := by
  refine ⟨?_, fun s hs q => ⟨⟨_, hs.run _, rfl, ?_, ?_⟩, ?_⟩⟩
  · rintro s n k opn x b hs q - - - h rfl rfl rfl ht
    refine ⟨?_, fun hst hx => putLanded_leaves hs h hst ht hx, fun off hst hsk hop hp => orderSkip_lands hs h hst hsk ht hop hp⟩
    rintro t0 data hst hf hd hop rfl
    exact ⟨putCheck_fails hs h hst hf hd ht, fun off hc hn _ hp hl => putCheck_lands hs h hst hf hd ht hop hc hn hp hl,
      putCheck_holds hs h hst hf hd ht⟩
  · rw [commit_rdN, rdN_cntBy]
    rfl
  · rw [commit_stg false]
    exact hs.2
  · rintro n k opn data g off hg rfl rfl rfl hp hb hu hd hq
    exact getReadDone_queues hs q hg hb hp hu hd hq

end Sys2Proof.Machine
end

section
/-! SUPPORT. Access tags, and the answers that end or hold an access (R239–R241, R260). -/
namespace Sys2Proof.Machine

section
variable {n k opn rid off : Nat} {g u : Tag} {r : Run} {c : Cell} {s t : State}

/-! ### Tags -/

theorem tagOf_congr (h : t.tags = s.tags) (k opn : Nat) : tagOf t k opn = tagOf s k opn := by rw [tagOf, h, tagOf]

theorem tagOf_key (h : tagOf s k opn = some g) : g.stream = k ∧ g.opn = opn := by
  have := List.find?_some h
  rwa [Bool.and_eq_true, beq_iff_eq, beq_iff_eq] at this

theorem tagOf_dropTag : tagOf (dropTag g s) g.stream g.opn = none := by
  refine List.find?_eq_none.mpr fun u hu => ?_
  have := (List.mem_filter.mp hu).2
  rwa [Bool.not_eq_true', ← Bool.not_eq_true] at this

theorem tagOf_putTag (h : tagOf s g.stream g.opn = some g) (hk : u.stream = g.stream) (ho : u.opn = g.opn) :
    tagOf (putTag u s) g.stream g.opn = some u := by
  unfold tagOf putTag at *
  dsimp only at *
  rw [hk, ho]
  revert h
  induction s.tags with
  | nil => intro h; cases h
  | cons v l ih =>
    intro h
    rw [List.map_cons]
    by_cases hv : v.stream = g.stream ∧ v.opn = g.opn
    · rw [if_pos hv]
      exact List.find?_cons_of_pos (by rw [hk, ho, beq_self_eq_true, beq_self_eq_true]; rfl)
    · have hn : (v.stream == g.stream && v.opn == g.opn) = false := by
        rw [Bool.and_eq_false_iff, beq_eq_false_iff_ne, beq_eq_false_iff_ne]
        exact Classical.not_and_iff_not_or_not.mp hv
      rw [if_neg hv, List.find?_cons_of_neg (by rw [hn]; exact Bool.false_ne_true)]
      exact ih (by rwa [List.find?_cons_of_neg (by rw [hn]; exact Bool.false_ne_true)] at h)

/-! ### Runs -/

theorem endStable_tags : EndStable State.tags := by
  repeat' first | exact switchStable_tags.markStable | constructor
  all_goals intros; rfl

theorem EndStable.accessDone {α : Type} {g : State → α} (h : EndStable g) (k rid : Nat) (s : State) : g (accessDone k rid s) = g s := by
  rw [Machine.accessDone, h.settleRun, h.modRun]

theorem CaptureStable.capCopied {α : Type} {g : State → α} (h : CaptureStable g) (i : Nat) (e : Option Nat) (s : State) :
    g (capCopied i e s) = g s := by
  unfold Machine.capCopied
  rw [h.capDrop]
  split
  · split
    · exact h.storeWrite _ _ _
    · rfl
    · exact h.modCap _ _ _
  · rfl

/-- An access that is done leaves its tag. -/
theorem tagOf_tagComplete_done (g : Tag) (s : State) : tagOf (tagComplete g 0 s) g.stream g.opn = none := by
  rw [← tagOf_dropTag (g := g) (s := s)]
  refine tagOf_congr ?_ _ _
  unfold tagComplete
  dsimp only
  split
  · rw [if_pos rfl, endStable_tags.capCopied]
  · rw [if_pos rfl, endStable_tags.accessDone]

/-- A BOARD-kind RECV that has accesses left goes on. -/
theorem settleRun_recv_open (h : runOf s k rid = some r) (hop : r.op = 2) (hk : r.kind = 4) (hc : r.completed < r.rc.length) :
    settleRun k rid s = s := by
  unfold settleRun
  rw [h]
  dsimp only
  rw [hop, hk]
  rw [if_pos rfl, decide_eq_false (p := r.rc.length ≤ r.completed) (by omega), Bool.false_and]
  exact if_neg Bool.false_ne_true

/-! ### What an answer does -/

/-- The answer is the one the access waits for. -/
def Answers (n : Nat) (c : Cell) (g : Tag) (s : State) : Prop :=
  n = g.port ∧ wSrc c = g.dest ∧ fieldBE c.payload 12 1 % 16 = rfld s (R.prtPeer n) 16 13

/-- The status byte of an answer. -/
def answerStatus (c : Cell) : Nat := fieldBE c.payload 0 1

/-- The access's own stream, marked where the answer is injected. -/
def answerMark (c : Cell) (g : Tag) (s : State) : State := markInj g.stream ((c.payload.getD 1 0).toNat.testBit 1) s

theorem answerMark_tags : (answerMark c g s).tags = s.tags := accessStable_tags.markInj _ _ _

theorem answerMark_t : (answerMark c g s).t = s.t := by
  unfold answerMark markInj
  split <;> rfl

theorem answerMark_stg : (answerMark c g s).stg = s.stg := by
  unfold answerMark markInj
  split <;> rfl

theorem answerMark_writes : (answerMark c g s).writes = s.writes := by
  unfold answerMark markInj
  split <;> rfl

theorem rspTail_stale (h : tagOf s (wStream c) (osOpn c) = none) : rspTail n c s = staleRsp s := by
  unfold rspTail
  rw [h]

theorem rspData_stale (h : tagOf s (wStream c) (osOpn c) = none) : rspData n c s = staleRsp s := by
  unfold rspData
  rw [h]

theorem rspTail_done (h : tagOf s (wStream c) (osOpn c) = some g) (ha : Answers n c g s) (h0 : answerStatus c = 0)
    (hk : g.kind ≠ .get) : rspTail n c s = tagComplete g 0 (answerMark c g s) := by
  obtain ⟨hn, hsrc, hpeer⟩ := ha
  unfold answerStatus at h0
  unfold rspTail
  rw [h]
  dsimp only
  rw [h0]
  rw [if_neg (by omega), if_neg hk]
  rfl

theorem rspTail_busy (h : tagOf s (wStream c) (osOpn c) = some g) (ha : Answers n c g s) (h5 : answerStatus c = 5) :
    rspTail n c s = putTag { g with busyAt := some (now (answerMark c g s)) } (answerMark c g s) := by
  obtain ⟨hn, hsrc, hpeer⟩ := ha
  unfold answerStatus at h5
  unfold rspTail
  rw [h]
  dsimp only
  rw [h5]
  rw [if_neg (by omega)]
  rfl

/-- The data a GET has received. -/
def gotData (g : Tag) : List (List Byte) := (List.range (g.len / 64)).map (fun i => tget [] i g.rx)

/-- The state in which a GET's data is in its place. -/
def gotFilled (c : Cell) (g : Tag) (s : State) : State := getFill g (gotData g).flatten (answerMark c g s)

theorem rspTail_got (h : tagOf s (wStream c) (osOpn c) = some g) (ha : Answers n c g s) (h0 : answerStatus c = 0)
    (hk : g.kind = .get) (hall : (gotData g).all (fun x => x.length == 64) = true)
    (hcrc : crc32c (gotData g).flatten = fieldBE c.payload 4 4) (hr : runOf (gotFilled c g s) g.stream g.rid = some r) :
    rspTail n c s = tagComplete g 0 (boardOut g.stream r g.loc (gotData g).flatten (gotFilled c g s)) := by
  obtain ⟨hn, hsrc, hpeer⟩ := ha
  unfold answerStatus at h0
  unfold gotFilled gotData answerMark at *
  unfold rspTail
  generalize @crc32c = crc at *
  generalize @getFill = fill at *
  rw [h]
  dsimp only
  rw [h0]
  rw [if_neg (by omega), if_pos hk, if_pos ⟨hcrc, hall⟩, hr]
  rfl

theorem rspData_kept (h : tagOf s (wStream c) (osOpn c) = some g) (ha : Answers n c g s) (hk : g.kind = .get)
    (hl : 64 * wIndex c < g.len) (hp : placeOf s (offOf g.loc) g.len = .store off) :
    rspData n c s = getBlur g (rawWrite (g.loc + 64 * wIndex c) c.payload (.step g.stream g.rid g.step)
      (putTag { g with rx := tset (wIndex c) c.payload g.rx } s)) := by
  obtain ⟨hn, hsrc, hpeer⟩ := ha
  unfold rspData
  rw [h]
  dsimp only
  rw [if_neg (by simp [hn, hsrc, hk]; omega), if_neg (by rw [hp]; simp)]

/-! The function is unfolded by itself, not where it is applied: the kernel would evaluate the place. -/

theorem rawWrite_store {a : Nat} {l : List Byte} {w : Owner} (h : placeOf s (offOf a) l.length = .store off) :
    rawWrite a l w s = storeWrite off l s := by
  generalize hf : rawWrite = f
  delta rawWrite at hf
  rw [← hf]
  generalize @placeOf = place at h ⊢
  simp only [h]

theorem getBlur_store (h : placeOf s (offOf g.loc) g.len = .store off) :
    getBlur g s = stgWrite off (freeBytes g.len s).1 (freeBytes g.len s).2 := by
  generalize hf : getBlur = f
  delta getBlur at hf
  rw [← hf]
  generalize @placeOf = place at h ⊢
  simp only [h]

theorem getFill_store {l : List Byte} (h : placeOf s (offOf g.loc) g.len = .store off) : getFill g l s = storeWrite off l s := by
  generalize hf : getFill = f
  delta getFill at hf
  rw [← hf]
  generalize @placeOf = place at h ⊢
  simp only [h]

theorem runOf_congr (h : t.streams = s.streams) (k rid : Nat) : runOf t k rid = runOf s k rid := by
  rw [runOf, str_congr h, runOf]

theorem runOf_markInj (m : Nat) (inj : Bool) : runOf (markInj m inj s) k rid = runOf s k rid := by
  unfold markInj runOf
  split
  · rw [str_modStr_field (h := Stream.runs) (by intro x; rfl)]
  · rfl

theorem runOf_key (h : runOf s k rid = some r) : r.rid = rid := by
  have := List.find?_some h
  rwa [beq_iff_eq] at this

theorem runOf_modRun {f : Run → Run} (hf : ∀ q, (f q).rid = q.rid) (h : runOf s k rid = some r) :
    runOf (modRun k rid f s) k rid = some (f r) := by
  have hk := runOf_key h
  unfold runOf modRun at *
  rw [str_modStr_self]
  dsimp only
  rw [List.find?_map]
  have hp : ((fun q : Run => q.rid == rid) ∘ fun q => if q.rid = rid then f q else q) = fun q => q.rid == rid := by
    funext q
    by_cases e : q.rid = rid <;> simp [e, hf]
  rw [hp, h]
  exact congrArg some (if_pos hk)

end

section
variable {n k opn off : Nat} {g : Tag} {r : Run} {c : Cell} {b : List Byte} {s s1 : State}

/-- An answer to no access (R260). -/
theorem stale_clause (hs : s.Ready) (hd : deliveredCell n b s = some (s1, c)) (hc : c = parseCell b) (hm : wMcast c = false)
    (h6 : wType c = 6) (h : tagOf s1 (wStream c) (osOpn c) = none) :
    ∃ t, exec (if osTail c then .getRsp n b else .getRspData n b) s = .next t ∧ t.tags = s1.tags ∧ t.streams = s1.streams
      ∧ rdN t R.memStaleRspCount = min (rdN s1 R.memStaleRspCount + 1) 0xFFFFFFFF ∧ rbit t R.memEvents 3 = true := by
  refine ⟨commit false s (staleRsp s1), ?_, rfl, rfl, ?_, ?_⟩
  · cases ht : osTail c
    · rw [if_neg Bool.false_ne_true, ← rspData_stale (n := n) h]
      exact hs.run_takeCell hd hc (by rw [h6, ht]; rfl) hm
    · rw [if_pos rfl, ← rspTail_stale (n := n) h]
      exact hs.run_takeCell hd hc (by rw [h6, ht]; rfl) hm
  · rw [commit_rdN, staleRsp, rdN_ev_ne (by decide), cnt, rdN_cntBy]
  · rw [commit_rbit, staleRsp, rbit_ev _ _ _ (by decide)]

theorem exec_getRsp (hs : s.Ready) (hd : deliveredCell n b s = some (s1, c)) (hc : c = parseCell b) (hm : wMcast c = false)
    (h6 : wType c = 6) (ht : osTail c = true) : exec (.getRsp n b) s = .next (commit false s (rspTail n c s1)) :=
  hs.run_takeCell hd hc (by rw [h6, ht]; rfl) hm

/-- A data cell of a GET opens its destination, and nothing else (R241). -/
theorem getData_clause (hs : s.Ready) (hd : deliveredCell n b s = some (s1, c)) (hc : c = parseCell b) (hm : wMcast c = false)
    (h6 : wType c = 6) (h : tagOf s1 (wStream c) (osOpn c) = some g) (ha : Answers n c g s1) (ht : osTail c = false)
    (hk : g.kind = .get) (hl : 64 * wIndex c + 64 ≤ g.len) (hp : placeOf s1 (offOf g.loc) g.len = .store off)
    (hp64 : placeOf s1 (offOf (g.loc + 64 * wIndex c)) 64 = .store (off + 64 * wIndex c)) (h64 : c.payload.length = 64) :
    ∃ t, exec (.getRspData n b) s = .next t ∧ tagOf t (wStream c) (osOpn c) = some { g with rx := tset (wIndex c) c.payload g.rx }
      ∧ ∀ a, a < off ∨ off + g.len ≤ a → stgGet t a = stgGet s a := by
  obtain ⟨rfl', hopn⟩ := tagOf_key h
  obtain ⟨u, hu⟩ : ∃ u, putTag { g with rx := tset (wIndex c) c.payload g.rx } s1 = u := ⟨_, rfl⟩
  have htag : tagOf u (wStream c) (osOpn c) = some { g with rx := tset (wIndex c) c.payload g.rx } := by
    rw [← hu, ← rfl', ← hopn]
    exact tagOf_putTag (by rw [rfl', hopn]; exact h) rfl rfl
  have hwr : u.writes = s.writes := by rw [← hu]; exact (switchStable_writes.delivered hd :)
  have hstg : u.stg = s.stg := by rw [← hu]; exact (switchStable_stg.delivered hd :)
  have hregs : u.regs = s1.regs := by rw [← hu]; rfl
  have hdata : rspData n c s1 = stgWrite off (freeBytes g.len (storeWrite (off + 64 * wIndex c) c.payload u)).1
      (freeBytes g.len (storeWrite (off + 64 * wIndex c) c.payload u)).2 := by
    rw [rspData_kept h ha hk (by omega) hp, hu, rawWrite_store (off := off + 64 * wIndex c) (by
      rw [h64, placeOf_congr (rd_congr hregs _)]; exact hp64)]
    exact getBlur_store ((placeOf_congr (rd_congr hregs _) _ _).trans hp)
  have hlen : (freeBytes g.len (storeWrite (off + 64 * wIndex c) c.payload u)).1.length = g.len := by
    unfold freeBytes
    rw [List.length_map, List.length_range]
  refine ⟨_, hs.run_takeCell hd hc (by rw [h6, ht]; rfl) hm, ?_, fun a hout => ?_⟩
  · rw [tagOf_congr (commit_tags _ _ _), hdata]
    exact htag
  · rw [hdata, stgGet_commit false (by exact hstg), stgGet_stgWrite, if_neg (by rw [hlen]; omega)]
    refine (stgGet_congr (s := storeWrite (off + 64 * wIndex c) c.payload u) rfl rfl a).trans ?_
    rw [stgGet_storeWrite_out (by rw [h64]; omega)]
    exact stgGet_congr hstg hwr a

/-- The step of an access that is done goes on where it has more. -/
theorem tagComplete_goes_on (hcopy : g.copy = none) (hr : runOf s g.stream g.rid = some r) (hop : r.op = 2) (hk : r.kind = 4)
    (hc : r.completed + 1 < r.rc.length) :
    tagComplete g 0 s = modRun g.stream g.rid (fun r => { r with completed := r.completed + 1 }) (dropTag g s) := by
  unfold tagComplete
  dsimp only
  rw [hcopy]
  rw [if_pos rfl]
  have hr' := runOf_modRun (f := fun r => { r with completed := r.completed + 1 }) (fun _ => rfl)
    ((runOf_congr (t := dropTag g s) rfl g.stream g.rid).trans hr)
  exact settleRun_recv_open hr' hop hk hc

/-- A GET that is done holds the data received (R241). -/
theorem getDone_clause (hs : s.Ready) (hd : deliveredCell n b s = some (s1, c)) (hc : c = parseCell b) (hm : wMcast c = false)
    (h6 : wType c = 6) (h : tagOf s1 (wStream c) (osOpn c) = some g) (ha : Answers n c g s1) (ht : osTail c = true)
    (h0 : answerStatus c = 0) (hk : g.kind = .get) (hcopy : g.copy = none) (hall : (gotData g).all (fun x => x.length == 64) = true)
    (hcrc : crc32c (gotData g).flatten = fieldBE c.payload 4 4) (hp : placeOf s1 (offOf g.loc) g.len = .store off)
    (hr : runOf s1 g.stream g.rid = some r) (hop : r.op = 2) (hkind : r.kind = 4) (hcap : r.cap = none)
    (hcomp : r.completed + 1 < r.rc.length) : ∃ t, exec (.getRsp n b) s = .next t ∧ tagOf t (wStream c) (osOpn c) = none
      ∧ (runOf t g.stream g.rid).map (fun q => q.completed) = some (r.completed + 1)
      ∧ (∀ i, i < (gotData g).flatten.length → stgGet t (off + i) = (gotData g).flatten.getD i 0)
      ∧ ∀ a, a < off ∨ off + (gotData g).flatten.length ≤ a → stgGet t a = stgGet s a := by
  obtain ⟨u, hu⟩ : ∃ u, answerMark c g s1 = u := ⟨_, rfl⟩
  have hru : runOf u g.stream g.rid = some r := by rw [← hu, answerMark, runOf_markInj, hr]
  have hfill : gotFilled c g s1 = storeWrite off (gotData g).flatten u := by
    rw [gotFilled, hu]
    exact getFill_store ((placeOf_congr (rd_congr (by rw [← hu]; exact markInj_regs _ _) R.memStageBase) _ _).trans hp)
  have hrf : runOf (storeWrite off (gotData g).flatten u) g.stream g.rid = some r := hru
  have hout : boardOut g.stream r g.loc (gotData g).flatten (storeWrite off (gotData g).flatten u) = storeWrite off (gotData g).flatten u := by
    unfold boardOut
    rw [if_pos hop, hcap]
    rfl
  have hrsp := rspTail_got h ha h0 hk hall hcrc (by rw [hfill]; exact hrf)
  rw [hfill, hout, tagComplete_goes_on hcopy hrf hop hkind hcomp] at hrsp
  have hstg : u.stg = s.stg := by rw [← hu, answerMark_stg, switchStable_stg.delivered hd]
  have hwr : u.writes = s.writes := by rw [← hu, answerMark_writes, switchStable_writes.delivered hd]
  have hget (a : Nat) : stgGet (commit false s (rspTail n c s1)) a = stgGet (storeWrite off (gotData g).flatten u) a := by
    rw [hrsp, stgGet_commit false (by exact hstg)]
    exact stgGet_congr rfl rfl a
  refine ⟨_, exec_getRsp hs hd hc hm h6 ht, ?_, ?_, fun i hi => ?_, fun a hout => ?_⟩
  · rw [tagOf_congr (commit_tags _ _ _), hrsp, ← (tagOf_key h).1, ← (tagOf_key h).2]
    exact tagOf_dropTag (g := g) (s := storeWrite off (gotData g).flatten u)
  · rw [runOf, commit_str, hrsp]
    exact congrArg (Option.map Run.completed) (runOf_modRun (f := fun r => { r with completed := r.completed + 1 }) (fun _ => rfl)
      (s := dropTag g (storeWrite off (gotData g).flatten u)) hrf)
  · rw [hget, stgGet_storeWrite_in hi]
  · rw [hget, stgGet_storeWrite_out hout, stgGet_congr hstg hwr]

end

/-- Settles O34. -/
theorem responses : Obligations.Responses := by
  intro s s1 n b c hs hd hc hm h6
  refine ⟨stale_clause hs hd hc hm h6, fun g h hn hsrc hpeer => ⟨fun ht h0 hk => ?_, fun ht h5 => ?_,
    fun off ht hk hl hp hp64 h64 => getData_clause hs hd hc hm h6 h ⟨hn, hsrc, hpeer⟩ ht hk hl hp hp64 h64, ?_⟩⟩
  · refine ⟨_, exec_getRsp hs hd hc hm h6 ht, ?_⟩
    rw [tagOf_congr (commit_tags _ _ _), rspTail_done h ⟨hn, hsrc, hpeer⟩ h0 hk, ← (tagOf_key h).1, ← (tagOf_key h).2]
    exact tagOf_tagComplete_done g _
  · refine ⟨_, exec_getRsp hs hd hc hm h6 ht, ?_⟩
    obtain ⟨hst, hopn⟩ := tagOf_key h
    rw [tagOf_congr (commit_tags _ _ _), rspTail_busy h ⟨hn, hsrc, hpeer⟩ h5, ← hst, ← hopn, now_congr (s := s1) ?_]
    · refine tagOf_putTag ?_ rfl rfl
      rw [tagOf_congr answerMark_tags, hst, hopn, h]
    · exact answerMark_t
  · rintro off r got ht h0 hk hcopy rfl hall hcrc hp hr hop hkind hcap hcomp
    exact getDone_clause hs hd hc hm h6 h ⟨hn, hsrc, hpeer⟩ ht h0 hk hcopy hall hcrc hp hr hop hkind hcap hcomp

end Sys2Proof.Machine
end

section
/-! SUPPORT. Accesses take tags and are issued again (R237–R239). -/
namespace Sys2Proof.Machine

theorem windowCheck_quiet {x : Option Nat} {ws : List Win} {n a len o c : Nat} {k : WKind} {b : Bool} {s : State} (q : s.Quiet)
    (h : windowOk ws a len k b = true) : windowCheck x ws n a len k b o c s = (s, true) := by
  unfold windowCheck windowCheckAt
  rw [if_pos h, awlFire_quiet q]
  exact if_neg Bool.false_ne_true

theorem markWait_kept (w : WaitMark) (s : State) : (markWait w s).tags = s.tags ∧ (markWait w s).streams = s.streams
    ∧ (markWait w s).regs = s.regs ∧ w ∈ (markWait w s).waits := by
  unfold markWait
  split
  · rename_i h
    exact ⟨rfl, rfl, rfl, List.contains_iff_mem.mp h⟩
  · exact ⟨rfl, rfl, rfl, List.mem_append_right _ (List.mem_singleton_self w)⟩

theorem casesOn_none {α β : Type} {o : Option α} {a : β} {f : α → β} (h : o = none) :
    Option.casesOn (motive := fun _ => β) o a f = a := by
  cases h
  rfl

section
variable {n k opn rid off loc a p : Nat} {g u : Tag} {r : Run} {s t : State} {data : List Byte}

/-- The tag of a GET that a BOARD-kind RECV issues. -/
def recvTag (s : State) (k : Nat) (r : Run) (loc a p : Nat) : Tag :=
  { stream := k, opn := 0, kind := .get, step := r.idx, rid := r.rid, slot := r.slot, port := p
    dest := peerId s p, addr := a, len := 4096, loc := loc, part := (str s k).part, op := 0, operand := 0 }

set_option smartUnfolding false in
/-- A BOARD-kind RECV issues its next access, or waits for a tag. -/
theorem accessNext_recv (hr : runOf s k r.rid = some r) (ha : acting s r = true) (hi : isolated s k = false) (hop : r.op = 2)
    (hk : r.kind = 4) (hd : r.done < r.rc.length) (hloc : loc = outAddr s k r (r.rc.outOff + r.bias + r.done)) (haddr : a = withSlot loc r.slot)
    (hb : badShape false a 4096 = false) (hsl : slotOf loc = ownSlot s) (hrs : r.slot ≠ ownSlot s)
    (hp : p = 4 + (r.slot + 15 - ownSlot s) % 16) (hl : localTest (some k) r.win (str s k).part loc 4096 .write s = (s, none))
    (hw : windowCheck (some k) r.win (str s k).part a 4096 .read false r.peerId 0 s = (s, true)) (hu : usable s false p = true) :
    accessNext k r.rid data s = if !tagRoom s k r.slot .get then markWait (.tag k r.rid r.done r.slot .get) s
      else settleRun k r.rid (modRun k r.rid (fun r => { r with done := r.done + 1 }) (takeTag (recvTag s k r loc a p) s)) := by
  have hsig : (r.op == 14) = false := by rw [hop]; rfl
  have h1 : ¬ r.op = 1 := by omega
  generalize hf : accessNext = f
  delta accessNext at hf
  rw [← hf]
  refine (casesOn_some hr).trans ?_
  refine (if_pos ?_).trans ?_
  · rw [ha, hi, hk, hop]
    simpa using hd
  refine (if_neg ?_).trans ?_
  · rintro ⟨h, -⟩
    exact h.elim h1 (fun h => hrs h.2)
  refine (if_neg ?_).trans ?_
  · rw [hsig, hop]
    simp [hrs]
  have hloc' : (if (r.op == 14) = true then bufOf s k r.rc.inSel + r.rc.inOff else if r.op = 1 then inAddr s k r r.done
      else outAddr s k r (r.rc.outOff + r.bias + r.done)) = loc := by
    rw [if_neg (by rw [hsig]; exact Bool.false_ne_true), if_neg h1, hloc]
  have hlen : (if (r.op == 14) = true then 4 else 4096) = 4096 := if_neg (by rw [hsig]; exact Bool.false_ne_true)
  have hkind : (if (r.op == 14) = true then AccKind.atomic else if r.op = 1 then AccKind.put else AccKind.get) = .get := by
    rw [if_neg (by rw [hsig]; exact Bool.false_ne_true), if_neg h1]
  refine (if_neg ?_).trans ?_
  · rw [hloc', hlen, ← haddr, hsig, hb, hsl]
    simp
  refine (if_neg hrs).trans ?_
  have hl' : (if (r.op == 14) = true then (s, none) else localTest (some k) r.win (str s k).part loc 4096 (if r.op = 1 then .read else .write) s)
      = (s, none) := by
    rw [if_neg (by rw [hsig]; exact Bool.false_ne_true), if_neg h1, hl]
  refine (casesOn_none ?_).trans ?_
  · rw [hloc', hlen, hl']
  rw [hloc', hlen, hl', hkind, ← haddr]
  have hwin : windowCheck (some k) r.win (str s k).part a 4096 (if (r.op == 14) = true then .atomic else if r.op = 1 then .write else .read)
      false r.peerId 0 s = (s, true) := by
    rw [if_neg (by rw [hsig]; exact Bool.false_ne_true), if_neg h1, hw]
  refine (if_neg ?_).trans ?_
  · rw [hwin]
    exact Bool.false_ne_true
  refine (if_neg ?_).trans ?_
  · rw [hwin, ← hp, hu]
    exact Bool.false_ne_true
  rw [hwin, ← hp]
  by_cases ht : (!tagRoom s k r.slot .get) = true
  · exact (if_pos ht).trans (if_pos ht).symm
  · refine (if_neg ht).trans ((if_neg h1).trans ?_)
    rw [if_neg ht, hsig]
    rfl

theorem rd_injectPort_ne {b : Nat} (hk : keptReg b = true) (h1 : b ≠ R.prtEvents n) (h2 : b ≠ R.prtResumeCount n) (m : Nat) (c : Cell) :
    rd (injectPort m n c s).1 b = rd s b := by
  unfold injectPort
  split
  · rfl
  · split
    · unfold injectAt
      split
      · exact rd_enqueue_ne h1 h2 _ _ s
      · rfl
    · exact (injectStable_rd hk).noRoute _ _ s

theorem rd_sendRequest_retry {b : Nat} (hk : keptReg b = true) (h1 : b ≠ R.prtEvents g.port) (h2 : b ≠ R.prtResumeCount g.port) :
    rd (sendRequest g true s) b = rd s b := by
  unfold sendRequest
  rw [if_neg (by simp)]
  dsimp only
  rw [rd_injectPort_ne hk h1 h2]
  split
  · rw [forEach_field (fun t => rd t b) _ _ (fun _ _ t => rd_injectPort_ne hk h1 h2 _ _)]
    exact rd_congr (markInj_regs _ _) b
  · exact rd_congr (markInj_regs _ _) b

theorem sendRequest_tags (g : Tag) (retry : Bool) (s : State) : (sendRequest g retry s).tags = s.tags := by
  unfold sendRequest
  dsimp only
  rw [switchStable_tags.injectPort]
  split
  · rw [forEach_field State.tags _ _ (fun _ _ t => switchStable_tags.injectPort _ _ _ t), accessStable_tags.markInj]
    split
    · exact switchStable_tags.awlFire _ _ _ _ _
    · rfl
  · rw [accessStable_tags.markInj]
    split
    · exact switchStable_tags.awlFire _ _ _ _ _
    · rfl

theorem takeTag_tags_length (g : Tag) (s : State) : (takeTag g s).tags.length = s.tags.length + 1 := by
  unfold takeTag
  dsimp only
  rw [sendRequest_tags]
  exact List.length_append

/-! ### The clauses -/

theorem tagOf_none_sublist (h : tagOf s k opn = none) (hl : t.tags.Sublist s.tags) : tagOf t k opn = none := by
  unfold tagOf at *
  exact List.find?_eq_none.mpr fun g hg => List.find?_eq_none.mp h g (hl.subset hg)

theorem stopStream_tags_sublist (k st : Nat) (s : State) : (stopStream k st s).tags.Sublist s.tags := by
  have hd : (dropAsms k (forEach (str s k).runs (fun r s => capEnd r.cap st (str s k).inj s) s)).tags = s.tags :=
    (forEach_field State.tags _ _ (fun _ _ t => endStable_tags.capEnd _ _ _ t) s : _)
  rw [stopStream_eq, accessStable_tags.modStr]
  refine ((congrArg (List.Sublist · s.tags) (accessStable_tags.closeOwned k (streamsEmptied k st s))).mpr ?_)
  unfold streamsEmptied
  dsimp only
  rw [hd]
  exact List.filter_sublist

theorem faultStream_tags_sublist (k i st : Nat) (s : State) : (faultStream k i st s).tags.Sublist s.tags := by
  unfold faultStream
  dsimp only
  split
  · exact List.Sublist.refl _
  · exact List.Sublist.refl _
  · exact List.Sublist.refl _
  · split
    · exact List.Sublist.refl _
    · rw [accessStable_tags.complete, accessStable_tags.modPar, accessStable_tags.modStr]
      exact stopStream_tags_sublist k st _

theorem capLost_tags (i : Nat) (s : State) : (capLost i s).tags = s.tags := by
  unfold capLost
  dsimp only
  rw [endStable_tags.capDrop]
  split
  · split
    · rw [endStable_tags.unitWrite, endStable_tags.ev, endStable_tags.modCap]
    · rw [endStable_tags.ev, endStable_tags.modCap]
  · rw [endStable_tags.ev, endStable_tags.modCap]

/-- An access that is over leaves its tag, whatever its status. -/
theorem tagComplete_forgets (g : Tag) (status : Nat) (s : State) : tagOf (tagComplete g status s) g.stream g.opn = none := by
  refine tagOf_none_sublist (tagOf_dropTag (g := g) (s := s)) ?_
  unfold tagComplete
  dsimp only
  split
  · split
    · rw [endStable_tags.capCopied]
    · rw [capLost_tags]
  · split
    · rw [endStable_tags.accessDone]
    · exact faultStream_tags_sublist _ _ _ _

theorem memRetry_ne (n : Nat) : R.memRetryCount ≠ R.prtEvents n ∧ R.memRetryCount ≠ R.prtResumeCount n := by
  unfold R.memRetryCount R.prtEvents R.prtResumeCount
  omega

/-- An access that is not answered in time is issued again (R239). -/
theorem retry_clause (hs : s.Ready) (h : tagOf s k opn = some g) (ht : tagTimer s g = true) (ho : tagOver s g = false)
    (h3 : g.retries < 3) : ∃ t, exec (.accessRetxTimeout k opn) s = .next t
      ∧ (tagOf t k opn).map (fun u => u.retries) = some (g.retries + 1)
      ∧ rdN t R.memRetryCount = min (rdN s R.memRetryCount + 1) 0xFFFFFFFF := by
  obtain ⟨rfl, rfl⟩ := tagOf_key h
  refine ⟨_, hs.run _, ?_, ?_⟩
  · rw [tagOf_congr (commit_tags _ _ _), h]
    dsimp only
    rw [ht, ho, decide_eq_true h3, if_pos (by rfl), retryTag, if_neg (by omega), tagOf_congr (sendRequest_tags _ _ _),
      tagOf_congr (switchStable_tags.markStable.cnt _ _)]
    exact congrArg (Option.map Tag.retries)
      (tagOf_putTag (u := { g with retries := g.retries + 1, due := none, busyAt := none, rx := [] }) h rfl rfl)
  · rw [commit_rdN, h]
    dsimp only
    rw [ht, ho, decide_eq_true h3, if_pos (by rfl), retryTag, if_neg (by omega), rdN_eq_toNat_rd,
      rd_sendRequest_retry (by decide) (memRetry_ne _).1 (memRetry_ne _).2, ← rdN_eq_toNat_rd, cnt, rdN_cntBy]
    rfl

/-- An access answered BUSY is issued again, which is no retry (R239). -/
theorem reissue_clause {at_ : Nat} (hs : s.Ready) (h : tagOf s k opn = some g) (hb : g.busyAt = some at_) (ha : at_ + 2048 ≤ now s)
    (ho : tagOver s g = false) : ∃ t, exec (.busyReissue k opn) s = .next t ∧ rdN t R.memRetryCount = rdN s R.memRetryCount
      ∧ tagOf t k opn = some { g with due := none, busyAt := none, rx := [] } := by
  obtain ⟨rfl, rfl⟩ := tagOf_key h
  refine ⟨_, hs.run _, ?_, ?_⟩
  · rw [commit_rdN, h]
    dsimp only
    rw [hb]
    dsimp only
    rw [if_pos ⟨ha, by rw [ho]; rfl⟩, reissueTag, rdN_eq_toNat_rd,
      rd_sendRequest_retry (by decide) (memRetry_ne _).1 (memRetry_ne _).2]
    rfl
  · rw [tagOf_congr (commit_tags _ _ _), h]
    dsimp only
    rw [hb]
    dsimp only
    rw [if_pos ⟨ha, by rw [ho]; rfl⟩, reissueTag, tagOf_congr (sendRequest_tags _ _ _)]
    exact tagOf_putTag h rfl rfl

end

/-- Settles O35. -/
theorem accessTags : Obligations.AccessTags := by
  intro s k hs q _
  refine ⟨?_, fun opn g h => ⟨fun ht ho h3 => retry_clause hs h ht ho h3, fun at_ hb ha ho => reissue_clause hs h hb ha ho, fun ho => ?_⟩⟩
  · rintro idx r p loc a hat hr hact hi hop hk hd hloc haddr hb hsl hrs hp hl hw hu
    have hcheck := windowCheck_quiet (x := some k) (n := (str s k).part) (o := r.peerId) (c := 0) q hw
    have hnext := accessNext_recv (data := []) hr hact hi hop hk hd hloc haddr hb hsl hrs hp hl hcheck hu
    refine ⟨fun hroom => ⟨_, hs.run _, ?_⟩, fun hroom => ⟨_, hs.run _, ?_⟩⟩
    · rw [commit_tags, hat]
      dsimp only
      rw [hnext, hroom, if_neg (by decide), endStable_tags.settleRun]
      exact takeTag_tags_length _ s
    · rw [hat]
      dsimp only
      rw [hnext, hroom, if_pos (by rfl)]
      obtain ⟨h1, h2, h3, h4⟩ := markWait_kept (.tag k r.rid r.done r.slot .get) s
      exact ⟨h1, h2, (commit_regs _ _ _).trans h3, h4⟩
  · obtain ⟨rfl, rfl⟩ := tagOf_key h
    refine ⟨_, hs.run _, ?_⟩
    rw [tagOf_congr (commit_tags _ _ _), h]
    dsimp only
    rw [ho, if_pos (by rfl)]
    exact tagComplete_forgets g _ s

end Sys2Proof.Machine
end

section
/-! SUPPORT. Staging words in error, the ends of package writes, and the accelerator in the store (R254–R257). -/
namespace Sys2Proof.Machine

section
variable {id n p a off len w err i : Nat} {g : Txn} {s : State} {data : List Byte}

/-! ### Staging words in error (R254) -/

theorem stagingCorrected (hs : s.Ready) (hw : w < storeSize / 8) : ∃ t, exec (.stagingBankGrant w 1) s = .next t ∧ t.stgBad = s.stgBad
    ∧ t.stg = s.stg ∧ rdN t R.memEccCorrCount = min (rdN s R.memEccCorrCount + 1) 0xFFFFFFFF ∧ rbit t R.memEvents 5 = true := by
  have he : stgError w 1 s = ev R.memEvents 5 (cnt R.memEccCorrCount s) := by
    unfold stgError
    rw [if_neg (by omega), if_pos rfl]
  refine ⟨_, hs.run _, ?_, ?_, ?_, ?_⟩
  · rw [he]
    rfl
  · rw [he, commit_stg false]
    exact hs.2
  · rw [commit_rdN, he, rdN_ev_ne (by decide), cnt, rdN_cntBy]
  · rw [commit_rbit, he, rbit_ev _ _ _ (by decide)]

theorem stagingLost (hs : s.Ready) (hw : w < storeSize / 8) (he : 2 ≤ err) : ∃ t, exec (.stagingBankGrant w err) s = .next t
    ∧ w ∈ t.stgBad ∧ t.stg = s.stg ∧ t.regs = s.regs := by
  have hb : stgError w err s = { s with stgBad := s.stgBad.filter (· != w) ++ [w] } := by
    unfold stgError
    rw [if_neg (by omega), if_neg (by omega)]
  refine ⟨_, hs.run _, ?_, ?_, ?_⟩
  · rw [hb]
    exact List.mem_append_right _ (List.mem_singleton_self w)
  · rw [hb, commit_stg false]
    exact hs.2
  · rw [commit_regs, hb]

/-! ### Package transactions (R256) -/

theorem endStable_txns : EndStable State.txns := by
  repeat' first | exact switchStable_txns.markStable | constructor
  all_goals intros; rfl

theorem txn_key (h : s.txns.find? (fun u => u.id == id && u.sent) = some g) : g.id = id := by
  have := List.find?_some h
  rw [Bool.and_eq_true, beq_iff_eq] at this
  exact this.1

theorem txn_id (h : s.txns.find? (fun u => u.id == id) = some g) : g.id = id := by
  have := List.find?_some h
  rwa [beq_iff_eq] at this

/-- What a completion does to its stream leaves the list of transactions. -/
theorem completionDone_txns (m : Nat) (k : Option Nat) (sig : Option (Nat × Nat)) (s : State) :
    (completionDone true m k sig s).txns = s.txns := by
  obtain ⟨u, hu, h⟩ : ∃ u : State, u.txns = s.txns ∧ completionDone true m k sig s = completionDone true m none sig u := by
    cases k with
    | none => exact ⟨s, rfl, rfl⟩
    | some k =>
      by_cases hq : ((str s k).st == StrSt.quenching) = true
      · exact ⟨s, rfl, by unfold completionDone; dsimp only; rw [if_pos rfl, if_pos hq]⟩
      · exact ⟨toIdle k s, endStable_txns.modStr _ _ s, by unfold completionDone; dsimp only; rw [if_pos rfl, if_neg hq]; rfl⟩
  rw [h, ← hu]
  cases sig <;> rfl

/-- A write acknowledged leaves the list of transactions, and nothing else does. -/
theorem txnEnd_ok_txns (g : Txn) (s : State) : (txnEnd true g s).txns = s.txns.filter (fun u => u.id != g.id) := by
  unfold txnEnd txnOver
  dsimp only
  rw [Bool.true_or, if_pos rfl]
  split
  · rw [completionDone_txns]
  · rfl
  · rw [if_pos rfl, endStable_txns.settleRun]
  · rfl
  · split
    · rw [if_pos rfl, endStable_txns.shardSettle]
    · split
      · rfl
      · rw [endStable_txns.giveBlocks]
  · rfl

theorem txnBeat_acked (q : s.Quiet) (h : s.txns.find? (fun u => u.id == id && u.sent) = some g) :
    txnBeat id none s = txnEnd true g s := by
  unfold txnBeat
  rw [h]
  dsimp only
  rw [beatsIn_quiet q]

/-- What a failed beat of a package write leaves, before it is sent again. -/
def beatMissed (g : Txn) (i : Nat) (s : State) : State :=
  cnt R.memPkgRetryCount (beatFailed (beatPort s.pkgSet (64 * (g.addr / 64 + i))) false
    (match g.owner.stream with | some k => markInj k false s | none => s))

theorem beatMissed_eq (g : Txn) (i : Nat) (s : State) :
    beatMissed g i s = cnt R.memPkgRetryCount (beatFailed (beatPort s.pkgSet (64 * (g.addr / 64 + i))) false s) := by
  unfold beatMissed
  split <;> rfl

theorem txnBeat_failed (h : s.txns.find? (fun u => u.id == id && u.sent) = some g) (hr : g.resends < 3) :
    txnBeat id (some i) s = if activePkg (beatMissed g i s) == (beatMissed g i s).pkgSet then
        txnSend { g with resends := g.resends + 1, issued := now (beatMissed g i s) }
          (putTxn { g with resends := g.resends + 1, issued := now (beatMissed g i s) } (beatMissed g i s))
      else putTxn { g with resends := g.resends + 1, issued := now (beatMissed g i s), sent := false } (beatMissed g i s) := by
  unfold txnBeat
  rw [h]
  dsimp only
  rw [if_pos hr]
  rfl

theorem beatFailed_field {α : Type} {f : State → α} (hf : SwitchStable f) (m : Nat) (s : State) : f (beatFailed m false s) = f s := by
  unfold beatFailed
  dsimp only
  rw [if_neg Bool.false_ne_true, hf.raise _ (show 5 < 32 by decide), hf.cnt]

theorem beatMissed_field {α : Type} {f : State → α} (hf : SwitchStable f) (g : Txn) (i : Nat) (s : State) :
    f (beatMissed g i s) = f s := by
  rw [beatMissed_eq, hf.cnt, beatFailed_field hf]

theorem beatPort_lt (l : List Nat) (a : Nat) : beatPort l a < 4 := by
  unfold beatPort
  cases h : ((range 0 3).map (fun i => (a / 64 + i) % 4)).find? (l.contains ·) with
  | none => exact Nat.mod_lt _ (by decide)
  | some m =>
    obtain ⟨i, -, rfl⟩ := List.mem_map.mp (List.mem_of_find?_eq_some h)
    exact Nat.mod_lt _ (by decide)

theorem activePkg_congr {t : State} (h : t.ports = s.ports) : activePkg t = activePkg s := by
  unfold activePkg
  simp only [port_congr h]

theorem beatMissed_counts (g : Txn) (i : Nat) (s : State) :
    rdN (beatMissed g i s) R.memPkgRetryCount = min (rdN s R.memPkgRetryCount + 1) 0xFFFFFFFF
    ∧ rbit (beatMissed g i s) R.glbAlertStatus 5 = true := by
  have hl := beatPort_lt s.pkgSet (64 * (g.addr / 64 + i))
  rw [beatMissed_eq]
  generalize beatPort s.pkgSet (64 * (g.addr / 64 + i)) = m at hl
  have hb : beatFailed m false s = raise { i := 5, port := m } (cnt (R.prtFecUncorrCount m) s) := by
    unfold beatFailed
    dsimp only
    rw [if_neg Bool.false_ne_true]
  refine ⟨?_, ?_⟩
  · rw [cnt, rdN_cntBy, hb, rdN_raise_mk (by decide) (by decide), rdN_cnt_ne (by
      unfold R.memPkgRetryCount R.prtFecUncorrCount
      omega)]
  · rw [rbit_cnt_ne (by decide), hb]
    exact rbit_raise_alert_mk (by decide) _

theorem beatMissed_ports (g : Txn) (i : Nat) (s : State) : (beatMissed g i s).ports = s.ports := by
  rw [beatMissed_eq, cnt_ports, beatFailed]
  rw [if_neg Bool.false_ne_true, raise_ports _ (show 5 < 32 by decide), cnt_ports]

theorem beatMissed_out (g : Txn) (i : Nat) (s : State) : (beatMissed g i s).out = s.out := by
  rw [beatMissed_eq, cnt_out, beatFailed]
  rw [if_neg Bool.false_ne_true, raise_out _ (show 5 < 32 by decide), cnt_out]

theorem switchStable_pkgSet : SwitchStable State.pkgSet := by constructor <;> intros <;> rfl

/-- A package write with a failed beat is sent again, at once or when the beats with another set of ports have drained (R255, R256). -/
theorem resend_clause (hs : s.Ready) (h : s.txns.find? (fun u => u.id == id && u.sent) = some g) (hr : g.resends < 3) :
    ∃ t, exec (.pkgTransactionDone id (some i)) s = .next t
      ∧ rdN t R.memPkgRetryCount = min (rdN s R.memPkgRetryCount + 1) 0xFFFFFFFF ∧ rbit t R.glbAlertStatus 5 = true
      ∧ (activePkg s = s.pkgSet →
        t.txns = s.txns.map (fun u => if u.id = id then { g with resends := g.resends + 1, issued := now s } else u)
        ∧ t.out = s.out ++ [.pkgWrite g.id g.addr g.bytes (beatPorts (activePkg s) g.addr g.bytes.length)])
      ∧ (activePkg s ≠ s.pkgSet → t.out = s.out ∧ t.txns = s.txns.map (fun u => if u.id = id then
          { g with resends := g.resends + 1, issued := now s, sent := false } else u)) := by
  have hb := txnBeat_failed (i := i) h hr
  have hid := txn_key h
  obtain ⟨hcount, hbit⟩ := beatMissed_counts g i s
  have htx := beatMissed_field switchStable_txns g i s
  have hnow : now (beatMissed g i s) = now s := now_congr (beatMissed_field switchStable_t g i s)
  have hact := activePkg_congr (beatMissed_ports g i s)
  have hset := beatMissed_field switchStable_pkgSet g i s
  have hout := beatMissed_out g i s
  rw [hact, hset, hnow] at hb
  generalize beatMissed g i s = u at hb hcount hbit htx hact hout
  refine ⟨_, hs.run _, ?_, ?_, fun e => ⟨?_, ?_⟩, fun e => ⟨?_, ?_⟩⟩
  · rw [commit_rdN, hb]
    exact (ite_eq_or_eq _ _ _).elim (fun e => by rw [e]; exact hcount) (fun e => by rw [e]; exact hcount)
  · rw [commit_rbit, hb]
    exact (ite_eq_or_eq _ _ _).elim (fun e => by rw [e]; exact hbit) (fun e => by rw [e]; exact hbit)
  · rw [commit_txns, hb, if_pos (beq_iff_eq.mpr e), ← htx, ← hid]
    rfl
  · rw [commit_out, hb, if_pos (beq_iff_eq.mpr e), ← hact, ← hout]
    rfl
  · rw [commit_out, hb, if_neg (fun h => e (beq_iff_eq.mp h)), ← hout]
    rfl
  · rw [commit_txns, hb, if_neg (fun h => e (beq_iff_eq.mp h)), ← htx, ← hid]
    rfl

/-- A package write that fails at its timeout (R256). -/
theorem timeout_clause (hs : s.Ready) (h : s.txns.find? (fun u => u.id == id) = some g) (hsent : g.sent = true)
    (ho : g.owner = .signalWord n) (hn : n < 16) (ht : g.issued + pkgTimeout s ≤ now s) :
    ∃ t, exec (.pkgTimeout id) s = .next t ∧ t.txns = s.txns.filter (fun u => u.id != id) ∧ rbit t R.memEvents 7 = true
      ∧ rbit t (R.parEvents n) 3 = true := by
  have he : txnEnd false g s = ev (R.parEvents n) 3 (ev R.memEvents 7 { s with txns := s.txns.filter (fun u => u.id != g.id) }) := by
    unfold txnEnd txnOver
    rw [ho]
    rfl
  refine ⟨_, hs.run _, ?_, ?_, ?_⟩
  all_goals simp only [h]
  all_goals rw [if_pos ⟨hsent, ht⟩, he]
  · rw [commit_txns, ev_txns, ev_txns, txn_id h]
  · rw [commit_rbit, rbit_ev_other _ _ _ _ _ (by decide) (.inl (by unfold R.memEvents R.parEvents; omega)), rbit_ev _ _ _ (by decide)]
  · rw [commit_rbit, rbit_ev _ _ _ (by decide)]

/-! ### The accelerator in the store (R257) -/

/-- An access of the accelerator within its windows, whose words are whole. -/
theorem pkgStaging_write (q : s.Quiet) (hp : placeOf s (offOf a) data.length = .store off) (hsl : slotOf a = ownSlot s) (hd : data ≠ [])
    (hw : windowOk (winsOf s p) a data.length .write false = true) :
    pkgStaging p true a len data s = emit (.pkgRsp true []) (storeWrite off data s) := by
  have hc := windowCheck_quiet (x := none) (n := p) (o := 0x1FFF) (c := 2) q hw
  have h0 : ¬ (slotOf a ≠ ownSlot s ∨ data.length = 0) := by
    rintro (h | h)
    · exact h hsl
    · exact hd (List.length_eq_zero_iff.mp h)
  generalize hf : pkgStaging = f
  delta pkgStaging at hf
  rw [← hf]
  generalize @placeOf = place at hp ⊢
  beta_reduce
  extract_lets +onlyGivenNames m
  have hm : m = data.length := if_pos rfl
  clear_value m
  subst hm
  rw [hp]
  refine (if_neg h0).trans ((if_neg ?_).trans ((if_pos rfl).trans ?_))
  · rw [if_pos rfl, hc]
    exact Bool.false_ne_true
  · rw [if_pos rfl, hc]

theorem pkgStaging_read (q : s.Quiet) (hb : s.stgBad = []) (hp : placeOf s (offOf a) len = .store off) (hsl : slotOf a = ownSlot s)
    (hl : 0 < len) (hw : windowOk (winsOf s p) a len .read false = true) :
    pkgStaging p false a len data s = emit (.pkgRsp true (stgRead s off len)) s := by
  have hc := windowCheck_quiet (x := none) (n := p) (o := 0x1FFF) (c := 2) q hw
  have hr : storeRead none p off len s = (s, some (stgRead s off len)) := storeReadAt_quiet q hb _ _ _ _ _ _
  generalize hf : pkgStaging = f
  delta pkgStaging at hf
  rw [← hf]
  generalize @placeOf = place at hp ⊢
  beta_reduce
  extract_lets +onlyGivenNames m
  have hm : m = len := if_neg Bool.false_ne_true
  clear_value m
  subst hm
  rw [hp]
  refine (if_neg (by rintro (h | h); exacts [h hsl, absurd h hl.ne'])).trans ((if_neg ?_).trans ((if_neg Bool.false_ne_true).trans ?_))
  · rw [if_neg Bool.false_ne_true, hc]
    exact Bool.false_ne_true
  · rw [if_neg Bool.false_ne_true, hc, hr]

theorem windowFault_field {α : Type} {f : State → α} (h : MarkStable f) (inj : Bool) (p k n o c a : Nat) (s : State) :
    f (windowFault inj p k n o c a s) = f s := by
  unfold windowFault
  rw [h.raise _ (show 8 < 32 by decide), h.evI, h.cnt]

theorem windowFault_counts (p k n o c a : Nat) (s : State) :
    rdN (windowFault false p k n o c a s) R.memWindowFaultCount = min (rdN s R.memWindowFaultCount + 1) 0xFFFFFFFF
    ∧ rbit (windowFault false p k n o c a s) R.glbAlertStatus 8 = true := by
  unfold windowFault
  refine ⟨?_, rbit_raise_alert_mk (by decide) _⟩
  rw [rdN_raise_mk (by decide) (by decide), rdN_evI_ne (by decide), cnt, rdN_cntBy]

theorem pkgStaging_refused {wr : Bool} (hp : placeOf s (offOf a) (if wr then data.length else len) = .store off) (hsl : slotOf a = ownSlot s)
    (hl : 0 < (if wr then data.length else len))
    (hw : windowOk (winsOf s p) a (if wr then data.length else len) (if wr then .write else .read) false = false) :
    pkgStaging p wr a len data s = emit (.pkgRsp false []) (windowFault false 0xFF 0xFF p 0x1FFF 2 a s) := by
  have hc : windowCheck none (winsOf s p) p a (if wr then data.length else len) (if wr then .write else .read) false 0x1FFF 2 s
      = (windowFault false 0xFF 0xFF p 0x1FFF 2 a s, false) := by
    unfold windowCheck windowCheckAt
    rw [if_neg (by rw [hw]; exact Bool.false_ne_true)]
    rfl
  generalize hf : pkgStaging = f
  delta pkgStaging at hf
  rw [← hf]
  generalize @placeOf = place at hp ⊢
  beta_reduce
  extract_lets +onlyGivenNames m
  have hm : m = if wr = true then data.length else len := rfl
  clear_value m
  rw [← hm] at hp hl hc
  rw [hp]
  refine (if_neg (by rintro (h | h); exacts [h hsl, absurd h hl.ne'])).trans ((if_pos ?_).trans ?_)
  · rw [hc]
    rfl
  · rw [hc]

end

/-- Settles O36. -/
theorem storeAndPackage : Obligations.StoreAndPackage := by
  intro s hs q
  refine ⟨fun w hw => stagingCorrected hs hw, fun w err hw he => stagingLost hs hw he, fun id g h => ⟨?_, fun i hr => resend_clause hs h hr⟩,
    fun id g h hsent n ho hn ht => timeout_clause hs h hsent ho hn ht, fun p a off data _ hp hsl hd hw => ?_,
    fun p a off len _ hp hsl hl hb hw => ?_, fun p w a len off data hp16 hp hsl hl hw => ?_⟩
  · refine ⟨_, hs.run _, ?_⟩
    rw [commit_txns, txnBeat_acked q h, txnEnd_ok_txns, txn_key h]
  · have hst := pkgStaging_write (len := 0) q hp hsl hd hw
    have hget (x : Nat) : stgGet (commit false s (pkgStaging p true a 0 data s)) x = stgGet (storeWrite off data s) x := by
      rw [hst, stgGet_commit false (by rfl)]
      exact stgGet_congr rfl rfl x
    refine ⟨_, hs.run _, ?_, ?_, fun i hi => ?_, fun x hx => ?_⟩
    · rw [commit_out, hst]
      rfl
    · rw [commit_regs, hst]
      rfl
    · rw [hget, stgGet_storeWrite_in hi]
    · rw [hget, stgGet_storeWrite_out hx]
  · have hst := pkgStaging_read (data := []) q hb hp hsl hl hw
    refine ⟨_, hs.run _, ?_, ?_, ?_⟩
    · rw [commit_out, hst]
      rfl
    · rw [commit_regs, hst]
      rfl
    · rw [hst, commit_stg false]
      exact hs.2
  · have hst := pkgStaging_refused hp hsl hl hw
    refine ⟨_, hs.run _, ?_, ?_, ?_, ?_⟩
    · rw [commit_out, hst, ← windowFault_field markStable_out false 0xFF 0xFF p 0x1FFF 2 a s]
      rfl
    · rw [hst, commit_stg false]
      exact (windowFault_field switchStable_writes.markStable _ _ _ _ _ _ _ s).trans hs.2
    · rw [commit_rdN, hst]
      exact (windowFault_counts _ _ _ _ _ _ s).1
    · rw [commit_rbit, hst]
      exact (windowFault_counts _ _ _ _ _ _ s).2

end Sys2Proof.Machine
end

section
/-! SUPPORT. Doorbells, and register writes over the package interface (R265–R267, R541). -/
namespace Sys2Proof.Machine

section
variable {n p a : Nat} {v w : Word} {s t : State}

/-! ### A doorbell (R266) -/

theorem doorbell_moves (hh : doorbellHeard s n = true) (ho : doorbellOk s n v = true) : doorbell n v s = wr (R.parReqTail n) v s := by
  unfold doorbell
  rw [hh, Bool.not_true, if_neg Bool.false_ne_true, if_pos ho]

theorem doorbell_bad (hh : doorbellHeard s n = true) (ho : doorbellOk s n v = false) : doorbell n v s = ev (R.parEvents n) 0 s := by
  unfold doorbell
  rw [hh, Bool.not_true, if_neg Bool.false_ne_true, ho, if_neg Bool.false_ne_true]

theorem doorbell_unheard (hh : doorbellHeard s n = false) : doorbell n v s = s := by
  unfold doorbell
  rw [hh, Bool.not_false, if_pos rfl]

/-- Two states agree on every register but the events of a partition. -/
def AgreeBut (n : Nat) (s t : State) : Prop := ∀ b, b ≠ R.parEvents n → rd t b = rd s b

theorem doorbellHeard_congr (h : AgreeBut n s t) : doorbellHeard t n = doorbellHeard s n := by
  unfold doorbellHeard strCount rfld rbit
  rw [h _ (by unfold R.parStreamRange R.parEvents; omega), h _ (by unfold R.parReplay R.parEvents; omega)]

theorem doorbellOk_congr (h : AgreeBut n s t) : doorbellOk t n v = doorbellOk s n v := by
  unfold doorbellOk reqSize rfld
  dsimp only
  rw [h _ (by unfold R.parReqTail R.parEvents; omega), h _ (by unfold R.parReqHead R.parEvents; omega),
    h _ (by unfold R.parReqSize R.parEvents; omega)]

/-- A doorbell does the same in both. -/
theorem doorbell_congr (h : AgreeBut n s t) : AgreeBut n (doorbell n v s) (doorbell n v t) := by
  intro b hb
  unfold doorbell
  rw [doorbellHeard_congr h, doorbellOk_congr h]
  split
  · exact h b hb
  · split
    · by_cases e : b = R.parReqTail n
      · rw [e, rd_wr_self, rd_wr_self]
      · rw [rd_wr_ne e, rd_wr_ne e, h b hb]
    · rw [rd_ev_ne hb, rd_ev_ne hb, h b hb]

/-! ### Writes over the package interface (R267) -/

theorem pkgReg_door : ∀ n < 16, pkgReg (R.parDoorbell n) = some (n, true) := by decide

theorem pkgReg_cplHead : ∀ n < 16, pkgReg (R.parCplHead n) = some (n, false) := by decide

theorem pkgReg_other (h : ∀ m, m < 16 → a ≠ R.parDoorbell m ∧ a ≠ R.parCplHead m) : pkgReg a = none := by
  have hf : (range 0 15).find? (fun n => a == R.parDoorbell n || a == R.parCplHead n) = none := by
    refine List.find?_eq_none.mpr fun m hm => ?_
    have hm16 : m < 16 := by
      unfold range at hm
      rw [List.mem_range'_1] at hm
      omega
    obtain ⟨h1, h2⟩ := h m hm16
    simp [h1, h2]
  unfold pkgReg
  rw [hf]

/-- What a package write leaves to be done again after a management write of its tick. -/
def pkgNoted (n : Nat) (door : Bool) (v : Word) (s : State) : PkgWrote :=
  match tfind (if door then R.parDoorbell n else R.parCplHead n) s.pkgWrote with
  | some e => { e with vals := e.vals ++ [v] }
  | none => { was := rd s (pkgTarget n door), bad := rbit s (R.parEvents n) 0, vals := [v] }

theorem pkgRegWrite_door (hn : n < 16) : pkgRegWrite (R.parDoorbell n) v s =
    emit (.pkgRsp true []) (doorbell n v { s with pkgWrote := tset (R.parDoorbell n) (pkgNoted n true v s) s.pkgWrote }) := by
  unfold pkgRegWrite
  rw [pkgReg_door n hn]
  rfl

theorem pkgRegWrite_cplHead (hn : n < 16) : pkgRegWrite (R.parCplHead n) v s =
    emit (.pkgRsp true []) (wr (R.parCplHead n) v { s with pkgWrote := tset (R.parCplHead n) (pkgNoted n false v s) s.pkgWrote }) := by
  unfold pkgRegWrite
  rw [pkgReg_cplHead n hn]
  rfl

theorem pkgRegWrite_other (h : ∀ m, m < 16 → a ≠ R.parDoorbell m ∧ a ≠ R.parCplHead m) : pkgRegWrite a v s = emit (.pkgRsp false []) s := by
  unfold pkgRegWrite
  rw [pkgReg_other h]

/-- With no package write in its tick a management write is the write. -/
theorem mgtStore_alone (h : tfind (R.parDoorbell n) s.pkgWrote = none) : mgtStore n true v s = doorbell n v s := by
  unfold mgtStore pkgUndo
  rw [if_pos rfl, h]
  rfl

/-- After a package write of its tick, the management write comes first. -/
theorem mgtStore_after (e : PkgWrote) (h : tfind (R.parDoorbell n) s.pkgWrote = some e) (hv : e.vals = [v]) : mgtStore n true w s =
    doorbell n v (doorbell n w (wr (R.parReqTail n) e.was (wbitAt (R.parEvents n) 0 e.bad s))) := by
  unfold mgtStore pkgUndo
  rw [if_pos rfl, h]
  dsimp only
  rw [hv]
  rfl

theorem exec_doorbell (hs : s.Ready) (hn : n < 16) : exec (.doorbell n v) s = .next (commit false s (mgtStore n true v s)) :=
  hs.run_whenB (decide_eq_true hn) _

theorem exec_pkgRegisterWrite (hs : s.Ready) (hp : p < 4) (ha : (port s p).st = .active) :
    exec (.pkgRegisterWrite p a v) s = .next (commit false s (pkgRegWrite a v s)) :=
  hs.run_whenB (by rw [decide_eq_true hp, ha]; rfl) _

theorem MarkStable.doorbell {α : Type} {g : State → α} (h : MarkStable g) (n : Nat) (v : Word) (s : State) : g (doorbell n v s) = g s := by
  unfold Machine.doorbell
  split
  · rfl
  · split
    · exact h.wr _ _ s
    · exact h.ev _ _ s

theorem markStable_pkgWrote : MarkStable State.pkgWrote := by constructor <;> intros <;> rfl

/-- A doorbell writes the tail and the events of its partition alone. -/
theorem rd_doorbell_ne {b : Nat} (h1 : b ≠ R.parReqTail n) (h2 : b ≠ R.parEvents n) : rd (doorbell n v s) b = rd s b := by
  unfold doorbell
  split
  · rfl
  · split
    · rw [rd_wr_ne h1]
    · rw [rd_ev_ne h2]

/-- Undoing a package write leaves what its tick began with, but for events. -/
theorem pkgUndone_agrees (b : Bool) (h : t.regs = s.regs) :
    AgreeBut n s (wr (R.parReqTail n) (rd s (R.parReqTail n)) (wbitAt (R.parEvents n) 0 b (doorbell n v t))) := by
  intro a ha
  by_cases e : a = R.parReqTail n
  · rw [e, rd_wr_self]
  · rw [rd_wr_ne e, rd_wbitAt_ne ha, rd_doorbell_ne e ha, rd_congr h]

/-- The order of a management and a package write on one tick (R267). -/
theorem doorbell_order (hn : n < 16) (h : tfind (R.parDoorbell n) s.pkgWrote = none) :
    rd (mgtStore n true w (commit false s (pkgRegWrite (R.parDoorbell n) v s))) (R.parReqTail n)
      = rd (doorbell n v (doorbell n w s)) (R.parReqTail n) := by
  have he : pkgNoted n true v s = { was := rd s (R.parReqTail n), bad := rbit s (R.parEvents n) 0, vals := [v] } := by
    unfold pkgNoted
    rw [if_pos rfl, h]
    rfl
  obtain ⟨u, hu⟩ : ∃ u : State, { s with pkgWrote := tset (R.parDoorbell n) (pkgNoted n true v s) s.pkgWrote } = u := ⟨_, rfl⟩
  have hk : tfind (R.parDoorbell n) (commit false s (pkgRegWrite (R.parDoorbell n) v s)).pkgWrote = some (pkgNoted n true v s) := by
    show tfind _ (pkgRegWrite (R.parDoorbell n) v s).pkgWrote = _
    rw [pkgRegWrite_door hn, hu]
    show tfind _ (doorbell n v u).pkgWrote = _
    rw [markStable_pkgWrote.doorbell, ← hu]
    exact tfind_tput_self _ _ (tfind_tdel_self _ _)
  have hagree : AgreeBut n s (wr (R.parReqTail n) (pkgNoted n true v s).was (wbitAt (R.parEvents n) 0 (pkgNoted n true v s).bad
      (commit false s (pkgRegWrite (R.parDoorbell n) v s)))) := by
    rw [he]
    intro b hb
    refine Eq.trans ?_ (pkgUndone_agrees (n := n) (v := v) (t := u) (rbit s (R.parEvents n) 0) (by rw [← hu]) b hb)
    refine rd_congr ?_ b
    rw [pkgRegWrite_door hn, hu]
    rfl
  rw [mgtStore_after _ hk (by rw [he])]
  exact doorbell_congr (doorbell_congr hagree) _ (by unfold R.parReqTail R.parEvents; omega)

theorem ready_pkgRegWrite (hs : s.Ready) (hn : n < 16) : (commit false s (pkgRegWrite (R.parDoorbell n) v s)).Ready := by
  refine ⟨?_, rfl⟩
  rw [commit_rst, pkgRegWrite_door hn]
  show (doorbell n v _).rst.cold = false
  rw [switchStable_rst.markStable.doorbell]
  exact hs.1

end

/-- Settles O37. -/
theorem doorbells : Obligations.Doorbells := by
  intro s n v hs hn
  refine ⟨fun hk hh ho => ⟨_, exec_doorbell hs hn, ?_, fun b hb => ?_⟩, fun hk hh ho => ⟨_, exec_doorbell hs hn, ?_, ?_⟩, fun hk hh => ?_,
    fun p w hp ha hk => ⟨_, _, exec_pkgRegisterWrite hs hp ha, exec_doorbell (ready_pkgRegWrite hs hn) hn, ?_⟩,
    fun p hp ha hh ho => ⟨_, exec_pkgRegisterWrite hs hp ha, ?_, ?_⟩, fun p hp ha => ⟨_, exec_pkgRegisterWrite hs hp ha, ?_, ?_, fun b hb => ?_⟩,
    fun p a hp ha h => ⟨_, exec_pkgRegisterWrite hs hp ha, ?_, ?_⟩⟩
  · rw [commit_rd, mgtStore_alone hk, doorbell_moves hh ho, rd_wr_self]
  · rw [commit_rd, mgtStore_alone hk, doorbell_moves hh ho, rd_wr_ne hb]
  · rw [commit_rbit, mgtStore_alone hk, doorbell_bad hh ho, rbit_ev _ _ _ (by decide)]
  · rw [commit_rd, mgtStore_alone hk, doorbell_bad hh ho, rd_ev_ne (by unfold R.parReqTail R.parEvents; omega)]
  · exact (exec_doorbell hs hn).trans (by rw [mgtStore_alone hk, doorbell_unheard hh, commit_self hs.2])
  · rw [commit_rd]
    exact doorbell_order hn hk
  · rw [commit_rd, pkgRegWrite_door hn, doorbell_moves (by exact hh) (by exact ho)]
    exact rd_wr_self _ _ _
  · rw [commit_out, pkgRegWrite_door hn]
    exact congrArg (· ++ _) (markStable_out.doorbell n v _)
  · rw [commit_rd, pkgRegWrite_cplHead hn]
    exact rd_wr_self _ _ _
  · rw [commit_out, pkgRegWrite_cplHead hn]
    rfl
  · rw [commit_rd, pkgRegWrite_cplHead hn]
    exact rd_wr_ne hb _ _
  · rw [commit_regs, pkgRegWrite_other h]
    rfl
  · rw [commit_out, pkgRegWrite_other h]
    rfl

end Sys2Proof.Machine
end

section
/-! SUPPORT. The registers of streams and partitions that accesses of the engine's own leave as they were. -/
namespace Sys2Proof.Machine

/-- The registers of streams and of partitions. -/
def strParReg (a : Nat) : Bool := decide (0xA0000 ≤ a ∧ a < 0xD0000)

/-- A reading of the state that depends on nothing the accesses to the own slot change, the registers of streams and partitions
among it. -/
structure LocalStable {α : Type} (g : State → α) : Prop where
  wr : ∀ a v s, strParReg a = false → g (wr a v s) = g s
  touch : ∀ a v s, g (touch a v s) = g s
  dets : ∀ x s, g { s with dets := x } = g s
  jq : ∀ x s, g { s with jq := x } = g s
  push : ∀ x n s, g { s with pushq := x, pseq := n } = g s
  tbl : ∀ x y s, g { s with eccBad := x, tblOld := y } = g s
  awl : ∀ x s, g { s with awl := x } = g s
  writes : ∀ x s, g { s with writes := x } = g s
  stgBad : ∀ x s, g { s with stgBad := x } = g s
  out : ∀ o s, g (emit o s) = g s
  txns : ∀ x n s, g { s with txns := x, txnId := n } = g s
  pkgSet : ∀ x s, g { s with pkgSet := x } = g s
  streams : ∀ x s, g { s with streams := x } = g s

theorem localStable_rd {a : Nat} (ha : strParReg a = true) : LocalStable (rd · a) where
  wr b v s hb := rd_wr_ne (fun e => by rw [e, hb] at ha; cases ha) v s
  touch _ _ _ := rfl
  dets _ _ := rfl
  jq _ _ := rfl
  push _ _ _ := rfl
  tbl _ _ _ := rfl
  awl _ _ := rfl
  writes _ _ := rfl
  stgBad _ _ := rfl
  out _ _ := rfl
  txns _ _ _ := rfl
  pkgSet _ _ := rfl
  streams _ _ := rfl

namespace LocalStable
variable {α : Type} {g : State → α}

theorem raiseStable (h : LocalStable g) : RaiseStable g where
  wr a v s ha := h.wr a v s (by
    unfold raiseReg at ha
    rw [decide_eq_true_iff] at ha
    refine decide_eq_false ?_
    simp only [R.glbAlertStatus, R.glbAlertInjected, R.glbEventHead, R.glbEventLostCount, R.mgtEvents, R.mgtPushDropCount,
      R.jnlLostCount] at ha
    omega)
  touch := h.touch
  dets := h.dets
  jq := h.jq
  push := h.push
  tbl := h.tbl

theorem ev (h : LocalStable g) {a : Nat} (ha : strParReg a = false) (i : Nat) (s : State) : g (ev a i s) = g s := by
  rw [Machine.ev, h.touch]; exact h.wr _ _ _ ha
theorem cnt (h : LocalStable g) {a : Nat} (ha : strParReg a = false) (s : State) : g (cnt a s) = g s := by
  rw [Machine.cnt, Machine.cntBy, h.touch]; exact h.wr _ _ _ ha
theorem wbitAt (h : LocalStable g) {a : Nat} (ha : strParReg a = false) (i : Nat) (b : Bool) (s : State) : g (wbitAt a i b s) = g s :=
  h.wr _ _ _ ha
theorem evI (h : LocalStable g) {a : Nat} (ha : strParReg a = false) (i b : Nat) (inj : Bool) (s : State) : g (evI a i b inj s) = g s := by
  unfold Machine.evI
  split
  · rw [h.ev ha, h.ev ha]
  · rw [h.wbitAt ha, h.ev ha]
theorem raise (h : LocalStable g) (d : Det) (hd : d.i < 32) (s : State) : g (raise d s) = g s := h.raiseStable.raise d hd s

theorem awlStore (h : LocalStable g) (i : Nat) (p : AwlPoint) (s : State) : g (awlStore i p s) = g s := by
  unfold Machine.awlStore; rw [h.wbitAt (by decide), h.awl]

theorem awlFire (h : LocalStable g) (i : Nat) (p q r : Option Nat) (s : State) : g (awlFire i p q r s).1 = g s := by
  unfold Machine.awlFire
  dsimp only
  split
  · split
    · split
      · rw [h.ev (by decide), h.touch, h.awlStore]
      · rw [h.touch, h.awlStore]
    · exact h.awlStore _ _ _
  · rfl

theorem windowFault (h : LocalStable g) (inj : Bool) (p k n o c a : Nat) (s : State) : g (windowFault inj p k n o c a s) = g s := by
  unfold Machine.windowFault; rw [h.raise _ (show 8 < 32 by decide), h.evI (by decide), h.cnt (by decide)]

theorem badAccess (h : LocalStable g) (s : State) : g (badAccess s) = g s := by
  rw [Machine.badAccess, h.ev (by decide), h.cnt (by decide)]

theorem storeWrite (h : LocalStable g) (o : Nat) (b : List Byte) (s : State) : g (storeWrite o b s) = g s := by
  unfold Machine.storeWrite stgWrite; rw [h.writes, h.stgBad]

theorem txnSend (h : LocalStable g) (t : Txn) (s : State) : g (txnSend t s) = g s := by
  unfold Machine.txnSend; rw [h.out, h.pkgSet]

theorem pkgIssue (h : LocalStable g) (a : Nat) (b : List Byte) (o : Owner) (s : State) : g (pkgIssue a b o s) = g s := by
  unfold Machine.pkgIssue
  dsimp only
  split
  · rw [h.txnSend]; exact h.txns _ _ s
  · exact h.txns _ _ s

theorem stgEccHit (h : LocalStable g) (inj : Bool) (p k n w : Nat) (s : State) : g (stgEccHit inj p k n w s) = g s := by
  unfold Machine.stgEccHit
  rw [h.raise _ (show 2 < 32 by decide), wrN, h.wr _ _ _ (by decide), h.evI (by decide), h.cnt (by decide)]

theorem markInj (h : LocalStable g) (k : Nat) (inj : Bool) (s : State) : g (markInj k inj s) = g s := by
  unfold Machine.markInj; split
  · exact h.streams _ s
  · rfl

theorem markWho (h : LocalStable g) (x : Option Nat) (s : State) : g (markWho x s) = g s := by
  unfold Machine.markWho; split
  · exact h.markInj _ _ _
  · rfl

theorem windowCheck (h : LocalStable g) (x : Option Nat) (ws : List Win) (n a len : Nat) (k : WKind) (b : Bool) (o c : Nat)
    (s : State) : g (windowCheck x ws n a len k b o c s).1 = g s := by
  unfold Machine.windowCheck windowCheckAt
  split
  · dsimp only
    split
    · rw [h.windowFault, h.markWho, h.awlFire]
    · exact h.awlFire _ _ _ _ _
  · exact h.windowFault _ _ _ _ _ _ _ _

theorem localWrite (h : LocalStable g) (x : Option Nat) (ws : List Win) (n a : Nat) (b : List Byte) (o : Owner) (s : State) :
    g (localWrite x ws n a b o s).1 = g s := by
  unfold Machine.localWrite
  split
  · exact h.badAccess s
  · split
    · exact h.badAccess s
    · dsimp only
      split
      · exact h.windowCheck _ _ _ _ _ _ _ _ _ s
      · split
        · rw [h.storeWrite, h.windowCheck]
        · split
          · rw [h.pkgIssue, h.windowCheck]
          · exact h.windowCheck _ _ _ _ _ _ _ _ _ s

end LocalStable
end Sys2Proof.Machine
end

section
/-! SUPPORT. Requests are taken (R268–R272). -/
namespace Sys2Proof.Machine

/-! ### A step boundary (R263) -/

/-- A reading of the state that depends on nothing a step boundary changes. -/
structure BoundaryStable {α : Type} (g : State → α) : Prop extends MarkStable g where
  staged : ∀ x s, g { s with staged := x } = g s

namespace BoundaryStable
variable {α : Type} {g : State → α}

theorem unstage (h : BoundaryStable g) (pick : Nat → Bool) (s : State) : g (unstage pick s) = g s := h.staged _ s

theorem applyReg (h : BoundaryStable g) (e : Nat × Word) (s : State) : g (applyReg e s) = g s := by
  unfold Machine.applyReg
  split
  · exact h.wfld _ _ _ _ s
  · exact h.wr _ _ s

theorem rankUse (h : BoundaryStable g) (n r : Nat) (s : State) : g (rankUse n r s).1 = g s := by
  unfold Machine.rankUse
  dsimp only
  split
  · exact h.tblEccHit _ _ _ _
  · split
    · rw [h.tblEccHit, h.awlFire]
    · exact h.awlFire _ _ _ _ _

theorem searchSelf (h : BoundaryStable g) (n : Nat) (l : List Nat) (s : State) : g (searchSelf n l s).1 = g s := by
  induction l generalizing s with
  | nil => rfl
  | cons r l ih =>
    unfold Machine.searchSelf
    dsimp only
    split
    · exact h.rankUse _ _ s
    · rw [ih]
      exact h.rankUse _ _ s

theorem selfRank (h : BoundaryStable g) (n : Nat) (s : State) : g (selfRank n s) = g s := by
  unfold Machine.selfRank
  dsimp only
  split
  · rw [h.wrN, h.searchSelf]
  · rw [h.wrN, h.searchSelf]

theorem applyMap (h : BoundaryStable g) (n : Nat) (s : State) : g (applyMap n s) = g s := by
  have hits (m : Nat) (s : State) : g (newMapHits n m s) = g s := forEach_field g _ _ (fun _ _ s => h.tblEccHit _ _ _ s) s
  have apply (l : List (Nat × Word)) (s : State) :
      g (forEach l (fun e s => if e.1 = R.parRanks n then wr e.1 e.2 s else tblWrite e.1 e.2 s) s) = g s :=
    forEach_field g _ _ (fun e _ s => by
      split
      · exact h.wr _ _ s
      · exact h.tblWrite _ _ s) s
  unfold Machine.applyMap
  dsimp only
  split
  · rfl
  · split
    all_goals
      split
      · rw [h.ev, h.unstage, hits]
      · rw [h.selfRank, apply, h.unstage, hits]

theorem applyRings (h : BoundaryStable g) (n : Nat) (s : State) : g (applyRings n s) = g s := by
  unfold Machine.applyRings
  dsimp only
  split
  · rw [h.wr, h.wr, h.wr, h.wr, forEach_field g _ _ (fun e _ s => h.applyReg e s), h.unstage]
  · rfl

theorem applyStaged (h : BoundaryStable g) (n : Nat) (s : State) : g (applyStaged n s) = g s := by
  unfold Machine.applyStaged
  dsimp only
  rw [h.applyRings, h.applyMap, forEach_field g _ _ (fun e _ s => h.applyReg e s), h.unstage]

end BoundaryStable

theorem boundaryStable_streams : BoundaryStable State.streams := ⟨switchStable_streams.markStable, fun _ _ => rfl⟩


section
variable {n k : Nat} {q : Req} {s : State}

theorem applyStaged_clause (hs : s.Ready) (hn : n < 16) (h : takes s n = true) :
    ∃ t, exec (.requestTake n) s = .next t ∧ (par t n).reading = true ∧ t.streams = s.streams := by
  refine ⟨_, hs.run_whenB (by rw [decide_eq_true hn, h]; rfl) _, ?_, ?_⟩
  · rw [commit_par, requestTake, par_modPar_self]
  · exact boundaryStable_streams.applyStaged n s

/-! ### A stream is given (R272) -/

/-- The registers of a stream that an assignment sets back. -/
def strResets (k : Nat) : List Nat := [R.strFault k, R.strShdNonfinite k, R.strBranchLossMap k, R.strBranchLossFirst k, R.strBranchLossCount k]

/-- A stream that a request gets. -/
def assigned (n : Nat) (q : Req) (k : Nat) (s : State) (x : Stream) : Stream :=
  { ({} : Stream) with
    st := .starting, part := n, req := q, closed := x.closed, gaps := x.gaps, opn := x.opn, rid := x.rid, pseq := x.pseq, rid0 := x.rid
    drawn := heldAfter s k }

theorem assign_eq (n : Nat) (q : Req) (k : Nat) (s : State) : assign n q k s =
    modPar n (fun p => { p with starting := none, startStr := some k })
      (forEach (strResets k) (fun a s => wr a (resetReg a) s) (modStr k (assigned n q k s) s)) := rfl

theorem strResets_field {α : Type} {g : State → α} (h : MarkStable g) (k : Nat) (s : State) :
    g (forEach (strResets k) (fun a s => wr a (resetReg a) s) s) = g s :=
  forEach_field g _ _ (fun _ _ s => h.wr _ _ s) s

theorem streams_assign : (assign n q k s).streams = (modStr k (assigned n q k s) s).streams :=
  strResets_field markStable_streams k _

theorem str_assign : str (assign n q k s) k = assigned n q k s (str s k) := by
  rw [str_congr streams_assign, str_modStr_self]

theorem str_assign_ne {j : Nat} (h : j ≠ k) : str (assign n q k s) j = str s j := by
  rw [str_congr streams_assign, str_modStr_ne h]

theorem par_congr {t : State} (h : t.pars = s.pars) (n : Nat) : par t n = par s n := by rw [par, h, par]

theorem par_assign : par (assign n q k s) n = { par s n with starting := none, startStr := some k } := by
  rw [assign_eq, par_modPar_self, par_congr (strResets_field switchStable_pars.markStable k _)]
  rfl

theorem rd_assign {b : Nat} (hk : k < 256) (hb : 0xC0000 ≤ b) : rd (assign n q k s) b = rd s b := by
  rw [assign_eq]
  refine (forEach_field (rd · b) _ _ (fun a ha s => rd_wr_ne ?_ _ s) _ : _)
  simp only [strResets, List.mem_cons, List.not_mem_nil, or_false] at ha
  unfold R.strFault R.strShdNonfinite R.strBranchLossMap R.strBranchLossFirst R.strBranchLossCount at ha
  omega

/-! ### What a completion leaves (R296) -/

theorem writeStable_pars : WriteStable State.pars := by
  repeat' first | exact switchStable_pars.markStable | constructor
  all_goals intros; rfl

theorem completionDone_field {α : Type} {g : State → α} {m : Nat} (he : ∀ s, g (ev (R.parEvents m) 2 s) = g s)
    (hst : ∀ x s, g { s with streams := x } = g s) (hsig : ∀ x s, g { s with signals := x } = g s)
    (ok : Bool) (k : Option Nat) (sig : Option (Nat × Nat)) (s : State) : g (completionDone ok m k sig s) = g s := by
  have hev : g (if ok = true then s else ev (R.parEvents m) 2 s) = g s :=
    (ite_eq_or_eq _ _ _).elim (congrArg g) (fun e => (congrArg g e).trans (he s))
  unfold completionDone
  dsimp only
  generalize (if ok = true then s else ev (R.parEvents m) 2 s) = u at hev
  rw [← hev]
  cases k with
  | none =>
    cases sig with
    | none => rfl
    | some a => exact (ite_eq_or_eq _ _ _).elim (fun e => (congrArg g e).trans (hsig _ u)) (congrArg g)
  | some k =>
    dsimp only
    have hidle : g (if ((str u k).st == StrSt.quenching) = true then u else toIdle k u) = g u :=
      (ite_eq_or_eq _ _ _).elim (congrArg g) (fun e => (congrArg g e).trans (hst _ u))
    generalize (if ((str u k).st == StrSt.quenching) = true then u else toIdle k u) = v at hidle
    rw [← hidle]
    cases sig with
    | none => rfl
    | some a => exact (ite_eq_or_eq _ _ _).elim (fun e => (congrArg g e).trans (hsig _ v)) (congrArg g)

/-- What a completion leaves as it was when its record is written. -/
theorem complete_field {α : Type} {g : State → α} (he : ∀ s, g (ev (R.parEvents n) 2 s) = g s)
    (hst : ∀ x s, g { s with streams := x } = g s) (hsig : ∀ x s, g { s with signals := x } = g s)
    (hw : ∀ ws a b o s, g (localWrite none ws n a b o s).1 = g s) (k : Option Nat) (q : Req) (st : Nat) (s : State) :
    g (complete n k q st s) = g (completionTail n k q s) := by
  have hwrite : g (completionWrite n k q st s).1 = g (completionTail n k q s) := hw _ _ _ _ _
  rw [complete_eq, ← hwrite]
  generalize completionWrite n k q st s = w
  cases e : w.2 with
  | done => rw [completionAfter_done e, completionDone_field he hst hsig]
  | issued => rw [completionAfter_issued e]
  | err x => rw [completionAfter_err e, completionDone_field he hst hsig]

theorem pars_complete (k : Option Nat) (q : Req) (st : Nat) (s : State) : (complete n k q st s).pars = (completionTail n k q s).pars :=
  complete_field (fun _ => rfl) (fun _ _ => rfl) (fun _ _ => rfl) (fun ws a b o s => writeStable_pars.localWrite_none ws n a b o s) k q st s

/-- A completion writes no register of a stream or a partition but the ring's tail, and the events of its own. -/
theorem rd_complete {b : Nat} (hb : strParReg b = true) (h : b ≠ R.parEvents n) (k : Option Nat) (q : Req) (st : Nat) (s : State) :
    rd (complete n k q st s) b = rd (completionTail n k q s) b :=
  complete_field (g := (rd · b)) (fun _ => rd_ev_ne h 2 _) (fun _ _ => rfl) (fun _ _ => rfl)
    (fun ws a b o s => (localStable_rd hb).localWrite none ws n a b o s) k q st s

/-- And of those events it sets one, and clears none. -/
theorem rbit_complete {i : Nat} (h : i ≠ 2) (hn : n < 16) (k : Option Nat) (q : Req) (st : Nat) (s : State) :
    rbit (complete n k q st s) (R.parEvents n) i = rbit (completionTail n k q s) (R.parEvents n) i := by
  have hb : strParReg (R.parEvents n) = true := by
    unfold strParReg R.parEvents
    exact decide_eq_true (by omega)
  refine complete_field (g := (rbit · (R.parEvents n) i)) (fun _ => rbit_ev_other _ _ _ _ _ (by decide) (.inr h)) (fun _ _ => rfl)
    (fun _ _ => rfl) (fun ws a b o s => ?_) k q st s
  rw [rbit, (localStable_rd hb).localWrite none ws n a b o s, rbit]

theorem rdN_completionTail {k : Option Nat} :
    rdN (completionTail n k q s) (R.parCplTail n) = (rdN s (R.parCplTail n) + 1) % 2 ^ 32 := by
  rw [completionTail, rdN_wrN, Nat.mod_mod]

theorem rd_completionTail_none {b : Nat} (h : b ≠ R.parCplTail n) : rd (completionTail n none q s) b = rd s b := by
  rw [completionTail, rd_wrN_ne h, completionExpire, rd_modPar]

theorem par_completionTail_none : par (completionTail n none q s) n = { par s n with outstanding := (par s n).outstanding - 1 } := by
  show par (modPar n (fun p => { p with outstanding := p.outstanding - 1 }) s) n = _
  rw [par_modPar_self]

/-! ### A descriptor is read (R268–R271) -/

/-- Where the request at the head of the ring is. -/
def headAddr (s : State) (n : Nat) : Nat :=
  ringBase s (R.parReqBaseLo n) (R.parReqBaseHi n) + 64 * (rdN s (R.parReqHead n) % reqSize s n)

/-- The state in which a descriptor is tested: HEAD has advanced, and the request is outstanding. -/
def headTaken (n : Nat) (s s0 : State) : State :=
  wrN (R.parReqHead n) ((rdN s (R.parReqHead n) + 1) % 2 ^ 32)
    (modPar n (fun p => { p with reading := false, outstanding := p.outstanding + 1 }) s0)

section
variable {data b : List Byte} {e : Nat} {s0 : State}

theorem descriptorRead_failed (h : (par s n).reading = true) (hr : localRead none (winsOf s n) n (headAddr s n) 64 data s = (s0, .error e)) :
    descriptorRead n data s = complete n none {} 0x0A (ev (R.parEvents n) 1 (headTaken n s s0)) := by
  generalize hf : descriptorRead = f
  delta descriptorRead at hf
  rw [← hf]
  refine (if_pos h).trans ?_
  extract_lets head a r u
  have hu : u = headTaken n s r.1 := rfl
  have hrd : r = (s0, .error e) := hr
  clear_value r u
  subst hrd hu
  rfl

theorem descriptorRead_assigns (h : (par s n).reading = true) (hr : localRead none (winsOf s n) n (headAddr s n) 64 data s = (s0, .ok b))
    (ht : descTest (headTaken n s s0) n b (parseReq b) = none) (hf : freeStream (headTaken n s s0) n (parseReq b) = some k) :
    descriptorRead n data s = assign n (parseReq b) k (headTaken n s s0) := by
  generalize hd : descriptorRead = f
  delta descriptorRead at hd
  rw [← hd]
  refine (if_pos h).trans ?_
  extract_lets head a r u
  have hu : u = headTaken n s r.1 := rfl
  have hrd : r = (s0, .ok b) := hr
  clear_value r u
  subst hrd hu
  dsimp only
  rw [ht]
  dsimp only
  rw [hf]

theorem descriptorRead_waits (h : (par s n).reading = true) (hr : localRead none (winsOf s n) n (headAddr s n) 64 data s = (s0, .ok b))
    (ht : descTest (headTaken n s s0) n b (parseReq b) = none) (hf : freeStream (headTaken n s s0) n (parseReq b) = none) :
    descriptorRead n data s = modPar n (fun p => { p with starting := some (parseReq b) }) (headTaken n s s0) := by
  generalize hd : descriptorRead = f
  delta descriptorRead at hd
  rw [← hd]
  refine (if_pos h).trans ?_
  extract_lets head a r u
  have hu : u = headTaken n s r.1 := rfl
  have hrd : r = (s0, .ok b) := hr
  clear_value r u
  subst hrd hu
  dsimp only
  rw [ht]
  dsimp only
  rw [hf]

/-! ### The clauses -/

theorem par_headTaken (n : Nat) (s s0 : State) : par (headTaken n s s0) n = { par s0 n with reading := false, outstanding := (par s0 n).outstanding + 1 } := by
  show par (modPar n (fun p => { p with reading := false, outstanding := p.outstanding + 1 }) s0) n = _
  rw [par_modPar_self]

theorem rdN_head (n : Nat) (s s0 : State) : rdN (headTaken n s s0) (R.parReqHead n) = (rdN s (R.parReqHead n) + 1) % 2 ^ 32 := by
  unfold headTaken
  rw [rdN_wrN, Nat.mod_mod]

theorem strParReg_par {a : Nat} (h1 : 0xC0000 ≤ a) (h2 : a < 0xD0000) : strParReg a = true := decide_eq_true (by omega)

/-- A descriptor that cannot be read completes its request (R271). -/
theorem unreadable_clause (hs : s.Ready) (hn : n < 16) (h : (par s n).reading = true)
    (hr : localRead none (winsOf s n) n (headAddr s n) 64 data s = (s0, .error e)) :
    ∃ t, exec (.descriptorRead n data) s = .next t ∧ rbit t (R.parEvents n) 1 = true
      ∧ (par t n).outstanding = (par s0 n).outstanding ∧ rdN t (R.parCplTail n) = (rdN s0 (R.parCplTail n) + 1) % 2 ^ 32
      ∧ rdN t (R.parReqHead n) = (rdN s (R.parReqHead n) + 1) % 2 ^ 32 := by
  have hd := descriptorRead_failed h hr
  refine ⟨_, hs.run _, ?_, ?_, ?_, ?_⟩
  · rw [commit_rbit, hd, rbit_complete (by decide) hn, rbit, rd_completionTail_none (by unfold R.parEvents R.parCplTail; omega), ← rbit]
    exact rbit_ev (R.parEvents n) 1 _ (by decide)
  · rw [commit_par, hd, par_congr (pars_complete _ _ _ _), par_completionTail_none]
    show (par (headTaken n s s0) n).outstanding - 1 = _
    rw [par_headTaken]
    rfl
  · rw [commit_rdN, hd, rdN_eq_toNat_rd, rd_complete (strParReg_par (by unfold R.parCplTail; omega) (by unfold R.parCplTail; omega))
      (by unfold R.parCplTail R.parEvents; omega), ← rdN_eq_toNat_rd, rdN_completionTail,
      rdN_ev_ne (by unfold R.parCplTail R.parEvents; omega), headTaken,
      rdN_wrN_ne (by unfold R.parCplTail R.parReqHead; omega)]
    rfl
  · rw [commit_rdN, hd, rdN_eq_toNat_rd, rd_complete (strParReg_par (by unfold R.parReqHead; omega) (by unfold R.parReqHead; omega))
      (by unfold R.parReqHead R.parEvents; omega), rd_completionTail_none (by unfold R.parReqHead R.parCplTail; omega),
      ← rdN_eq_toNat_rd, rdN_ev_ne (by unfold R.parReqHead R.parEvents; omega)]
    exact rdN_head n s s0

end

end

/-- Settles O38. -/
theorem takingARequest : Obligations.TakingARequest := by
  intro s n hs hn
  refine ⟨fun h => applyStaged_clause hs hn h, ?_, fun data e s0 h hr => unreadable_clause hs hn h hr, fun q k hq hf hk => ?_⟩
  · rintro data b s0 s' h hr rfl ht
    refine ⟨fun k hf hk => ?_, fun hf => ?_⟩
    · have hd := descriptorRead_assigns h hr ht hf
      refine ⟨_, hs.run _, ?_, ?_, ?_, ?_, ?_, ?_⟩
      · rw [commit_str, hd, str_assign]
        rfl
      · rw [commit_str, hd, str_assign]
        rfl
      · rw [commit_str, hd, str_assign]
        rfl
      · rw [commit_par, hd, par_assign]
      · rw [commit_par, hd, par_assign, par_headTaken]
      · rw [commit_rdN, hd, rdN_eq_toNat_rd, rd_assign hk (by unfold R.parReqHead; omega), ← rdN_eq_toNat_rd]
        exact rdN_head n s s0
    · have hd := descriptorRead_waits h hr ht hf
      refine ⟨_, hs.run _, ?_, ?_, ?_⟩
      · rw [commit_par, hd, par_modPar_self]
      · rw [commit_streams, hd]
        rfl
      · rw [commit_rdN, hd]
        exact rdN_head n s s0
  · have ha : streamAssign n s = assign n q k s := by
      unfold streamAssign
      rw [hq]
      dsimp only
      rw [hf]
    refine ⟨_, hs.run _, ?_, ?_, ?_, ?_, fun j hj => ?_⟩
    · rw [commit_str, ha, str_assign]
      rfl
    · rw [commit_str, ha, str_assign]
      rfl
    · rw [commit_par, ha, par_assign]
    · rw [commit_par, ha, par_assign]
    · rw [commit_str, ha, str_assign_ne hj]

end Sys2Proof.Machine
end

section
/-! SUPPORT. The records of steps are read and armed, and LOOP (R286–R290). -/
namespace Sys2Proof.Machine

section
variable {k idx at_ tick : Nat} {rc : Rec} {s : State}

theorem recordRead_reads {b : List Byte} (hx : (str s k).st = .running) (h1 : (str s k).rec1 = none) (h2 : (str s k).recAt.isSome = true)
    (hn : (str s k).next < (str s k).steps)
    (hr : storeRead (some k) (str s k).part ((str s k).req.last + 32 + 32 * (str s k).next) 32 s = (s, some b)) :
    recordRead k s = modStr k (fun x => { x with rec1 := some (parseRec b), recAt := none }) s := by
  unfold recordRead
  dsimp only
  rw [if_pos ⟨hx, by rw [h1]; rfl, h2, hn⟩, hr]

/-- A stream whose next step is armed to launch at a time. -/
def nextArmed (rc : Rec) (at_ : Nat) (s : State) (x : Stream) : Stream :=
  { x with
    arm := some (x.next, rc, at_, now s), lateArmed := decide (at_ ≤ mtcN s), lastArmed := x.next
    next := x.next + 1, rec1 := none, recAt := if x.next + 1 < x.steps then some (now s) else none
    loopAt := none, overlap := false }

theorem armStep_arms (h1 : (str s k).rec1 = some rc) :
    armStep k s = modStr k (nextArmed rc (((str s k).base + rc.launch) % 2 ^ 64) s) s := by
  unfold armStep
  dsimp only
  rw [h1]
  rfl

theorem stepArm_arms (h1 : (str s k).rec1 = some rc) (ha : mayArm s k = true) (hn : (str s k).next < (str s k).steps) :
    stepArm k s = modStr k (nextArmed rc (((str s k).base + rc.launch) % 2 ^ 64) s) s := by
  unfold stepArm
  dsimp only
  rw [if_pos ha, if_neg (by omega), armStep_arms h1]

/-- What a LOOP that acts does: it goes back where its count `c` is not done, or on. -/
def looped (idx : Nat) (rc : Rec) (c : Nat) (rest : List (Nat × Nat)) (s : State) (x : Stream) : Stream :=
  { x with
    arm := none, overlap := true, loopAt := some (now s), next := if decide (0 < c) then rc.peer else idx + 1
    loops := if decide (0 < c) then rest ++ [(idx, c - 1)] else rest
    base := if decide (0 < c) then (x.base + rc.launch) % 2 ^ 64 else x.base
    bias := if decide (0 < c) then x.bias + rc.inOff else x.bias
    rec1 := if decide (0 < c) then none else x.rec1
    recAt := if decide (0 < c) then some (now s) else x.recAt }

/-- A LOOP that passes its tests and has, or may have, a count. -/
theorem loopStep_acts (hx : (str s k).st = .running) (ha : (str s k).arm = some (idx, rc, at_, tick)) (hop : rc.opcode = 15)
    (ht : stepTest s k rc = none) (hp : rc.peer < idx) (h2 : 2 ≤ rc.aux) :
    (∀ c, (str s k).loops.find? (fun l => l.1 == idx) = some (idx, c) →
      loopStep k s = modStr k (looped idx rc c ((str s k).loops.filter (fun l => l.1 != idx)) s) s)
    ∧ ((str s k).loops.find? (fun l => l.1 == idx) = none → (str s k).loops.length < 4 →
      loopStep k s = modStr k (looped idx rc (rc.aux - 1) ((str s k).loops.filter (fun l => l.1 != idx)) s) s) := by
  refine ⟨fun c hf => ?_, fun hf hl => ?_⟩
  all_goals
    unfold loopStep
    dsimp only
    rw [ha]
    dsimp only
    rw [if_pos ⟨hx, hop⟩, ht]
    dsimp only
    rw [if_neg (by omega), hf]
  · exact if_neg (fun h => Bool.false_ne_true h.1)
  · exact if_neg (fun h => absurd h.2 (by omega))

end

/-- Settles O40. -/
theorem stepSequence : Obligations.StepSequence := by
  rintro s k x hs rfl hx -
  refine ⟨fun b h1 h2 hn hr => ⟨_, hs.run _, ?_, ?_⟩, fun rc h1 ha hn => ⟨_, hs.run _, ?_, ?_, ?_, ?_, fun j hj => ?_⟩,
    fun idx rc at_ tick ha hop ht hp h2 hf hl => ?_, fun idx rc at_ tick ha hop ht hp h2 hf => ?_⟩
  · rw [commit_str, recordRead_reads hx h1 h2 hn hr, str_modStr_self]
  · rw [commit_regs, recordRead_reads hx h1 h2 hn hr]
    rfl
  · rw [commit_str, stepArm_arms h1 ha hn, str_modStr_self]
    rfl
  · rw [commit_str, stepArm_arms h1 ha hn, str_modStr_self]
    rfl
  · rw [commit_str, stepArm_arms h1 ha hn, str_modStr_self]
    rfl
  · rw [commit_regs, stepArm_arms h1 ha hn]
    rfl
  · rw [commit_str, stepArm_arms h1 ha hn, str_modStr_ne hj]
  · have hd := (loopStep_acts hx ha hop ht hp h2).2 hf hl
    have hc : decide (0 < rc.aux - 1) = true := decide_eq_true (by omega)
    have hstr : str (commit false s (loopStep k s)) k = looped idx rc (rc.aux - 1) ((str s k).loops.filter (fun l => l.1 != idx)) s (str s k) := by
      rw [commit_str, hd, str_modStr_self]
    refine ⟨_, hs.run _, ?_, ?_, ?_, ?_, ?_, ?_⟩
    · rw [hstr, looped, hc]
      rfl
    · rw [hstr, looped, hc]
      rfl
    · rw [hstr, looped, hc]
      rfl
    · rw [hstr, looped, hc]
      exact List.mem_append_right _ (List.mem_singleton_self _)
    · rw [hstr, looped]
    · rw [commit_regs, hd]
      rfl
  · have hd := (loopStep_acts hx ha hop ht hp h2).1 0 hf
    have hstr : str (commit false s (loopStep k s)) k = looped idx rc 0 ((str s k).loops.filter (fun l => l.1 != idx)) s (str s k) := by
      rw [commit_str, hd, str_modStr_self]
    refine ⟨_, hs.run _, ?_, ?_, ?_, ?_, ?_, ?_⟩
    · rw [hstr]
      rfl
    · rw [hstr]
      rfl
    · rw [hstr]
      rfl
    · rw [hstr]
      rfl
    · rw [hstr]
      rfl
    · rw [commit_regs, hd]
      rfl

end Sys2Proof.Machine
end

section
/-! SUPPORT. Steps are launched, and END (R78, R283–R288, R296). -/
namespace Sys2Proof.Machine

section
variable {k n idx at_ tick : Nat} {rc : Rec} {q : Req} {st : Nat} {s s1 s2 : State} {r : Run}

/-! ### The stream that a completion leaves (R296) -/

/-- A stream with no block in use. -/
def noneInUse (x : Stream) : Stream := { x with inUse := 0 }

theorem eq_of_noneInUse {x y : Stream} (h : noneInUse x = noneInUse y) : x = { y with inUse := x.inUse } :=
  congrArg (fun z : Stream => { z with inUse := x.inUse }) h

/-- It stays as it is, blocks of anneal entries apart, or is IDLE. -/
theorem str_complete_cases (n : Nat) (q : Req) (st : Nat) (s : State) :
    (∃ i, str (complete n (some k) q st s) k = { str s k with inUse := i }) ∨ ∃ u, str (complete n (some k) q st s) k = str (toIdle k u) k := by
  have hw : ∃ i, str (completionWrite n (some k) q st s).1 k = { str s k with inUse := i } :=
    ⟨_, eq_of_noneInUse (str_completionWrite (h := noneInUse) (fun _ _ => rfl) n (some k) q st s)⟩
  rw [complete_eq]
  generalize completionWrite n (some k) q st s = w at hw
  have ended (ok : Bool) : (∃ i, str (completionDone ok n (some k) (completionSig q st) w.1) k = { str s k with inUse := i })
      ∨ ∃ u, str (completionDone ok n (some k) (completionSig q st) w.1) k = str (toIdle k u) k := by
    obtain ⟨u, hu, e | e⟩ := completionDone_streams ok n k (completionSig q st) w.1
    · rw [str_congr (e.trans hu)]
      exact .inl hw
    · exact .inr ⟨u, str_congr e k⟩
  cases e : w.2 with
  | done => rw [completionAfter_done e]; exact ended true
  | issued => rw [completionAfter_issued e]; exact .inl hw
  | err x => rw [completionAfter_err e]; exact ended false

/-! ### The circuits of a stream close (R188) -/

theorem rd_closeOwned {b : Nat} (h1 : b ≠ R.parCircuitEvents) (h2 : ∀ m, b ≠ R.parCircuitsOpen m) (h3 : ∀ m, b ≠ R.circuitTbl m)
    (k : Nat) (s : State) : rd (closeOwned k s) b = rd s b := by
  unfold closeOwned
  split
  · unfold closeCircuits recountCircuits
    dsimp only
    rw [forEach_field (rd · b) _ _ (fun m _ s => rd_wrN_ne (h2 m) _ s), forEach_field (rd · b) _ _ (fun m _ s => ?_)]
    split
    · rw [rd_ev_ne h1]
      exact rd_wr_ne (h3 m) 0 s
    · rfl
  · rfl

/-! ### END (R283) -/

/-- The stream of a request that has finished, its circuits closed and its staging released. -/
def finishing (k : Nat) (s : State) : State :=
  modStr k (fun x => { x with finished := true, status := 0 }) (releaseReserve (str s k).part k (closeOwned k s))

theorem endFinish_done (h1 : (str s k).runs = []) (h2 : earlierDone s k = true) :
    endFinish k s = complete (str s k).part (some k) (str s k).req 0 (finishing k s) := by
  unfold endFinish
  dsimp only
  rw [h1, h2]
  exact if_pos rfl

theorem endFinish_waits (h : (str s k).runs ≠ []) : endFinish k s = s := by
  unfold endFinish
  dsimp only
  rw [List.isEmpty_eq_false_iff.mpr h]
  exact if_neg Bool.false_ne_true

/-- END acts: its stream is ENDING, and nothing is armed. -/
def ending (k : Nat) (s : State) : State := modStr k (fun x => { x with st := .ending, arm := none }) s

theorem endStep_acts (hx : (str s k).st = .running) (ha : (str s k).arm = some (idx, rc, at_, tick)) (hop : rc.opcode = 0)
    (ht : stepTest s k rc = none) : endStep k s = endFinish k (ending k s) := by
  unfold endStep
  dsimp only
  rw [hx, ha]
  rw [if_neg (by decide)]
  dsimp only
  rw [if_pos ⟨rfl, hop⟩, ht]
  rfl

/-! ### A launch (R284, R288) -/

theorem boundaryStable_t : BoundaryStable State.t := ⟨switchStable_t.markStable, fun _ _ => rfl⟩

/-- The stream whose armed step is taken. -/
def launching (k : Nat) (rc : Rec) (s : State) : State :=
  modStr k (fun x => { x with
    arm := none, lateArm := x.lateArm || false, overlap := rc.overlap && rc.opcode != 11 && rc.opcode != 12 }) (applyStaged (str s k).part s)

/-- The run of a step as it fires. -/
def firedRun (x : Stream) (idx : Nat) (rc : Rec) (s1 : State) : Run :=
  { rid := x.rid, idx := idx, rc := rc, fired := now s1, base := x.base, bias := x.bias
    late := decide (rc.deadline ≠ 0 ∧ (x.base + rc.deadline) % 2 ^ 64 < mtcN s1) }

/-- The stream in which a step has launched, with its capture. -/
def launched (k : Nat) (rc : Rec) (r : Run) (c : State × Option Nat) : State :=
  let s := modStr k (fun x => { x with rid := x.rid + 1, endedAt := none, runs := x.runs ++ [{ r with cap := c.2 }] }) c.1
  if rc.opcode = 13 then wrN (R.strShdDone k) 0 s else s

theorem str_launched (k : Nat) (rc : Rec) (r : Run) (c : State × Option Nat) : str (launched k rc r c) k =
    { str c.1 k with rid := (str c.1 k).rid + 1, endedAt := none, runs := (str c.1 k).runs ++ [{ r with cap := c.2 }] } := by
  unfold launched
  dsimp only
  split
  · rw [str_congr (markStable_streams.wrN _ _ _), str_modStr_self]
  · rw [str_modStr_self]

theorem launch_runs (hx : (str s k).st = .running) (ha : (str s k).arm = some (idx, rc, at_, tick)) (ht : tick < now s) (hm : at_ ≤ mtcN s)
    (h0 : rc.opcode ≠ 0) (h15 : rc.opcode ≠ 15) (hl : (str s k).lateArmed = false) (hj : s.t.jumpFrom = none)
    (htest : stepTest (launching k rc s) k rc = none)
    (hp : prepare k (firedRun (str s k) idx rc (launching k rc s)) (launching k rc s) = (s2, .ok r)) :
    launch k s = launched k rc r (captureOpen k r false s2) := by
  have hj' : (applyStaged (str s k).part s).t.jumpFrom = none := by rw [boundaryStable_t.applyStaged, hj]
  generalize hf : launch = f
  delta launch at hf
  rw [← hf]
  unfold launched
  unfold launching firedRun at *
  generalize @stepTest = test at *
  generalize @prepare = prep at *
  generalize @captureOpen = capture at *
  generalize @faultStream = fault at *
  generalize @faultMem = faultAt at *
  dsimp only
  rw [ha]
  dsimp only
  rw [if_pos ⟨hx, ht, hm, h0, h15⟩, hl]
  rw [if_neg Bool.false_ne_true, hj']
  dsimp only
  rw [if_neg (by decide), htest]
  dsimp only
  rw [hp]

/-- A capture leaves its stream's steps and its arming. -/
theorem captureOpen_field {α : Type} {h : Stream → α} (hc : ∀ x, h { x with captured := true } = h x) (r : Run) (late : Bool) (s : State) :
    h (str (captureOpen k r late s).1 k) = h (str s k) := by
  unfold captureOpen
  dsimp only
  split
  · split
    · exact str_modStr_field hc k k _
    · rfl
  · rfl

theorem str_finishing (k : Nat) (s : State) : ∃ d, str (finishing k s) k =
    { str s k with finished := true, status := 0, reserve := 0, drawn := d, inUse := 0 } := by
  have hc : str (closeOwned k s) k = str s k := str_congr (markStable_streams.closeOwned k s) k
  unfold finishing releaseReserve
  dsimp only
  rw [str_modStr_self, str_congr (ledgerStable_streams.modPar _ _ _), str_modStr_self, hc]
  exact ⟨_, rfl⟩

/-- Finishing a request leaves the tail of its completion ring. -/
theorem rd_finishing (m : Nat) (hm : m < 16) : rd (finishing k s) (R.parCplTail m) = rd s (R.parCplTail m) := by
  unfold finishing releaseReserve
  dsimp only
  rw [rd_modStr, rd_modPar, rd_modStr]
  exact rd_closeOwned (by unfold R.parCplTail R.parCircuitEvents; omega) (fun i => by unfold R.parCplTail R.parCircuitsOpen; omega)
    (fun i => by unfold R.parCplTail R.circuitTbl; omega) k s

/-! ### The clauses -/

/-- What END leaves when its request completes. -/
theorem end_clause (hs : s.Ready) (hx : (str s k).st = .running) (hn : (str s k).part < 16) (ha : (str s k).arm = some (idx, rc, at_, tick))
    (hop : rc.opcode = 0) (ht : stepTest s k rc = none) (hr : (str s k).runs = []) (hd : earlierDone s k = true) :
    ∃ t, exec (.stepEnd k) s = .next t ∧ ((str t k).st = .ending ∨ (str t k).st = .idle) ∧ (str t k).arm = none ∧ (str t k).reserve = 0
      ∧ rdN t (R.parCplTail (str s k).part) = (rdN s (R.parCplTail (str s k).part) + 1) % 2 ^ 32 := by
  have hsx : str (ending k s) k = { str s k with st := .ending, arm := none } := str_modStr_self _ _ _
  have hed : earlierDone (ending k s) k = true := by
    unfold earlierDone at hd ⊢
    rw [hsx]
    exact hd
  have he := endStep_acts hx ha hop ht
  rw [endFinish_done (by rw [hsx]; exact hr) hed, hsx] at he
  obtain ⟨d, hf⟩ := str_finishing k (ending k s)
  rw [hsx] at hf
  have hc := str_complete_cases (k := k) (str s k).part (str s k).req 0 (finishing k (ending k s))
  rw [hf] at hc
  refine ⟨_, hs.run _, ?_, ?_, ?_, ?_⟩
  · rw [commit_str, he]
    exact hc.imp (fun ⟨i, e⟩ => by rw [e]) (fun ⟨u, e⟩ => by rw [e]; exact (toIdle_str k u).2)
  · rw [commit_str, he]
    exact hc.elim (fun ⟨i, e⟩ => by rw [e]) (fun ⟨u, e⟩ => by rw [e, toIdle, str_modStr_self])
  · rw [commit_str, he]
    exact hc.elim (fun ⟨i, e⟩ => by rw [e]) (fun ⟨u, e⟩ => by rw [e, toIdle, str_modStr_self])
  · rw [commit_rdN, he, rdN_eq_toNat_rd, rd_complete (strParReg_par (by unfold R.parCplTail; omega) (by unfold R.parCplTail; omega))
      (by unfold R.parCplTail R.parEvents; omega), ← rdN_eq_toNat_rd, rdN_completionTail, rdN_eq_toNat_rd, rd_finishing _ hn]
    rfl

end

/-- Settles O41. -/
theorem launchAndEnd : Obligations.LaunchAndEnd := by
  rintro s k x idx rc at_ tick hs hk rfl hx hn ha
  refine ⟨?_, fun hop ht hr hd _ => end_clause hs hx hn ha hop ht hr hd, fun hop ht hr => ?_⟩
  · rintro s1 s2 r ht hm h0 h15 hl hj rfl htest hp
    have hd := launch_runs hx ha ht hm h0 h15 hl hj htest hp
    refine ⟨_, (captureOpen k r false s2).2, hs.run _, ?_, ?_, ?_⟩
    all_goals rw [commit_str, hd, str_launched]
    · exact congrArg (· ++ _) (captureOpen_field (h := Stream.runs) (fun _ => rfl) r false s2)
    · exact congrArg (· + 1) (captureOpen_field (h := Stream.rid) (fun _ => rfl) r false s2)
    · exact captureOpen_field (h := Stream.arm) (fun _ => rfl) r false s2
  · have he := endStep_acts hx ha hop ht
    have hsx : str (ending k s) k = { str s k with st := .ending, arm := none } := str_modStr_self _ _ _
    rw [endFinish_waits (by rw [hsx]; exact hr)] at he
    refine ⟨_, hs.run _, ?_, ?_, ?_, ?_⟩
    · rw [commit_str, he, hsx]
    · rw [commit_str, he, hsx]
    · rw [commit_str, he, hsx]
    · rw [commit_regs, he]
      rfl

end Sys2Proof.Machine
end

section
/-! SUPPORT. Writes to the own slot that go to the store, and the ends of steps that no capture follows (R224, R283). -/
namespace Sys2Proof.Machine

variable {k idx n a off rid : Nat} {r : Run} {s t : State} {b : List Byte}

/-! ### A write that goes to the store (R224, R234) -/

/-- A write of the own slot whose bytes lie in the store and that a window allows is done at once. -/
theorem localWrite_store (q : s.Quiet) {x : Option Nat} {ws : List Win} {o : Owner} (hs : slotOf a = ownSlot s)
    (hl : offOf a + b.length ≤ 2 ^ 44) (hp : placeOf s (offOf a) b.length = .store off) (hw : windowOk ws a b.length .write false = true) :
    localWrite x ws n a b o s = (storeWrite off b s, .done) := by
  have hg : ¬ (slotOf a ≠ ownSlot s ∨ 2 ^ 44 < offOf a + b.length) := by
    rintro (h | h)
    · exact h hs
    · omega
  unfold localWrite
  rw [if_neg hg]
  simp -zeta only [hp, windowCheck_quiet q hw]
  rfl

/-- The bytes are at the offset in the store, and every other byte is as it was. -/
def Written (off : Nat) (b : List Byte) (s t : State) : Prop :=
  (∀ i, i < b.length → stgGet t (off + i) = b.getD i 0) ∧ ∀ x, x < off ∨ off + b.length ≤ x → stgGet t x = stgGet s x

/-- What a command that wrote to the store leaves there. -/
theorem written_commit {u v : State} {c : Bool} (h0 : v.stg = s.stg) (h1 : u.stg = v.stg) (h2 : u.writes = (storeWrite off b v).writes) :
    Written off b v (commit c s u) := by
  have hg (x : Nat) : stgGet (commit c s u) x = stgGet (storeWrite off b v) x :=
    (stgGet_commit c (h1.trans h0) x).trans (stgGet_congr (s := storeWrite off b v) h1 h2 x)
  exact ⟨fun i hi => (hg _).trans (stgGet_storeWrite_in hi v), fun x hx => (hg x).trans (stgGet_storeWrite_out hx v)⟩

theorem Written.read (h : Written off b s t) : stgRead t off b.length = b := stgRead_of_get h.1

/-! ### The end of a step that no capture follows -/

/-- The run of that number, if there is one, is followed by no capture. -/
def Uncaptured (s : State) (k rid : Nat) : Prop := ∀ r, runOf s k rid = some r → r.cap = none

/-- A reading of the state that depends on nothing the end of such a step changes; the store is not among it. -/
structure CloseStable {α : Type} (g : State → α) : Prop extends MarkStable g where
  streams : ∀ x s, g { s with streams := x } = g s
  asms : ∀ x s, g { s with asms := x } = g s
  landed : ∀ x s, g { s with landed := x } = g s

namespace CloseStable
variable {α : Type} {g : State → α}

theorem modStr (h : CloseStable g) (n : Nat) (f : Stream → Stream) (s : State) : g (modStr n f s) = g s := h.streams _ s
theorem modRun (h : CloseStable g) (n r : Nat) (f : Run → Run) (s : State) : g (modRun n r f s) = g s := h.modStr _ _ s

theorem dropIncomplete (h : CloseStable g) (k : Nat) (r : Run) (s : State) : g (dropIncomplete k r s) = g s := by
  unfold Machine.dropIncomplete
  exact (h.modStr _ _ _).trans ((h.cntBy _ _ _).trans (h.asms _ _))

theorem closeStep (h : CloseStable g) (k : Nat) (r : Run) (s : State) : g (closeStep k r s) = g s := by
  unfold Machine.closeStep
  dsimp only
  split
  · split
    · exact (h.landed _ _).trans (h.modStr _ _ s)
    · rfl
  · exact h.modStr _ _ s

theorem endRun (h : CloseStable g) (hc : Uncaptured s k rid) : g (endRun k rid s) = g s := by
  unfold Machine.endRun
  split
  · rfl
  · next r hr =>
    have hcap : capEnd r.cap 0 false s = s := by rw [hc r hr]; rfl
    dsimp only
    rw [hcap, h.modStr]
    split
    · rw [h.closeStep, h.dropIncomplete]
    · rfl

theorem settleRun (h : CloseStable g) (hc : Uncaptured s k rid) : g (settleRun k rid s) = g s := by
  rcases settleRun_eq k rid s with e | e <;> rw [e]
  exact h.endRun hc

end CloseStable

theorem closeStable_stg : CloseStable State.stg := by
  repeat' first | exact switchStable_stg.markStable | constructor
  all_goals intros; rfl

theorem closeStable_writes : CloseStable State.writes := by
  repeat' first | exact answerStable_writes.markStable | constructor
  all_goals intros; rfl

theorem captureStable_streams : CaptureStable State.streams := by
  repeat' first | exact markStable_streams | constructor
  all_goals intros; rfl

theorem dropIncomplete_runs (k : Nat) (r : Run) (s : State) : (str (dropIncomplete k r s) k).runs = (str s k).runs := by
  unfold dropIncomplete giveBlocks
  exact (str_modStr_field (h := Stream.runs) (by intro x; rfl) k k _).trans
    (congrArg Stream.runs (str_congr (markStable_streams.cntBy _ _ _) k))

theorem closeStep_runs (k : Nat) (r : Run) (s : State) : (str (closeStep k r s) k).runs = (str s k).runs := by
  unfold closeStep
  dsimp only
  split
  · split
    · exact str_modStr_field (h := Stream.runs) (f := fun x => { x with closed := _ }) (by intro x; rfl) k k s
    · rfl
  · exact str_modStr_field (h := Stream.runs) (by intro x; rfl) k k s

theorem runOf_modRun_none {f : Run → Run} (hf : ∀ q, (f q).rid = q.rid) (h : runOf s k rid = none) :
    runOf (modRun k rid f s) k rid = none := by
  refine List.find?_eq_none.mpr fun q hq => ?_
  unfold modRun at hq
  rw [str_modStr_self] at hq
  obtain ⟨p, hp, rfl⟩ := List.mem_map.mp hq
  have := List.find?_eq_none.mp h p hp
  split
  · rwa [hf]
  · exact this

/-- A step that ends leaves the other steps of its stream. -/
theorem endRun_runs (k rid : Nat) (s : State) : (str (endRun k rid s) k).runs = (str s k).runs.filter (fun q => q.rid != rid) := by
  unfold endRun
  split
  · next h =>
    refine (List.filter_eq_self.mpr fun q hq => ?_).symm
    have := List.find?_eq_none.mp h q hq
    rwa [Bool.not_eq_true, ← Bool.not_eq_true'] at this
  · next r _ =>
    have hcap : (str (capEnd r.cap 0 false s) k).runs = (str s k).runs :=
      congrArg Stream.runs (str_congr (captureStable_streams.capEnd r.cap 0 false s) k)
    dsimp only
    rw [str_modStr_self]
    dsimp only
    split
    · rw [closeStep_runs, dropIncomplete_runs, hcap]
    · rw [hcap]

theorem uncaptured_of (h : runOf s k rid = some r) (hc : r.cap = none) : Uncaptured s k rid := by
  intro q hq
  rw [h, Option.some.injEq] at hq
  rw [← hq, hc]

theorem uncaptured_modRun {f : Run → Run} (hf : ∀ q, (f q).rid = q.rid) (hc : ∀ q, (f q).cap = q.cap) (h : Uncaptured s k rid) :
    Uncaptured (modRun k rid f s) k rid := by
  intro q hq
  cases hr : runOf s k rid with
  | none => rw [runOf_modRun_none hf hr] at hq; cases hq
  | some r =>
    rw [runOf_modRun hf hr, Option.some.injEq] at hq
    rw [← hq, hc, h r hr]

theorem uncaptured_settleRun (h : Uncaptured s k rid) : Uncaptured (settleRun k rid s) k rid := by
  rcases settleRun_eq k rid s with e | e <;> rw [e]
  · exact h
  · intro q hq
    have hk := runOf_key hq
    have hm := List.mem_of_find?_eq_some hq
    rw [endRun_runs] at hm
    have := (List.mem_filter.mp hm).2
    rw [hk, bne_self_eq_false] at this
    cases this

end Sys2Proof.Machine
end

section
/-! SUPPORT. Steps that move no chunk, circuits and signal words (R186–R188, R250, R283, R298). -/
namespace Sys2Proof.Machine

section
variable {k idx n e rid off : Nat} {r : Run} {s t : State}

theorem onRun_some {f : Run → State → State} (h : runAt s k idx = some r) : onRun k idx f s = f r s := by
  unfold onRun
  rw [h]

theorem acting_ended (h : acting s r = true) : r.ended = false := by
  unfold acting at h
  rw [Bool.and_eq_true] at h
  exact (Bool.not_eq_true' _).mp h.2

theorem run_filtered (k rid : Nat) (b : Bool) (s : State) :
    (str (commit b s (endRun k rid s)) k).runs = (str s k).runs.filter (fun q => q.rid != rid) := by
  rw [commit_str, endRun_runs]

/-! ### Circuits -/

theorem rd_recountCircuits {a : Nat} (h : ∀ m, m < 16 → a ≠ R.parCircuitsOpen m) (s : State) : rd (recountCircuits s) a = rd s a := by
  unfold recountCircuits
  refine forEach_field (rd · a) _ _ (fun m hm s => rd_wrN_ne (h m ?_) _ s) s
  have := List.mem_range'_1.1 hm
  omega

/-- A step that neither takes chunks nor is captured ends without a mark in any register. -/
theorem regs_endRun (hr : runOf s k rid = some r) (hc : r.cap = none) (hv : r.receives = false) : (endRun k rid s).regs = s.regs := by
  unfold endRun
  rw [hr]
  dsimp only
  rw [hc, hv, if_neg Bool.false_ne_true]
  rfl

theorem runOf_tblWrite (a : Nat) (w : Word) : runOf (recountCircuits (tblWrite a w s)) k rid = runOf s k rid :=
  runOf_congr ((markStable_streams.recountCircuits _).trans (markStable_streams.tblWrite a w s)) k rid

/-- A circuit step writes its entry and ends. -/
theorem circuit_written (hr : runOf s k rid = some r) (hc : r.cap = none) (hv : r.receives = false) (e : Nat) (w : Word) :
    rd (endRun k rid (recountCircuits (tblWrite (R.circuitTbl e) w s))) (R.circuitTbl e) = w
    ∧ (str (endRun k rid (recountCircuits (tblWrite (R.circuitTbl e) w s))) k).runs = (str s k).runs.filter (fun q => q.rid != rid) := by
  have hne (m : Nat) (hm : m < 16) : R.circuitTbl e ≠ R.parCircuitsOpen m := by
    unfold R.circuitTbl R.parCircuitsOpen
    omega
  refine ⟨?_, ?_⟩
  · rw [rd, regs_endRun ((runOf_tblWrite _ _).trans hr) hc hv]
    exact (rd_recountCircuits hne _).trans (rd_wr_self _ _ _)
  · rw [endRun_runs, str_congr ((markStable_streams.recountCircuits _).trans (markStable_streams.tblWrite _ w s))]

theorem openCircuit_opens {i o : Nat} (hop : r.op = 8) (ha : acting s r = true) (hn : n = (str s k).part) (hi : i = nbits r.rc.aux 4 0)
    (ho : o = nbits r.rc.aux 9 5) (hq : rdN s (R.parCircuitsOpen n) < rfld s (R.parCircuitQuota n) 7 0)
    (hc : circuitNow s i (r.peerStr k) = none) (h4 : 4 ≤ i) (hb : badOut o = false) (hf : freeCircuit s = some e) :
    openCircuit k r s = endRun k r.rid (recountCircuits (tblWrite (R.circuitTbl e)
      (BitVec.ofNat 32 (2 ^ 31 + n * 2 ^ 27 + i * 2 ^ 22 + r.peerStr k % 256 * 2 ^ 14 + o * 2 ^ 9 + k % 256 * 2)) s)) := by
  subst hn hi ho
  unfold openCircuit
  rw [if_pos ⟨hop, ha⟩]
  dsimp only
  rw [if_neg (by omega), hc, if_neg (by simp), if_neg (fun h => h.elim (by omega) (by rw [hb]; exact Bool.false_ne_true)), hf]

theorem closeCircuit_closes (hop : r.op = 9) (ha : acting s r = true) (hc : circuitNow s (nbits r.rc.aux 4 0) (r.peerStr k) = some e)
    (hp : rfld s (R.circuitTbl e) 30 27 = (str s k).part) :
    closeCircuit k r s = endRun k r.rid (recountCircuits (tblWrite (R.circuitTbl e) 0 s)) := by
  unfold closeCircuit
  rw [if_pos ⟨hop, ha⟩]
  dsimp only
  rw [hc]
  dsimp only
  rw [if_pos hp]

theorem receives_of_op {m : Nat} (hop : r.op = m) (h : m ≠ 2 ∧ m ≠ 3 ∧ m ≠ 4) : r.receives = false := by
  unfold Run.receives
  rw [hop]
  simp [h]

/-! ### Signal words (R298) -/

/-- SIGNAL of kind RANK writes its progress word to the store. -/
theorem signalRank_store {b : List Byte} (q : s.Quiet) (ha : acting s r = true) (hd : r.done = 0)
    (hb : b = bytesLE 8 ((str s k).req.step % 2 ^ 32 + r.rc.aux % 65536 * 2 ^ 32 + 2 ^ 57))
    (hs : slotOf (str s k).req.sigAddr = ownSlot s) (hl : offOf (str s k).req.sigAddr + b.length ≤ 2 ^ 44)
    (hp : placeOf s (offOf (str s k).req.sigAddr) b.length = .store off)
    (hw : windowOk r.win (str s k).req.sigAddr b.length .write false = true) :
    signalRank k r s = settleRun k r.rid (modRun k r.rid (fun q => { q with done := 1 }) (storeWrite off b s)) := by
  unfold signalRank
  rw [if_pos ⟨ha, hd⟩]
  dsimp only
  rw [← hb, localWrite_store q hs hl hp hw]

/-- A signal word that waits is written to the store. -/
theorem signalWord_store {a v : Nat} {b : List Byte} (q : s.Quiet) (hf : s.signals.find? (fun e => e.1 == n) = some (n, a, v))
    (hb : b = bytesLE 8 v) (hs : slotOf a = ownSlot s) (hl : offOf a + b.length ≤ 2 ^ 44)
    (hp : placeOf s (offOf a) b.length = .store off) (hw : windowOk (winsOf s n) a b.length .write false = true) :
    signalWord n s = storeWrite off b { s with signals := s.signals.erase (n, a, v) } := by
  unfold signalWord
  rw [hf]
  dsimp only
  have hq : State.Quiet { s with signals := s.signals.erase (n, a, v) } := q
  rw [← hb, localWrite_store hq hs hl (by rw [← hp]; exact placeOf_congr rfl _ _)
    (show windowOk (winsOf { s with signals := s.signals.erase (n, a, v) } n) a b.length .write false = true from hw)]

/-- The word SIGNAL of kind BOARD leaves (R251). -/
def addedWord (off : Nat) (r : Run) (s : State) : List Byte := bytesLE 4 ((natLE (stgRead s off 4) + r.rc.aux) % 2 ^ 32)

theorem atomicDo_add (q : s.Quiet) (hb : s.stgBad = []) (p st m c : Nat) (x : Option Nat) :
    atomicDo p st x m off 1 r.rc.aux c s = (storeWrite off (addedWord off r s) s, some (natLE (stgRead s off 4))) := by
  unfold atomicDo
  rw [storeReadAt_quiet q hb]
  rfl

set_option smartUnfolding false in
/-- SIGNAL of kind BOARD adds to a word of the own store at once. -/
theorem accessNext_signal {loc a : Nat} {data : List Byte} (q : s.Quiet) (hbad : s.stgBad = []) (hr : runOf s k r.rid = some r)
    (ha : acting s r = true) (hi : isolated s k = false) (hop : r.op = 14) (hk : r.kind = 4) (hd : r.done = 0)
    (hloc : loc = bufOf s k r.rc.inSel + r.rc.inOff) (haddr : a = withSlot loc r.slot) (hb : badShape true a 4 = false)
    (hsl : slotOf loc = ownSlot s) (hrs : r.slot = ownSlot s) (hp : placeOf s (offOf a) 4 = .store off)
    (hw : windowOk r.win a 4 .atomic false = true) :
    accessNext k r.rid data s = accessDone k r.rid (settleRun k r.rid (modRun k r.rid (fun r => { r with done := r.done + 1 })
      (storeWrite off (addedWord off r s) s))) := by
  have hsig : (r.op == 14) = true := by rw [hop]; rfl
  generalize hf : accessNext = f
  delta accessNext at hf
  rw [← hf]
  refine (casesOn_some hr).trans ?_
  refine (if_pos ?_).trans ?_
  · rw [ha, hi, hk, hop, hd]
    rfl
  refine (if_neg ?_).trans ?_
  · rintro ⟨h, -⟩
    rcases h with h | ⟨h, -⟩ <;> rw [hop] at h <;> cases h
  refine (if_neg ?_).trans ?_
  · rw [hsig]
    exact Bool.false_ne_true
  have hloc' : (if (r.op == 14) = true then bufOf s k r.rc.inSel + r.rc.inOff else if r.op = 1 then inAddr s k r r.done
      else outAddr s k r (r.rc.outOff + r.bias + r.done)) = loc := by
    rw [if_pos hsig, hloc]
  have hlen : (if (r.op == 14) = true then 4 else 4096) = 4 := if_pos hsig
  refine (if_neg ?_).trans ?_
  · rw [hloc', hlen, ← haddr, hsig, hb, hsl]
    simp
  refine (if_pos hrs).trans ((if_pos hsig).trans ?_)
  rw [hloc', ← haddr]
  generalize @placeOf = place at hp ⊢
  rw [hp]
  refine Eq.trans (if_neg (by rw [windowCheck_quiet q hw]; exact Bool.false_ne_true)) ?_
  rw [windowCheck_quiet q hw]
  rw [atomicDo_add q hbad]

theorem closed_settleRun {α : Type} {g : State → α} (h : CloseStable g) {f : Run → Run} (hf : ∀ q, (f q).rid = q.rid)
    (hc : ∀ q, (f q).cap = q.cap) (hu : Uncaptured s k rid) : g (settleRun k rid (modRun k rid f s)) = g s := by
  rw [h.settleRun (uncaptured_modRun hf hc hu), h.modRun]

theorem closed_accessDone {α : Type} {g : State → α} (h : CloseStable g) (hu : Uncaptured s k rid) : g (accessDone k rid s) = g s :=
  closed_settleRun h (fun _ => rfl) (fun _ => rfl) hu

/-- A step that wrote to the store and may have ended leaves its bytes there. -/
theorem written_settle {b : List Byte} {v : State} {c : Bool} {f : Run → Run} (h0 : v.stg = s.stg) (hf : ∀ q, (f q).rid = q.rid)
    (hc : ∀ q, (f q).cap = q.cap) (hu : Uncaptured v k rid) :
    Written off b v (commit c s (settleRun k rid (modRun k rid f (storeWrite off b v)))) :=
  written_commit h0 (closed_settleRun (s := storeWrite off b v) closeStable_stg hf hc hu)
    (closed_settleRun (s := storeWrite off b v) closeStable_writes hf hc hu)

theorem Written.bytesLE {m v : Nat} (h : Written off (bytesLE m v) s t) : stgRead t off m = Machine.bytesLE m v
    ∧ ∀ x, x < off ∨ off + m ≤ x → stgGet t x = stgGet s x := by
  have hr := h.read
  have hx := h.2
  rw [bytesLE_length] at hr hx
  exact ⟨hr, hx⟩

end

/-- Settles O42: steps that move no chunk end, and signal words go to their places. -/
theorem stepsWithoutData : Obligations.StepsWithoutData := by
  refine ⟨fun s k idx r hs _ hr hrun => ⟨?_, ?_, ?_, ?_, ?_, ?_, ?_⟩, fun s hs q => ⟨?_, ?_, ?_⟩⟩
  · intro hop
    refine ⟨_, hs.run _, ?_⟩
    rw [onRun_some hr, waitTime, if_pos hop]
    exact run_filtered _ _ _ _
  · intro hop ha hf
    refine ⟨_, hs.run _, ?_⟩
    rw [onRun_some hr, barrier, if_pos ⟨hop, ha, hf⟩]
    exact run_filtered _ _ _ _
  · intro _ hf
    refine hs.run_self ?_
    rw [onRun_some hr, barrier, if_neg (by rw [hf]; simp)]
  · intro hop ha hf hd
    refine ⟨_, hs.run _, ?_⟩
    rw [onRun_some hr, fence, if_pos ⟨hop, ha, hf, hd⟩]
    exact run_filtered _ _ _ _
  · intro _ hd
    refine hs.run_self ?_
    rw [onRun_some hr, fence, if_neg (by rw [hd]; simp)]
  · intro n e i o hop hc ha hn _ hi ho hq hno h4 hb hf
    have hw := circuit_written hrun hc (receives_of_op hop (by decide)) e
      (BitVec.ofNat 32 (2 ^ 31 + n * 2 ^ 27 + i * 2 ^ 22 + r.peerStr k % 256 * 2 ^ 14 + o * 2 ^ 9 + k % 256 * 2))
    refine ⟨_, hs.run _, ?_, ?_⟩
    all_goals rw [onRun_some hr, openCircuit_opens hop ha hn hi ho hq hno h4 hb hf]
    · exact hw.2
    · rw [commit_rd]
      exact hw.1
  · intro e hop hc ha hcirc hp
    have hw := circuit_written hrun hc (receives_of_op hop (by decide)) e 0
    refine ⟨_, hs.run _, ?_, ?_⟩
    all_goals rw [onRun_some hr, closeCircuit_closes hop ha hcirc hp]
    · exact hw.2
    · rw [commit_rd]
      exact hw.1
  · intro k idx r off _ hr hrun hop hk hc ha hd hsl hp hl hw
    have hu : Uncaptured s k r.rid := uncaptured_of hrun hc
    generalize hv : (str s k).req.step % 2 ^ 32 + r.rc.aux % 65536 * 2 ^ 32 + 2 ^ 57 = v
    have hsig := signalRank_store q ha hd (congrArg (bytesLE 8) hv.symm) hsl (by rw [bytesLE_length]; exact hl) (by rw [bytesLE_length]; exact hp)
      (by rw [bytesLE_length]; exact hw)
    refine ⟨_, hs.run _, ?_⟩
    rw [onRun_some hr, if_neg (by omega), if_neg hk, hsig]
    have hW := written_settle (off := off) (b := bytesLE 8 v) (c := false) (f := fun q => { q with done := 1 }) (Eq.refl s.stg)
      (fun _ => rfl) (fun _ => rfl) hu
    exact hW.bytesLE
  · intro k idx r loc off _ hr hrun hop hk hc ha hd hi hloc hsl hrs hb hp hbad hw
    have hu : Uncaptured (storeWrite off (addedWord off r s) s) k r.rid := uncaptured_of hrun hc
    have h1 := uncaptured_settleRun (uncaptured_modRun (f := fun r => { r with done := r.done + 1 }) (fun _ => rfl) (fun _ => rfl) hu)
    have hsig := accessNext_signal (data := []) q hbad hrun ha hi hop hk hd hloc rfl hb hsl hrs hp hw
    refine ⟨_, hs.run _, ?_⟩
    rw [onRun_some hr, if_neg (by omega), if_pos hk, hsig]
    refine Written.bytesLE (written_commit rfl ?_ ?_)
    · exact (closed_accessDone closeStable_stg h1).trans (closed_settleRun closeStable_stg (fun _ => rfl) (fun _ => rfl) hu)
    · exact (closed_accessDone closeStable_writes h1).trans (closed_settleRun closeStable_writes (fun _ => rfl) (fun _ => rfl) hu)
  · intro n a v off _ hf hsl hp hl hw
    have hsig := signalWord_store q hf rfl hsl (by rw [bytesLE_length]; exact hl) (by rw [bytesLE_length]; exact hp)
      (by rw [bytesLE_length]; exact hw)
    refine ⟨_, hs.run _, ?_, ?_, ?_⟩
    · rw [hsig]
      rfl
    · rw [commit_regs, hsig]
      rfl
    · rw [hsig]
      exact Written.bytesLE (written_commit (v := s) rfl rfl rfl)

end Sys2Proof.Machine
end

section
/-! SUPPORT. Local reads that succeed, and output chunks written to the store (R224, R234, R255, R306). -/
namespace Sys2Proof.Machine

section
variable {k idx n a off rid len : Nat} {r : Run} {s s0 t : State} {b data : List Byte}

/-! ### Local reads that succeed -/

theorem windowCheck_fails {x : Option Nat} {ws : List Win} {o c : Nat} {m : WKind} {br : Bool} (h : windowOk ws a len m br ≠ true) :
    (windowCheck x ws n a len m br o c s).2 = false := by
  unfold windowCheck windowCheckAt
  rw [if_neg h]

theorem storeRead_ok (q : s.Quiet) {x : Option Nat} (h : (storeRead x n off len s).2 = some b) :
    (storeRead x n off len s).1 = s := by
  unfold storeRead storeReadAt at h ⊢
  split at h
  · cases h
  · rw [awlFire_quiet q]
    exact if_neg Bool.false_ne_true ▸ rfl

/-- With no injection point armed a read that succeeds is one of the store, which changes nothing, or one over the package
interface. -/
theorem localRead_ok (q : s.Quiet) {x : Option Nat} {ws : List Win} (h : localRead x ws n a len data s = (s0, .ok b)) :
    s0 = s ∨ s0 = (pkgRead a len data s).1 := by
  unfold localRead at h
  generalize placeOf s (offOf a) len = p at h
  generalize hc : windowCheck x ws n a len .read false 0x1FFF 0 s = w at h
  by_cases hw : windowOk ws a len .read false = true
  · have hz : w = (s, true) := hc.symm.trans (windowCheck_quiet q hw)
    have h1 : w.1 = s := congrArg Prod.fst hz
    have h2 : ¬ (!w.2) = true := by rw [hz]; exact Bool.false_ne_true
    cases p with
    | bad =>
      dsimp only at h
      split at h <;> cases h
    | store o =>
      dsimp only at h
      rw [if_neg h2] at h
      split at h
      · cases h
      · split at h
        · next hb =>
          cases h
          exact .inl ((storeRead_ok (by rw [h1]; exact q) hb).trans h1)
        · cases h
    | accel =>
      dsimp only at h
      rw [if_neg h2] at h
      split at h
      · cases h
      · split at h
        · split at h
          · cases h
            exact .inr (by rw [h1])
          · cases h
        · cases h
  · have hf := windowCheck_fails (x := x) (n := n) (o := 0x1FFF) (c := 0) (s := s) hw
    rw [hc] at hf
    have h2 : (!w.2) = true := by rw [hf]; rfl
    cases p with
    | bad =>
      dsimp only at h
      split at h <;> cases h
    | store o =>
      dsimp only at h
      rw [if_pos h2] at h
      split at h <;> cases h
    | accel =>
      dsimp only at h
      rw [if_pos h2] at h
      split at h <;> cases h

end

/-- A reading of the state that depends on nothing a read over the package interface changes. -/
structure PackageStable {α : Type} (g : State → α) : Prop extends MarkStable g where
  out : ∀ o s, g (emit o s) = g s
  txnId : ∀ n s, g { s with txnId := n } = g s
  pkgSet : ∀ x s, g { s with pkgSet := x } = g s

namespace PackageStable
variable {α : Type} {g : State → α}

theorem beatsIn (h : PackageStable g) (l : List Nat) (s : State) : g (beatsIn l s).1 = g s := by
  induction l generalizing s with
  | nil => rfl
  | cons n l ih =>
    unfold Machine.beatsIn
    dsimp only
    split
    · exact h.awlFire _ _ _ _ s
    · rw [ih, h.awlFire]

theorem beatFailed (h : PackageStable g) (n : Nat) (inj : Bool) (s : State) : g (beatFailed n inj s) = g s := by
  unfold Machine.beatFailed
  dsimp only
  split
  · rw [h.ev, h.raise _ (show 5 < 32 by decide), h.cnt]
  · rw [h.raise _ (show 5 < 32 by decide), h.cnt]

theorem readIssues (h : PackageStable g) (id a len : Nat) (b : Option (List Byte)) (m : Nat) (f : List Byte) (s : State) :
    g (readIssues id a len b m f s).1 = g s := by
  induction m generalizing b f s with
  | zero => rfl
  | succ m ih =>
    unfold Machine.readIssues
    dsimp only
    have again (p : Nat) (inj : Bool) (s : State) :
        g (if m = 0 then Machine.beatFailed p inj s else cnt R.memPkgRetryCount (Machine.beatFailed p inj s)) = g s := by
      split
      · exact h.beatFailed p inj s
      · rw [h.cnt, h.beatFailed]
    split
    · rw [ih, again, h.out, h.pkgSet]
    · split
      · rw [h.out, h.pkgSet]
      · split
        · rw [h.beatsIn, h.out, h.pkgSet]
        · rw [ih, again, h.beatsIn, h.out, h.pkgSet]

theorem pkgRead (h : PackageStable g) (a len : Nat) (data : List Byte) (s : State) : g (pkgRead a len data s).1 = g s := by
  unfold Machine.pkgRead
  dsimp only
  generalize hr : (if len ≤ data.length ∧ data.length - len ≤ 3 then
    Machine.readIssues s.txnId a len (some (data.drop (data.length - len))) 4 (data.take (data.length - len)) { s with txnId := s.txnId + 1 }
    else Machine.readIssues s.txnId a len none 4 data { s with txnId := s.txnId + 1 }) = r
  have hg : g r.1 = g s := by
    rw [← hr]
    split <;> rw [h.readIssues, h.txnId]
  split
  · exact hg
  · rw [h.ev, hg]

end PackageStable

theorem PackageStable.localRead_ok {α : Type} {g : State → α} (h : PackageStable g) {n a len : Nat} {s s0 : State} {b data : List Byte}
    (q : s.Quiet) {x : Option Nat} {ws : List Win} (hr : localRead x ws n a len data s = (s0, .ok b)) : g s0 = g s := by
  rcases Machine.localRead_ok q hr with e | e <;> rw [e]
  exact h.pkgRead a len data s

theorem packageStable_streams : PackageStable State.streams := by
  repeat' first | exact markStable_streams | constructor
  all_goals intros; rfl
theorem packageStable_stg : PackageStable State.stg := by
  repeat' first | exact switchStable_stg.markStable | constructor
  all_goals intros; rfl

end Sys2Proof.Machine
end

section
/-! SUPPORT. Steps that write their output buffer (R283, R306, R309, R346). -/
namespace Sys2Proof.Machine

section
variable {k idx n a off rid len : Nat} {r : Run} {s s0 t v : State} {b data : List Byte}

/-! ### Which runs a capture follows -/

/-- The runs of a stream, by number and capture. -/
def captures (s : State) (k : Nat) : List (Nat × Option Nat) := (str s k).runs.map (fun q => (q.rid, q.cap))

theorem uncaptured_iff : Uncaptured s k rid ↔ ∀ c ∈ ((captures s k).find? (fun q => q.1 == rid)), c.2 = none := by
  unfold Uncaptured captures runOf
  rw [List.find?_map]
  show _ ↔ ∀ c ∈ ((str s k).runs.find? (fun q => q.rid == rid)).map _, _
  simp

theorem uncaptured_congr (h : captures t k = captures s k) (hu : Uncaptured s k rid) : Uncaptured t k rid := by
  rw [uncaptured_iff, h]
  exact uncaptured_iff.mp hu

theorem captures_modRun {f : Run → Run} (hf : ∀ q, (f q).rid = q.rid ∧ (f q).cap = q.cap) :
    captures (modRun k rid f s) k = captures s k := by
  unfold captures modRun
  rw [str_modStr_self]
  dsimp only
  rw [List.map_map]
  refine List.map_congr_left fun q _ => ?_
  rw [Function.comp]
  split
  · rw [(hf q).1, (hf q).2]
  · rfl

theorem captures_modStr {f : Stream → Stream} (hf : ∀ x, (f x).runs = x.runs) (m : Nat) : captures (modStr m f s) k = captures s k :=
  congrArg (List.map _) (str_modStr_field (h := Stream.runs) hf m k s)

/-! ### Readings that the bookkeeping of a written chunk leaves -/

namespace CloseStable
variable {α : Type} {g : State → α}

theorem modPos (h : CloseStable g) (k rid j : Nat) (f : Pos → Pos) (s : State) : g (modPos k rid j f s) = g s := h.modRun _ _ _ s

theorem releasePos (h : CloseStable g) (k rid j : Nat) (s : State) : g (releasePos k rid j s) = g s := by
  unfold Machine.releasePos
  split
  · rfl
  · exact (h.modStr _ _ _).trans (h.modPos _ _ _ _ s)

theorem setCount (h : CloseStable g) (k sel c m : Nat) (s : State) : g (setCount k sel c m s) = g s := by
  unfold Machine.setCount
  dsimp only
  split
  · exact h.modStr _ _ s
  · split
    · exact h.modStr _ _ s
    · exact h.ev _ _ s

theorem setMark (h : CloseStable g) (k sel c m : Nat) (s : State) : g (setMark k sel c m s) = g s := h.modStr _ _ s

end CloseStable

theorem captures_modPos {f : Pos → Pos} (j : Nat) : captures (modPos k rid j f s) k = captures s k :=
  captures_modRun (fun _ => ⟨rfl, rfl⟩)

theorem captures_releasePos (j : Nat) : captures (releasePos k rid j s) k = captures s k := by
  unfold releasePos
  split
  · rfl
  · exact (captures_modStr (by intro x; rfl) k).trans (captures_modPos j)

theorem captures_setCount (sel c m : Nat) : captures (setCount k sel c m s) k = captures s k := by
  unfold setCount
  dsimp only
  split
  · exact captures_modStr (by intro x; rfl) k
  · split
    · exact captures_modStr (by intro x; rfl) k
    · exact congrArg (List.map _) (congrArg Stream.runs (str_congr (markStable_streams.ev _ _ s) k))

/-! ### An output chunk written -/

/-- The marks and the count of a chunk that is written. -/
def marked (k : Nat) (r : Run) (c count marks : Nat) (s : State) : State :=
  setMark k r.rc.outSel (r.rc.outOff + c) marks (setCount k r.rc.outSel (r.rc.outOff + c) count s)

theorem CloseStable.marked {α : Type} {g : State → α} (h : CloseStable g) (k : Nat) (r : Run) (c count marks : Nat) (s : State) :
    g (marked k r c count marks s) = g s := by
  rw [Machine.marked, h.setMark, h.setCount]

theorem captures_marked (c count marks : Nat) : captures (marked k r c count marks s) k = captures s k := by
  unfold marked setMark
  exact (captures_modStr (by intro x; rfl) k).trans (captures_setCount _ _ _)

theorem rd_marked {x : Nat} (hx : x ≠ R.strCollEvents k) (c count marks : Nat) : rd (marked k r c count marks s) x = rd s x := by
  unfold marked setMark setCount
  dsimp only
  rw [rd_modStr]
  split
  · exact rd_modStr _ _ _ _
  · split
    · exact rd_modStr _ _ _ _
    · exact rd_ev_ne hx _ _

theorem setCount_awl (k sel c m : Nat) (s : State) : (setCount k sel c m s).awl = s.awl := by
  unfold setCount
  dsimp only
  split
  · rfl
  · split
    · rfl
    · exact ev_awl _ _ s

theorem quiet_marked (q : s.Quiet) (c count marks : Nat) : (marked k r c count marks s).Quiet := by
  have he : (marked k r c count marks s).awl = s.awl := setCount_awl k r.rc.outSel (r.rc.outOff + c) count s
  intro x hx
  exact q x (he ▸ hx)

/-- An output chunk whose place is in the store is written there. -/
theorem writeOut_store (hk : k < 256) (q : s.Quiet) {c count marks : Nat} (hc : r.cap = none) (ha : a = outAddr s k r (r.rc.outOff + c))
    (hs : slotOf a = ownSlot s) (hl : offOf a + b.length ≤ 2 ^ 44) (hp : placeOf s (offOf a) b.length = .store off)
    (hw : windowOk r.win a b.length .write false = true) :
    writeOut k r c count marks b s = storeWrite off b (marked k r c count marks s) := by
  have hp' : placeOf (marked k r c count marks s) (offOf a) b.length = .store off :=
    (placeOf_congr (rd_marked (by unfold R.memStageBase R.strCollEvents; omega) _ _ _) _ _).trans hp
  have hs' : slotOf a = ownSlot (marked k r c count marks s) := by
    rw [hs, ownSlot, ownSlot, rfld, rfld, rd_marked (by unfold R.glbPosition R.strCollEvents; omega)]
  unfold writeOut
  dsimp only
  rw [hc, ← ha]
  dsimp only [capItem]
  rw [show setMark k r.rc.outSel (r.rc.outOff + c) marks (setCount k r.rc.outSel (r.rc.outOff + c) count s) = marked k r c count marks s from rfl,
    localWrite_store (quiet_marked q c count marks) hs' hl hp' hw]
  rfl

/-! ### What follows the chunk written -/

/-- A run that may have ended after its chunk was written leaves the bytes there. -/
theorem written_out {u : State} (c count marks : Nat) (h0 : t.stg = s.stg) (hc : captures u k = captures t k)
    (hu : Uncaptured t k r.rid) (h1 : u.stg = t.stg) (h2 : u.writes = (storeWrite off b (marked k r c count marks t)).writes) :
    Written off b t (commit false s (settleRun k r.rid u)) := by
  have hu' : Uncaptured u k r.rid := uncaptured_congr hc hu
  have hw := written_commit (off := off) (b := b) (v := marked k r c count marks t) (c := false) (s := s)
    ((closeStable_stg.marked k r c count marks t).trans h0)
    (u := settleRun k r.rid u) ((closeStable_stg.settleRun hu').trans (h1.trans (closeStable_stg.marked k r c count marks t).symm))
    ((closeStable_writes.settleRun hu').trans h2)
  exact ⟨hw.1, fun x hx => (hw.2 x hx).trans (stgGet_congr (closeStable_stg.marked k r c count marks t)
    (closeStable_writes.marked k r c count marks t) x)⟩

theorem lowestPos_only {f : Pos → Bool} {p : Pos} (h : f p = true) : lowestPos f [p] = some p := by
  unfold lowestPos lowestPos
  dsimp only
  rw [if_pos h]

/-- RECV of its only position. -/
theorem recvNext_writes {p : Pos} {c : Contrib} (hr : runOf s k r.rid = some r) (ha : acting s r = true) (hop : r.op = 2) (hk : r.kind ≠ 4)
    (hp : r.poss = [p]) (ht : p.taken = [c]) (ho : p.outs = none) (hs : p.short = false) :
    recvNext k r.rid s = settleRun k r.rid (releasePos k r.rid p.j (modPos k r.rid p.j (fun p => { p with outs := some [([], c.count)], handed := 1 })
      (writeOut k r (r.bias + p.j) c.count (2 * b2n c.vc1 + 4 * b2n c.carry) c.data s))) := by
  unfold recvNext
  rw [hr]
  dsimp only
  rw [if_pos (by rw [ha, hop]; simpa using hk), hp, lowestPos_only (by rw [ht, ho, hs]; rfl)]
  dsimp only
  rw [ht]

/-- RECV_COMBINE of its only position, formed and not shorter than its input. -/
theorem recvCombineNext_writes {p : Pos} {m : Nat} (hr : runOf s k r.rid = some r) (ha : acting s r = true) (hop : r.op = 3)
    (he : eOut s r ≤ eIn s r) (hp : r.poss = [p]) (ho : p.outs = some [(b, m)]) (hh : p.handed = 0) (hb : heldBack s r p = false) :
    recvCombineNext k r.rid s = settleRun k r.rid (releasePos k r.rid p.j (modPos k r.rid p.j (fun p => { p with handed := p.handed + 1 })
      (writeOut k r (firstOut s r p.j) m (4 * b2n p.carry) b s))) := by
  unfold recvCombineNext
  rw [hr]
  dsimp only
  rw [if_pos (by rw [ha, hop]; rfl), if_pos he, hp, lowestPos_only (by rw [ho, hh, hb]; rfl)]
  dsimp only
  rw [ho, hh]
  rfl

/-- COPY of its next input chunk. -/
theorem copyNext_writes (hr : runOf s k r.rid = some r) (ha : acting s r = true) (hop : r.op = 5) (hc : r.cap = none) (hd : r.done < r.rc.length)
    (hg : gated s k r.rid (inAddr s k r r.done) = false) (hh : readHeld s (some k) (inAddr s k r r.done) 4096 = false)
    (hl : localRead (some k) r.win (str s k).part (inAddr s k r r.done) 4096 data s = (s0, .ok b)) :
    copyNext k r.rid data s = settleRun k r.rid (modRun k r.rid (fun r => { r with done := r.done + 1 })
      (writeOut k r (r.bias + r.done) (countOf s0 k r.rc.inSel (r.inChunk r.done)) (markOf s0 k r.rc.inSel (r.inChunk r.done)) b s0)) := by
  have hi : readInput k r r.done data s = (s0, some (b, countOf s0 k r.rc.inSel (r.inChunk r.done))) := by
    unfold readInput
    dsimp only
    rw [if_neg (by rw [hg]; exact Bool.false_ne_true), if_neg (by rw [hh]; exact Bool.false_ne_true), hl, hc]
    rfl
  unfold copyNext
  rw [hr]
  dsimp only
  rw [if_pos (by rw [ha, hop]; simpa using hd), hi]

end

/-- Settles O43: each step writes its chunk to its place in the store, and nothing else there. -/
theorem writingBuffers : Obligations.WritingBuffers := by
  intro s k idx r hs q hk hr hrun ha hc
  have hu : Uncaptured s k r.rid := uncaptured_of hrun hc
  refine ⟨?_, ?_, ?_⟩
  · intro p c a off hop hkd hp ht ho hsh haddr hsl hl hpl hw
    refine ⟨_, hs.run _, ?_⟩
    rw [onRun_some hr, if_neg (fun h => hkd h.2), recvNext_writes hrun ha hop hkd hp ht ho hsh, writeOut_store hk q hc haddr hsl hl hpl hw]
    refine written_out (r.bias + p.j) c.count (2 * b2n c.vc1 + 4 * b2n c.carry) rfl ?_ hu ?_ ?_
    · exact (captures_releasePos _).trans ((captures_modPos _).trans (captures_marked _ _ _))
    · exact (closeStable_stg.releasePos _ _ _ _).trans ((closeStable_stg.modPos _ _ _ _ _).trans (closeStable_stg.marked k r (r.bias + p.j) c.count (2 * b2n c.vc1 + 4 * b2n c.carry) s))
    · exact (closeStable_writes.releasePos _ _ _ _).trans (closeStable_writes.modPos _ _ _ _ _)
  · intro p b m a off hop he hp ho hh hb haddr hsl hl hpl hw
    refine ⟨_, hs.run _, ?_⟩
    rw [onRun_some hr, recvCombineNext_writes hrun ha hop he hp ho hh hb, writeOut_store hk q hc haddr hsl hl hpl hw]
    refine written_out (firstOut s r p.j) m (4 * b2n p.carry) rfl ?_ hu ?_ ?_
    · exact (captures_releasePos _).trans ((captures_modPos _).trans (captures_marked _ _ _))
    · exact (closeStable_stg.releasePos _ _ _ _).trans ((closeStable_stg.modPos _ _ _ _ _).trans (closeStable_stg.marked k r (firstOut s r p.j) m (4 * b2n p.carry) s))
    · exact (closeStable_writes.releasePos _ _ _ _).trans (closeStable_writes.modPos _ _ _ _ _)
  · intro data b a off s0 hop hd hg hh hl q0 haddr hsl hle hpl hw
    have hst : s0.streams = s.streams := packageStable_streams.localRead_ok q hl
    have hu0 : Uncaptured s0 k r.rid := uncaptured_congr (congrArg (List.map _) (congrArg Stream.runs (str_congr hst k))) hu
    have hcopy := copyNext_writes hrun ha hop hc hd hg hh hl
    have hout := writeOut_store (count := countOf s0 k r.rc.inSel (r.inChunk r.done)) (marks := markOf s0 k r.rc.inSel (r.inChunk r.done))
      hk q0 hc haddr hsl hle hpl hw
    have hgate : gatedAction k r data s = copyNext k r.rid data s := by
      unfold gatedAction
      rw [hop]
      rfl
    refine ⟨_, hs.run _, (hs.run _).trans ?_, ?_⟩
    · rw [onRun_some hr, onRun_some hr, hgate]
    · rw [onRun_some hr, hcopy, hout]
      refine written_out (r.bias + r.done) (countOf s0 k r.rc.inSel (r.inChunk r.done)) (markOf s0 k r.rc.inSel (r.inChunk r.done))
        (packageStable_stg.localRead_ok q hl) ?_ hu0 ?_ ?_
      · exact (captures_modRun (by intro q; exact ⟨rfl, rfl⟩)).trans (captures_marked _ _ _)
      · exact (closeStable_stg.modRun _ _ _ _).trans 
          (closeStable_stg.marked k r (r.bias + r.done) (countOf s0 k r.rc.inSel (r.inChunk r.done)) (markOf s0 k r.rc.inSel (r.inChunk r.done)) s0)
      · exact closeStable_writes.modRun _ _ _ _

end Sys2Proof.Machine
end

section
/-! SUPPORT. A state that refutes O44: two runs of a stream that have the same number (R349). -/
namespace Sys2Proof.Machine

/-- A NARROW of two chunks that has read some of them. -/
def narrowRun (d : Nat) : Run :=
  { rid := 0, idx := 0, rc := { opcode := 6, length := 2 }, fired := 0, base := 0, bias := 0, done := d
    win := [{ base := 0, limit := 2 ^ 20, ctrl := 1 }] }

/-- One run has read nothing, the other its first chunk, which alone is marked. -/
def narrowing : State :=
  { t := { ticks := 2, mtc := 2 }, rst := { cold := false }
    streams := [(0, { st := .running, runs := [narrowRun 0, narrowRun 1], marks := [((0, 0), 1)] })] }

/-- The marks of the chunks each run of stream 0 has read. -/
def readMarks (s : State) : List (List Nat) := (str s 0).runs.map (fun r => r.poss.map (fun p => p.locMark))

/-- The model gives each run the mark of the chunk it has come to itself. -/
theorem readMarks_convertRead : readMarks (convertRead 6 0 0 [] narrowing) = [[1], [0]] := by decide +kernel

/-- The first chunk can be read. -/
theorem narrowing_reads : ∃ s0 b, localRead (some 0) (narrowRun 0).win 0 0 4096 [] narrowing = (s0, .ok b) := by
  have h : (match (localRead (some 0) (narrowRun 0).win 0 0 4096 [] narrowing).2 with | .ok _ => true | .error _ => false) = true := by
    decide +kernel
  generalize localRead (some 0) (narrowRun 0).win 0 0 4096 [] narrowing = w at h
  obtain ⟨s0, x⟩ := w
  cases x with
  | error e => cases h
  | ok b => exact ⟨s0, b, rfl⟩

/-- A change that gives every run of that number one mark. -/
theorem readMarks_modRun {s : State} {f : Run → Run} {m : Nat} (hs : s.streams = narrowing.streams)
    (hf : ∀ r, (f r).poss.map (fun p => p.locMark) = r.poss.map (fun p => p.locMark) ++ [m]) :
    readMarks (modRun 0 0 f s) = [[m], [m]] := by
  unfold readMarks modRun
  rw [str_modStr_self, str_congr hs]
  show [((f (narrowRun 0)).poss.map _), ((f (narrowRun 1)).poss.map _)] = _
  rw [hf, hf]
  rfl

/-- A run with one chunk more read, as O44 has it. -/
def narrowed (s0 : State) (b : List Byte) (q : Run) : Run := { q with
  done := q.done + 1
  poss := q.poss ++ [
    { j := q.done, loc := some (b, countOf s0 0 (narrowRun 0).rc.inSel ((narrowRun 0).inChunk (narrowRun 0).done))
      locMark := markOf s0 0 (narrowRun 0).rc.inSel ((narrowRun 0).inChunk (narrowRun 0).done), first := mtcN narrowing }] }

/-- Refutes O44: the two runs would be given the mark of the chunk the first of them reads. -/
theorem not_combiners : ¬ Obligations.Combiners := by
  intro h
  have hs : narrowing.Ready := ⟨rfl, rfl⟩
  have hq : narrowing.Quiet := by intro e he; cases he
  obtain ⟨s0, b, hl⟩ := narrowing_reads
  obtain ⟨t, ht, -, hstr⟩ := (h narrowing 0 0 (narrowRun 0) hs hq (by decide) (by decide +kernel) (by decide +kernel) rfl).1 [] b s0
    (.inl rfl) (by decide +kernel) (by decide +kernel) (by decide +kernel) (by decide +kernel) hl
  have he : exec (.narrow 0 0 []) narrowing = .next (commit false narrowing (convertRead 6 0 0 [] narrowing)) := hs.run _
  rw [if_pos (show (narrowRun 0).op = 6 from rfl), he] at ht
  cases ht
  have hm := readMarks_convertRead
  have hr := readMarks_modRun (f := narrowed s0 b) (packageStable_streams.localRead_ok hq hl) (fun r => List.map_append)
  unfold readMarks at hm hr
  rw [← str_congr (s := modRun 0 0 (narrowed s0 b) s0) hstr, commit_str, hm] at hr
  injection hr with h1 h2
  injection h2 with h2
  rw [← h1] at h2
  cases h2

end Sys2Proof.Machine
end

section
/-! SUPPORT. Chunks sent: what they add to the legs of their stream, and what leaves the legs as they are (R305, R378, R379). -/
namespace Sys2Proof.Machine

section
variable {k n rid : Nat} {r : Run} {s s1 s2 t : State} {b data : List Byte}

/-! ### Legs, by what has been sent on them -/

/-- A leg by its run, the number of chunks sent, and the SEQ of each outstanding one. -/
def Leg.sentOf (g : Leg) : Nat × Nat × List Nat := (g.rid, g.sent, g.out.map (fun o => o.seq))

/-- The legs of a stream by what has been sent on them. -/
def legsSent (s : State) (k : Nat) : List (Nat × Nat × List Nat) := (str s k).legs.map Leg.sentOf

theorem legsOf_sent (s : State) (k rid : Nat) :
    (legsOf s k rid).map (fun g => g.sent) = ((legsSent s k).filter (fun g => g.1 == rid)).map (fun g => g.2.1)
    ∧ (legsOf s k rid).map (fun g => g.out.map (fun o => o.seq)) = ((legsSent s k).filter (fun g => g.1 == rid)).map (fun g => g.2.2) := by
  unfold legsOf legsSent
  rw [List.filter_map, List.map_map, List.map_map]
  exact ⟨rfl, rfl⟩

/-- One chunk more on each leg of a run. -/
def oneMore (rid seq : Nat) (l : List (Nat × Nat × List Nat)) : List (Nat × Nat × List Nat) :=
  l.map (fun g => if g.1 = rid then (g.1, g.2.1 + 1, g.2.2 ++ [seq]) else g)

/-- What O45 says of the legs once a chunk is on them. -/
theorem legsOf_oneMore {seq : Nat} (h : legsSent t k = oneMore rid seq (legsSent s k)) :
    (legsOf t k rid).map (fun g => g.sent) = (legsOf s k rid).map (fun g => g.sent + 1)
    ∧ (legsOf t k rid).map (fun g => g.out.map (fun o => o.seq)) = (legsOf s k rid).map (fun g => g.out.map (fun o => o.seq) ++ [seq]) := by
  have hl : (legsOf s k rid).map (fun g => g.sent + 1) = ((legsOf s k rid).map (fun g => g.sent)).map (· + 1) := by rw [List.map_map]; rfl
  have hr : (legsOf s k rid).map (fun g => g.out.map (fun o => o.seq) ++ [seq])
      = ((legsOf s k rid).map (fun g => g.out.map (fun o => o.seq))).map (· ++ [seq]) := by rw [List.map_map]; rfl
  rw [hl, hr, (legsOf_sent t k rid).1, (legsOf_sent t k rid).2, (legsOf_sent s k rid).1, (legsOf_sent s k rid).2, h]
  unfold oneMore
  induction legsSent s k with
  | nil => exact ⟨rfl, rfl⟩
  | cons g l ih =>
    rw [List.map_cons]
    by_cases hg : g.1 = rid
    · rw [if_pos hg, List.filter_cons_of_pos (by simpa using hg), List.filter_cons_of_pos (by simpa using hg)]
      exact ⟨congrArg _ ih.1, congrArg _ ih.2⟩
    · rw [if_neg hg, List.filter_cons_of_neg (by simpa using hg), List.filter_cons_of_neg (by simpa using hg)]
      exact ih

theorem legsSent_congr (h : t.streams = s.streams) : legsSent t k = legsSent s k := congrArg (List.map _) (congrArg Stream.legs (str_congr h k))

theorem legsSent_modStr {f : Stream → Stream} (hf : ∀ x, (f x).legs = x.legs) (m : Nat) : legsSent (modStr m f s) k = legsSent s k :=
  congrArg (List.map _) (str_modStr_field (h := Stream.legs) hf m k s)

/-! ### What leaves the legs as they are -/

theorem injectStable_streams : InjectStable State.streams := by constructor <;> intros <;> rfl

theorem tget_map_field {α β : Type} {d : α} {h : α → β} {f : Nat × α → Nat × α} (hf : ∀ x, (f x).1 = x.1 ∧ h (f x).2 = h x.2) (k : Nat)
    (l : Tbl α) : h (tget d k (l.map f)) = h (tget d k l) := by
  induction l with
  | nil => rfl
  | cons x l ih =>
    unfold tget at ih ⊢
    rw [List.map_cons]
    unfold tfind
    rw [(hf x).1]
    by_cases hx : x.1 = k
    · rw [if_pos hx, if_pos hx]
      exact (hf x).2
    · rw [if_neg hx, if_neg hx]
      exact ih

theorem chunkSent_seq (c : Cell) (o : LegChunk) : (chunkSent s c o).seq = o.seq := by
  unfold chunkSent
  split
  · rfl
  · split
    · rfl
    · split <;> rfl

/-- The start of a cell's transmission sends no chunk and settles none. -/
theorem legsSent_cellSent (c : Cell) (s : State) : legsSent (cellSent c s) k = legsSent s k := by
  unfold cellSent
  dsimp only
  split
  · refine tget_map_field (h := fun x : Stream => x.legs.map Leg.sentOf) ?_ k s.streams
    refine fun x => ⟨rfl, ?_⟩
    dsimp only
    rw [List.map_map]
    refine List.map_congr_left fun g _ => ?_
    have hs : (g.out.map (chunkSent s c)).map (fun o => o.seq) = g.out.map (fun o => o.seq) := by
      rw [List.map_map]
      exact List.map_congr_left fun o _ => chunkSent_seq c o
    rw [Function.comp]
    unfold Leg.sentOf
    split <;> split <;> simp only [hs]
  · rfl

theorem legsSent_sentUnlessWaiting (c : Cell) (s : State) : legsSent (sentUnlessWaiting c s) k = legsSent s k := by
  unfold sentUnlessWaiting
  split
  · rfl
  · exact legsSent_cellSent c s

theorem legsSent_modRun (n rid : Nat) (f : Run → Run) (s : State) : legsSent (modRun n rid f s) k = legsSent s k :=
  legsSent_modStr (by intro x; rfl) n

theorem legsSent_modPos (n rid j : Nat) (f : Pos → Pos) (s : State) : legsSent (modPos n rid j f s) k = legsSent s k := legsSent_modRun _ _ _ s

theorem legsSent_releasePos (n rid j : Nat) (s : State) : legsSent (releasePos n rid j s) k = legsSent s k := by
  unfold releasePos
  split
  · rfl
  · exact (legsSent_modStr (by intro x; rfl) n).trans (legsSent_modPos _ _ _ _ s)

theorem legsSent_dropIncomplete (n : Nat) (r : Run) (s : State) : legsSent (dropIncomplete n r s) k = legsSent s k := by
  unfold dropIncomplete
  exact (legsSent_modStr (by intro x; rfl) n).trans (legsSent_congr (markStable_streams.cntBy _ _ _))

theorem legsSent_closeStep (n : Nat) (r : Run) (s : State) : legsSent (closeStep n r s) k = legsSent s k := by
  unfold closeStep
  dsimp only
  split
  · split
    · exact legsSent_modStr (f := fun x => { x with closed := _ }) (by intro x; rfl) n
    · rfl
  · exact legsSent_modStr (by intro x; rfl) n

theorem legsSent_endRun (n rid : Nat) (s : State) : legsSent (endRun n rid s) k = legsSent s k := by
  unfold endRun
  split
  · rfl
  · next r _ =>
    have hcap : legsSent (capEnd r.cap 0 false s) k = legsSent s k := legsSent_congr (captureStable_streams.capEnd r.cap 0 false s)
    dsimp only
    refine (legsSent_modStr (by intro x; rfl) n).trans ?_
    split
    · rw [legsSent_closeStep, legsSent_dropIncomplete, hcap]
    · exact hcap

theorem legsSent_settleRun (n rid : Nat) (s : State) : legsSent (settleRun n rid s) k = legsSent s k := by
  rcases settleRun_eq n rid s with e | e <;> rw [e]
  exact legsSent_endRun n rid s

/-! ### A chunk sent -/

/-- The chunk sent is outstanding on each leg of its run, whatever becomes of its cells. -/
theorem legsSent_sendChunk (q : s.Quiet) (hm : ¬ (r.op = 1 ∧ 1 ≤ r.kind)) (j : Nat) (m : Sealed) (keep : Bool) :
    legsSent (sendChunk k r j data m keep s) k = oneMore r.rid (j % 1024) (legsSent s k) := by
  unfold sendChunk
  extract_lets own mc dateline vc st seq check w probe f s1 flags sp cells o s2 s3 s4
  have hf : f = (s, false) := awlFire_quiet q _ _ _ _
  have hs1 : s1 = s := by
    show markInj k f.2 f.1 = s
    rw [hf]
    rfl
  have hmc : mc = false := decide_eq_false hm
  have h4 : legsSent s4 k = legsSent s3 k := forEach_field (legsSent · k) _ _ (fun c _ s => legsSent_sentUnlessWaiting c s) s3
  have h3 : legsSent s3 k = legsSent s2 k := by
    refine forEach_field (legsSent · k) _ _ (fun c _ s => ?_) s2
    rw [if_neg (by rw [hmc]; exact Bool.false_ne_true)]
    exact legsSent_congr (injectStable_streams.inject _ _ _ s)
  have h2 : legsSent s2 k = oneMore r.rid seq (legsSent s1 k) := by
    show (str (modStr k _ s1) k).legs.map Leg.sentOf = _
    rw [str_modStr_self]
    unfold oneMore legsSent
    rw [List.map_map, List.map_map]
    refine List.map_congr_left fun g _ => ?_
    rw [Function.comp, Function.comp]
    by_cases hg : g.rid = r.rid
    · rw [if_pos hg, if_pos (show g.sentOf.1 = r.rid from hg)]
      unfold Leg.sentOf
      rw [List.map_append]
      rfl
    · rw [if_neg hg, if_neg (show ¬ g.sentOf.1 = r.rid from hg)]
  rw [legsSent_modRun, h4, h3, h2, hs1]

/-! ### The sending steps (R283, R305) -/

/-- SEND of its next chunk. -/
theorem sendNext_sends (hr : runOf s k r.rid = some r) (ha : acting s r = true) (hc : r.cap = none) (hop : r.op = 1) (hk : r.kind ≠ 4)
    (hd : r.done < r.rc.length) (hg : gated s k r.rid (inAddr s k r r.done) = false) (hl : legsReady k r (makeLegs k r s) = (s1, true))
    (hh : readHeld s (some k) (inAddr s k r r.done) 4096 = false)
    (hread : localRead (some k) r.win (str s k).part (inAddr s k r r.done) 4096 data s1 = (s2, .ok b)) :
    ∃ b' m, sendNext k r.rid data s = settleRun k r.rid (sendChunk k r r.done b' m false s2) := by
  unfold sendNext
  rw [hr]
  dsimp only
  rw [if_pos (by rw [ha, hop]; simpa using ⟨hk, hd⟩), if_neg (by rw [hg]; exact Bool.false_ne_true),
    if_neg (by rw [hh]; exact Bool.false_ne_true), hl,
    if_neg (show ¬ (!(s1, true).2) = true from Bool.false_ne_true), hread, hc]
  exact ⟨_, _, rfl⟩

/-- COMBINE_SEND of its next chunk. -/
theorem combineSendNext_sends {p : Pos} {m : Nat} (hr : runOf s k r.rid = some r) (ha : acting s r = true) (hc : r.cap = none)
    (hop : r.op = 4) (hd : r.done < r.rc.length) (hp : r.pos r.done = some p) (ho : p.outs = some [(b, m)]) (hs : p.short = false)
    (hl : legsReady k r (makeLegs k r s) = (s1, true)) :
    ∃ m', combineSendNext k r.rid s = settleRun k r.rid (releasePos k r.rid p.j (modPos k r.rid p.j (fun p => { p with handed := 1 })
      (sendChunk k r p.j b m' true s1))) := by
  unfold combineSendNext
  rw [hr]
  dsimp only
  rw [if_pos (by rw [ha, hop]; simpa using hd), hp]
  dsimp only
  rw [ho]
  dsimp only
  rw [if_neg (by rw [hs]; exact Bool.false_ne_true), hl,
    if_neg (show ¬ (!(s1, true).2) = true from Bool.false_ne_true), hc]
  exact ⟨_, rfl⟩

/-- A leg that no earlier one stands before may start. -/
theorem legMay_only {g : Leg} (hl : (str s k).legs = [g]) (hg : (str s k).gaps = []) : legMay s k g = true := by
  unfold legMay
  rw [hl, hg, List.find?_cons_of_pos (by simp)]
  simp

end

/-- Settles O45. -/
theorem sendingLegs : Obligations.SendingLegs := by
  intro s k hs _
  refine ⟨?_, ?_, ?_, ?_⟩
  · intro idx r s1 s2 data b hr hrun ha hc hop hkd hd hg hl hh hread q
    obtain ⟨b', m, he⟩ := sendNext_sends hrun ha hc hop (by omega) hd hg hl hh hread
    refine ⟨_, hs.run _, ?_⟩
    rw [hr]
    dsimp only
    rw [if_neg (fun h => by omega), he]
    refine legsOf_oneMore ((legsSent_congr (commit_streams _ _ _)).trans ((legsSent_settleRun _ _ _).trans ?_))
    exact legsSent_sendChunk q (fun h => by omega) _ _ _
  · intro idx r s1 p b m hr hrun ha hc hop hd hp ho hsh hl q
    obtain ⟨m', he⟩ := combineSendNext_sends hrun ha hc hop hd hp ho hsh hl
    have hj : p.j = r.done := by
      have := List.find?_some hp
      rwa [beq_iff_eq] at this
    refine ⟨_, hs.run _, ?_⟩
    rw [hr]
    dsimp only
    rw [he]
    refine legsOf_oneMore ((legsSent_congr (commit_streams _ _ _)).trans ((legsSent_settleRun _ _ _).trans ?_))
    rw [legsSent_releasePos, legsSent_modPos, legsSent_sendChunk q (fun h => by omega), hj]
  · intro g hg hn hgap
    have hfind : (str s k).legs.find? (fun h => h.dest == g.dest && !h.started && legMay s k h) = some g := by
      rw [hg]
      exact List.find?_cons_of_pos (by rw [hn, legMay_only hg hgap]; simp)
    refine ⟨_, hs.run _, ?_, ?_, ?_⟩
    all_goals rw [hfind]
    · rw [commit_str]
      unfold startLeg modLeg
      rw [str_modStr_self, str_modStr_self]
      dsimp only
      rw [hg]
      simp
    · rw [commit_regs]
      rfl
    · intro j hj
      rw [commit_str]
      unfold startLeg modLeg
      dsimp only
      rw [str_modStr_ne hj, str_modStr_ne hj]
  · intro idx r data hr
    refine ⟨fun h => (hs.run _).trans ((hs.run _).trans ?_).symm, fun h => (hs.run _).trans ((hs.run _).trans ?_).symm⟩
    · rw [hr]
      dsimp only
      rw [if_pos h]
    · rw [hr, onRun_some hr]
      dsimp only
      rw [if_pos h]

end Sys2Proof.Machine
end

section
/-! SUPPORT. Waits for accumulator slots and staging blocks (R291, R293, R316, R317). -/
namespace Sys2Proof.Machine

section
variable {k n c : Nat} {x : Stream} {r : Run} {p : Pos} {s t : State}

/-! ### The one run there is, and its one position -/

theorem runOf_only (h : (str s k).runs = [r]) : runOf s k r.rid = some r := by
  unfold runOf
  rw [h]
  exact List.find?_cons_of_pos (by simp)

theorem runAt_only (h : (str s k).runs = [r]) (he : r.ended = false) : runAt s k r.idx = some r := by
  unfold runAt
  rw [h]
  exact List.find?_cons_of_pos (by simp [he])

theorem pos_only (h : r.poss = [p]) : r.pos p.j = some p := by
  unfold Run.pos
  rw [h]
  exact List.find?_cons_of_pos (by simp)

/-- The change of the one position of the one run. -/
theorem str_modPos_only {f : Pos → Pos} (hr : (str s k).runs = [r]) (hp : r.poss = [p]) :
    str (modPos k r.rid p.j f s) k = { str s k with runs := [{ r with poss := [f p] }] } := by
  unfold modPos modRun
  rw [str_modStr_self, hr]
  simp [hp]

theorem str_modRun_only {f : Run → Run} (hr : (str s k).runs = [r]) : str (modRun k r.rid f s) k = { str s k with runs := [f r] } := by
  unfold modRun
  rw [str_modStr_self, hr]
  simp

/-! ### Slots (R316, R317) -/

theorem slotQueue_only (hs : s.streams = [(k, x)]) (hr : x.runs = [r]) (hp : r.poss = [p]) :
    slotQueue s = if p.slotWait then [(p.first, k, r.rid, p.j)] else [] := by
  unfold slotQueue
  rw [hs]
  simp only [List.flatMap_cons, List.flatMap_nil, List.append_nil, hr, hp, List.filterMap_cons, List.filterMap_nil]
  split <;> simp_all

theorem str_of_streams (h : s.streams = [(k, x)]) : str s k = x := by
  unfold str
  rw [h]
  simp [tget, tfind]

theorem streams_modStr_only (h : s.streams = [(k, x)]) (f : Stream → Stream) : (modStr k f s).streams = [(k, f x)] := by
  unfold modStr
  dsimp only
  rw [str_of_streams h, h]
  simp [tset, tput, tdel]

/-- What the wait of the position at the head of the queue becomes. -/
theorem trySlots_only (hr : (str s k).runs = [r]) (hp : r.poss = [p]) (hc : p.comb = none) :
    trySlots true k r.rid p.j s = match pickCombiner s (slotNeed s r) with
      | some c => modPos k r.rid p.j (fun p => { p with comb := some c, slots := slotNeed s r, slotWait := false }) s
      | none => ev R.cmbEvents 4 (modPos k r.rid p.j (fun p => { p with slotWait := true }) s) := by
  unfold trySlots
  rw [runOf_only hr]
  dsimp only
  rw [pos_only hp]
  dsimp only
  rw [hc, if_neg (by simp), Bool.true_or, if_pos rfl] <;> rfl

/-- The queue of one position is granted its slots, or stands as it was. -/
theorem grantSlots_only (hs : s.streams = [(k, x)]) (hr : x.runs = [r]) (hp : r.poss = [p]) (hw : p.slotWait = true) (hc : p.comb = none) :
    grantSlots (slotQueue s).length s = match pickCombiner s (slotNeed s r) with
      | some c => modPos k r.rid p.j (fun p => { p with comb := some c, slots := slotNeed s r, slotWait := false }) s
      | none => s := by
  have hx := str_of_streams hs
  have hq : slotQueue s = [(p.first, k, r.rid, p.j)] := by rw [slotQueue_only hs hr hp, if_pos hw]
  have hr' : (str s k).runs = [r] := by rw [hx]; exact hr
  rw [hq, List.length_singleton]
  unfold grantSlots
  rw [hq]
  dsimp only [earliest]
  rw [trySlots_only hr' hp hc]
  have hm (f : Pos → Pos) : (modPos k r.rid p.j f s).streams = [(k, { x with runs := [{ r with poss := [f p] }] })] := by
    unfold modPos modRun
    rw [streams_modStr_only hs, hr]
    simp [hp]
  cases hpick : pickCombiner s (slotNeed s r) with
  | some c =>
    dsimp only
    rw [slotQueue_only (hm _) rfl rfl, if_pos (by simp)]
    rfl
  | none =>
    dsimp only
    rw [slotQueue_only ((markStable_streams.ev _ _ _).trans (hm _)) rfl rfl, if_neg (by simp)]

/-! ### A tick of waiting for slots (R317) -/

theorem tickStable_streams : TickStable State.streams := by
  constructor <;> first | (constructor <;> first | exact markStable_streams | (intros; rfl)) | (intros; rfl)

/-- A position that waits for slots counts the tick, when nothing marked waits otherwise. -/
theorem countTicks_slots (hs : s.streams = [(k, x)]) (hr : x.runs = [r]) (hp : r.poss = [p]) (hw : p.slotWait = true) (hm : s.waits = []) :
    rdN (countTicks s) R.cmbSlotWaitCount = min (rdN s R.cmbSlotWaitCount + 1) 0xFFFFFFFF ∧ rbit (countTicks s) R.cmbEvents 4 = true := by
  unfold countTicks
  rw [hm]
  extract_lets s1 s2 s3
  have e1 {a : Nat} (ha : ∀ m, a ≠ R.prtInjectWaitCount m) : rd s1 a = rd s a :=
    forEach_field (rd · a) (fun (w : Waiting) s => countWait w.port s) _ (fun w _ s => rd_cnt_ne (ha _) s) { s with waits := [] }
  have h1 : s1.waits = [] := forEach_field State.waits (fun (w : Waiting) s => countWait w.port s) _ (fun _ _ _ => rfl) { s with waits := [] }
  have h2 : s2 = s1 := by
    show forEach s1.waits WaitMark.count s1 = s1
    rw [h1]
    rfl
  have hst : s2.streams = [(k, x)] := by
    rw [h2]
    exact (forEach_field State.streams (fun (w : Waiting) s => countWait w.port s) _ (fun w _ s => tickStable_streams.countWait w.port s)
      { s with waits := [] }).trans hs
  have hq : slotQueue s2 = [(p.first, k, r.rid, p.j)] := by rw [slotQueue_only hst hr hp, if_pos hw]
  have h3 : s3 = ev R.cmbEvents 4 (cntBy R.cmbSlotWaitCount 1 s2) := by
    unfold s3
    rw [hq]
    exact if_neg Bool.false_ne_true
  have hlegs {a : Nat} (ha : ∀ m, a ≠ R.strLegWaitCount m) :
      rd (forEach s3.streams (fun x s => cntBy (R.strLegWaitCount x.1) (legsWaiting s x.1) s) s3) a = rd s3 a :=
    forEach_field (rd · a) _ _ (fun x _ s => rd_cntBy_ne (ha _) _ s) s3
  refine ⟨?_, ?_⟩
  · rw [rdN, hlegs (by intro m; unfold R.cmbSlotWaitCount R.strLegWaitCount; omega), h3, rd_ev_ne (by decide), ← rdN, rdN_cntBy, h2, rdN,
      e1 (by intro m; unfold R.cmbSlotWaitCount R.prtInjectWaitCount; omega), ← rdN]
  · rw [rbit, hlegs (by intro m; unfold R.cmbEvents R.strLegWaitCount; omega), h3]
    exact rbit_ev _ _ _ (by decide)

theorem tick_slots (ht : s.txns = []) (hs : s.streams = [(k, x)]) (hr : x.runs = [r]) (hp : r.poss = [p]) (hw : p.slotWait = true)
    (hm : s.waits = []) : (tick s).streams = s.streams ∧ rdN (tick s) R.cmbSlotWaitCount = min (rdN s R.cmbSlotWaitCount + 1) 0xFFFFFFFF
      ∧ rbit (tick s) R.cmbEvents 4 = true := by
  have hd {a : Nat} (ha : 0x40000 ≤ a) : rd (tick s) a = rd (countTicks s) a := by
    rw [tick_of_txns ht, rd_tickTime ha]
    exact forEach_field (rd · a) telSample _ (fun _ _ _ => rfl) (countTicks s)
  have hc := countTicks_slots hs hr hp hw hm
  refine ⟨?_, ?_, ?_⟩
  · rw [tick_of_txns ht, tickStable_streams.tickTime, tickStable_streams.tickClosed]
  · rw [rdN, hd (by decide), ← rdN]
    exact hc.1
  · rw [rbit, hd (by decide)]
    exact hc.2

/-- A step with no command waiting is a tick (log entry 2). -/
theorem State.Ready.step_tick (hs : s.Ready) (hp : s.pending = []) : step s = .next (commit true s (tick s)) := by
  unfold step
  rw [hp]
  refine (runPin_eq _ s hs.2).trans ?_
  rw [show s.rst.cold = false from hs.1, if_neg Bool.false_ne_true]

/-! ### Blocks (R291, R293) -/

theorem not_shard_of_combines (hc : r.combines = true) : ¬ r.op = 13 := by
  intro h
  unfold Run.combines at hc
  rw [h] at hc
  cases hc

theorem blockLess_only (hp : r.poss = [p]) (hc : r.combines = true) (hb : p.blk = false) (ho : p.outs = none) : blockLess r = [p.j] := by
  unfold blockLess
  rw [if_pos hc, hp]
  simp [hb, ho]

/-- The one position without a block. -/
theorem tryBlock_only (hr : (str s k).runs = [r]) (hp : r.poss = [p]) (hc : r.combines = true) (hb : p.blk = false) (ho : p.outs = none) :
    tryBlock k r.rid p.j s = if blockFor s k then takeBlock k (modPos k r.rid p.j (fun p => { p with blk := true }) s)
      else modRun k r.rid (Run.waitBlock s) s := by
  unfold tryBlock
  rw [runOf_only hr]
  dsimp only
  rw [pos_only hp]
  dsimp only
  rw [hb, if_neg Bool.false_ne_true, blockLess_only hp hc hb ho]
  simp

/-- What the grant of blocks leaves where one is free. -/
theorem grantBlocks_free (hr : (str s k).runs = [r]) (hp : r.poss = [p]) (hc : r.combines = true) (hb : p.blk = false) (ho : p.outs = none)
    (hf : blockFor s k = true) : (grantBlocks k r.rid s).regs = s.regs ∧ str (grantBlocks k r.rid s) k = { (str s k).takeB with
      runs := [{ r with poss := [{ p with blk := true }], blockWait := none }] } := by
  have h13 := not_shard_of_combines hc
  obtain ⟨u, hu⟩ : ∃ u, tryBlock k r.rid p.j s = u := ⟨_, rfl⟩
  obtain ⟨q, hq⟩ : ∃ q, { r with poss := [{ p with blk := true }] } = q := ⟨_, rfl⟩
  have hid : q.rid = r.rid := by rw [← hq]
  have hop' : ¬ q.op = 13 := by rw [← hq]; exact h13
  have hb' : blockLess q = [] := by
    rw [← hq]
    unfold blockLess
    simp
  have hun : u = takeBlock k (modPos k r.rid p.j (fun p => { p with blk := true }) s) := by
    rw [← hu, tryBlock_only hr hp hc hb ho, if_pos hf]
  have ht : str u k = { (str s k).takeB with runs := [q] } := by
    rw [hun, takeBlock, str_modStr_self, str_modPos_only hr hp, hq]
    unfold Stream.takeB
    dsimp only
    split <;> rfl
  have hru : runOf u k r.rid = some q := by rw [← hid]; exact runOf_only (by rw [ht])
  have hg : grantBlocks k r.rid s = modRun k r.rid (fun q => { q with blockWait := none }) u := by
    unfold grantBlocks
    rw [runOf_only hr]
    dsimp only
    rw [blockLess_only hp hc hb ho, show forEach [p.j] (tryBlock k r.rid) s = u from hu, hru]
    dsimp only
    rw [if_neg hop', hb', if_pos List.isEmpty_nil]
  refine ⟨?_, ?_⟩
  · rw [hg, hun]
    rfl
  · rw [hg, ← hid, str_modRun_only (r := q) (by rw [ht]), ht, ← hq]

/-- Without a free block a step that waits for one waits on. -/
theorem grantBlocks_waits (hr : (str s k).runs = [r]) (hp : r.poss = [p]) (hover : blockOver s r = true)
    (h : (r.combines = true ∧ p.blk = false ∧ p.outs = none ∧ blockFor s k = false) ∨ (r.op = 13 ∧ blocksFree s k < 3)) :
    ∃ q, runOf (grantBlocks k r.rid s) k r.rid = some q ∧ q.blockWait.isSome = true := by
  have hw : r.blockWait.isSome = true := by
    unfold blockOver at hover
    split at hover
    · next h => rw [h]; rfl
    · next h => rw [h]; rfl
    · cases hover
  rcases h with ⟨hc, hb, ho, hf⟩ | ⟨hop, hfree⟩
  · have hop := not_shard_of_combines hc
    obtain ⟨q, hq⟩ : ∃ q, Run.waitBlock s r = q := ⟨_, rfl⟩
    have hid : q.rid = r.rid := by rw [← hq]; rfl
    have hop' : ¬ q.op = 13 := by rw [← hq]; exact hop
    have hl : blockLess q = [p.j] := by rw [← hq]; exact blockLess_only (r := Run.waitBlock s r) hp hc hb ho
    have hu : runOf (modRun k r.rid (Run.waitBlock s) s) k r.rid = some q := by
      rw [← hid]
      exact runOf_only (by rw [hid, str_modRun_only hr, hq])
    refine ⟨q, ?_, by rw [← hq]; rfl⟩
    unfold grantBlocks
    rw [runOf_only hr]
    dsimp only
    rw [blockLess_only hp hc hb ho, show forEach [p.j] (tryBlock k r.rid) s = tryBlock k r.rid p.j s from rfl,
      tryBlock_only hr hp hc hb ho, hf, if_neg Bool.false_ne_true, hu]
    dsimp only
    rw [if_neg hop', hl, if_neg (by simp), hu]
  · have hl : blockLess r = [] := by
      unfold blockLess Run.combines
      rw [hop]
      rfl
    refine ⟨r, ?_, hw⟩
    unfold grantBlocks
    rw [runOf_only hr]
    dsimp only
    rw [hl, show forEach [] (tryBlock k r.rid) s = s from rfl, runOf_only hr]
    dsimp only
    rw [if_pos hop, if_neg (by simpa using hfree), runOf_only hr]

end

/-- Settles O47. -/
theorem waitingForRoom : Obligations.WaitingForRoom := by
  rintro s k x r p hs hk rfl hr hp he
  refine ⟨fun hst hw hc => ⟨?_, ?_, ?_⟩, ?_, ?_⟩
  · intro c hpick
    refine ⟨_, hs.run _, ?_⟩
    rw [commit_str, grantSlots_only hst hr hp hw hc, hpick]
    exact str_modPos_only hr hp
  · intro hpick
    refine ⟨_, hs.run _, ?_, ?_⟩
    · rw [commit_streams, grantSlots_only hst hr hp hw hc, hpick]
    · rw [commit_regs, grantSlots_only hst hr hp hw hc, hpick]
  · intro hpend hwaits ht
    obtain ⟨h1, h2, h3⟩ := tick_slots ht hst hr hp hw hwaits
    refine ⟨_, hs.step_tick hpend, ?_, ?_, ?_⟩
    · rw [commit_streams, h1]
    · rw [commit_rdN, h2]
    · rw [commit_rbit, h3]
  · intro hc hb ho hf
    obtain ⟨h1, h2⟩ := grantBlocks_free hr hp hc hb ho hf
    refine ⟨_, hs.run _, ?_, ?_⟩
    all_goals rw [onRun_some (runAt_only hr he)]
    · rw [commit_regs, h1]
    · rw [commit_str, h2]
  · intro hover h hst hf
    obtain ⟨q, hq, hw⟩ := grantBlocks_waits hr hp hover h
    obtain ⟨h1, h2, -⟩ := faultStream_leaves (idx := r.idx) (st := 0x08) hst hf
    refine ⟨_, hs.run _, ?_, ?_⟩
    all_goals rw [onRun_some (runAt_only hr he), if_pos hover, hq, commit_str]
    · dsimp only
      rw [if_pos hw, h1]
    · dsimp only
      rw [if_pos hw]
      exact h2

end Sys2Proof.Machine
end

section
/-! SUPPORT. SHARD_UPDATE: its update block, the beginning of a chunk, and writes issued once (R357–R365, R371). -/
namespace Sys2Proof.Machine

section
variable {k n c j rid : Nat} {r : Run} {s t s0 s1 s2 s3 : State} {b data : List Byte}

/-! ### The update block (R357–R361) -/

theorem updateBlockRead_done {d : List Byte} (hr : runOf s k r.rid = some r) (hop : r.op = 13) (ha : acting s r = true) (hc : r.cap = none)
    (hu : r.ub = none) (hh : readHeld s (some k) (bufOf s k (r.rc.aux % 4) + r.rc.peer * 64) 64 = false)
    (hl : localRead (some k) r.win (str s k).part (bufOf s k (r.rc.aux % 4) + r.rc.peer * 64) 64 d s = (s0, .ok b))
    (hok : ubOk b = true) (hcs : ubSkip b = true ∨ constsOk (constsOf b) = true)
    (ht : rangesTest (some k) r.win (str s k).part (shardRanges s0 k r b) s0 = (s1, none)) :
    updateBlockRead k r.rid d s = modRun k r.rid (fun r => { r with ub := some b, blockWait := none })
      (if ubSkip b then ev R.cmbShdEvents 3 s1 else s1) := by
  have hgood : ¬ (!ubOk b || !(ubSkip b || constsOk (constsOf b))) = true := by
    rw [hok]
    rcases hcs with h | h <;> rw [h] <;> simp
  unfold updateBlockRead
  rw [hr]
  dsimp only
  rw [if_pos (by rw [ha, hop, hu]; rfl), if_neg (by rw [hh]; exact Bool.false_ne_true), hl]
  dsimp only
  rw [if_neg hgood, ht, hc]
  rfl

theorem updateBlockRead_bad {d : List Byte} (hr : runOf s k r.rid = some r) (hop : r.op = 13) (ha : acting s r = true)
    (hu : r.ub = none) (hh : readHeld s (some k) (bufOf s k (r.rc.aux % 4) + r.rc.peer * 64) 64 = false)
    (hl : localRead (some k) r.win (str s k).part (bufOf s k (r.rc.aux % 4) + r.rc.peer * 64) 64 d s = (s0, .ok b))
    (hok : ubOk b = false) : updateBlockRead k r.rid d s = faultStream k r.idx 0x1B (ev R.cmbShdEvents 1 s0) := by
  unfold updateBlockRead
  rw [hr]
  dsimp only
  rw [if_pos (by rw [ha, hop, hu]; rfl), if_neg (by rw [hh]; exact Bool.false_ne_true), hl]
  dsimp only
  rw [if_pos (by rw [hok]; rfl)]

/-! ### A chunk begins (R364, R365) -/

theorem shardRead_ok {a len target m : Nat} (hc : r.cap = none) (hl : localRead (some k) r.win (str s k).part a len data s = (s1, .ok b)) :
    shardRead k r a len target m data s = (s1, .ok b) := by
  unfold shardRead
  rw [hl, hc]
  rfl

/-- The run with its next chunk begun. -/
def shardBegun (s : State) (c : Nat) (g w m : List Byte) (j : Nat) (r : Run) : Run := { r with
  nextShard := j + 1, lastBegin := some (now s), blockWait := none
  shards := r.shards ++ [{ j := j, grad := g, master := w, mom := m, comb := c }] }

theorem shardBegin_begins {ub g w m grad master mom : List Byte} (hr : runOf s k r.rid = some r) (hop : r.op = 13) (ha : acting s r = true)
    (hc : r.cap = none) (hu : r.ub = some ub) (hs : ubSkip ub = false) (hn : r.nextShard < r.rc.length)
    (hn8 : r.nextShard < leadCount r.rc.length r.acked + 8) (h1 : readHeld s (some k) (masterAddr r ub r.nextShard) 4096 = false)
    (h2 : readHeld s (some k) (inAddr s k r r.nextShard) 4096 = false) (h3 : readHeld s (some k) (momentAddr r ub r.nextShard) 2112 = false)
    (hp : ∀ l, r.lastBegin = some l → l + 4 ≤ now s) (hg : gated s k r.rid (inAddr s k r r.nextShard) = false) (hb : 3 ≤ blocksFree s k)
    (hpick : pickCombiner s 1 = some c)
    (hl1 : localRead (some k) r.win (str s k).part (inAddr s k r r.nextShard) 4096 grad s = (s1, .ok g))
    (hl2 : localRead (some k) r.win (str s1 k).part (masterAddr r ub r.nextShard) 4096 master s1 = (s2, .ok w))
    (hl3 : localRead (some k) r.win (str s2 k).part (momentAddr r ub r.nextShard) 2112 mom s2 = (s3, .ok m)) :
    shardBegin k r.rid grad master mom s = takeBlock k (takeBlock k (takeBlock k (modRun k r.rid (shardBegun s c g w m r.nextShard) s3))) := by
  have hpaced : (match r.lastBegin with | some t => decide (t + 4 ≤ now s) | none => true) = true := by
    cases hb : r.lastBegin with
    | none => rfl
    | some l => exact decide_eq_true (hp l hb)
  have hgo : ¬ (!(acting s r && r.op == 13 && decide (r.nextShard < r.rc.length) && decide (r.nextShard < leadCount r.rc.length r.acked + 8)
      && (match r.lastBegin with | some t => decide (t + 4 ≤ now s) | none => true))) = true := by
    rw [hpaced, ha, hop, decide_eq_true hn, decide_eq_true hn8]
    exact Bool.false_ne_true
  unfold shardBegin
  rw [hr]
  dsimp only
  rw [hu]
  dsimp only
  refine (if_neg hgo).trans ?_
  rw [if_neg (by rw [hg, Bool.and_false]; exact Bool.false_ne_true), if_neg (by rw [h1, h2, h3, hs]; exact Bool.false_ne_true),
    if_neg (by omega), hpick]
  dsimp only
  rw [hs, if_neg Bool.false_ne_true, shardRead_ok hc hl1]
  dsimp only
  rw [shardRead_ok hc hl2]
  dsimp only
  rw [if_neg Bool.false_ne_true, shardRead_ok hc hl3]
  rfl

/-- A block taken is one more in use or drawn, and nothing else of the stream. -/
theorem str_takeBlock (s : State) : (str (takeBlock k s) k).inUse + (str (takeBlock k s) k).drawn = (str s k).inUse + (str s k).drawn + 1
    ∧ (str (takeBlock k s) k).runs = (str s k).runs := by
  unfold takeBlock
  rw [str_modStr_self]
  unfold Stream.takeB
  split
  · exact ⟨by dsimp only; omega, rfl⟩
  · exact ⟨by dsimp only; omega, rfl⟩

theorem runOf_runs (h : (str t k).runs = (str s k).runs) : runOf t k rid = runOf s k rid := by rw [runOf, h, runOf]

/-! ### Writes are issued once (R371) -/

/-- Every chunk `j` of the runs of that number has had its writes issued. -/
def Issued (s : State) (k rid j : Nat) : Prop := ∀ r ∈ (str s k).runs, r.rid = rid → ∀ p ∈ r.shards, p.j = j → p.written = true

theorem Issued.subset (h : Issued s k rid j) (hs : (str t k).runs ⊆ (str s k).runs) : Issued t k rid j := fun r hr => h r (hs hr)

theorem Issued.congr (h : Issued s k rid j) (hs : t.streams = s.streams) : Issued t k rid j :=
  h.subset (by rw [str_congr hs]; exact fun _ h => h)

theorem Issued.modStr {f : Stream → Stream} (hf : ∀ x, (f x).runs = x.runs) (h : Issued s k rid j) : Issued (modStr k f s) k rid j :=
  h.subset (by rw [str_modStr_self, hf]; exact fun _ h => h)

theorem Issued.modRun {f : Run → Run} (hf : ∀ q, (f q).rid = q.rid ∧ (f q).shards ⊆ q.shards) (h : Issued s k rid j) :
    Issued (modRun k rid f s) k rid j := by
  intro r hr
  unfold Machine.modRun at hr
  rw [str_modStr_self] at hr
  obtain ⟨q, hq, rfl⟩ := List.mem_map.mp hr
  split
  · intro he p hp
    exact h q hq ((hf q).1 ▸ he) p ((hf q).2 hp)
  · exact h q hq

/-- A fault leaves no step, or changes nothing. -/
theorem faultStream_runs (i st : Nat) (s : State) : (str (faultStream k i st s) k).runs = [] ∨ faultStream k i st s = s := by
  have stop : (str (complete (str s k).part (some k) (str s k).req st (faultStopped k i st s)) k).runs = [] := by
    refine (str_complete (x := .faulted) ?_ ?_).1
    all_goals rw [faultStopped, str_congr (ledgerStable_streams.modPar _ _ _), str_modStr_self]
    exact (stopStream_emptied k st _).2
  unfold faultStream
  dsimp only
  split
  · exact .inr rfl
  · exact .inr rfl
  · exact .inr rfl
  · split
    · exact .inr rfl
    · exact .inl stop

theorem Issued.faultMem (i st a : Nat) (h : Issued s k rid j) : Issued (faultMem k i st a s) k rid j := by
  unfold Machine.faultMem
  rcases faultStream_runs (k := k) i st (Machine.modStr k (fun x => { x with detail := a / 4096 % 2 ^ 32 }) s) with e | e
  · exact h.subset (by rw [e]; exact List.nil_subset _)
  · rw [e]
    exact h.modStr (fun _ => rfl)

theorem pkgIssue_streams (a : Nat) (b : List Byte) (o : Owner) (s : State) : (pkgIssue a b o s).streams = s.streams := by
  unfold pkgIssue
  dsimp only
  split <;> rfl

theorem badAccess_streams (s : State) : (badAccess s).streams = s.streams :=
  (markStable_streams.ev _ _ _).trans (markStable_streams.cnt _ s)

section
variable {o : Option Nat} {m a off : Nat}

set_option smartUnfolding false in
/-- A write of a chunk whose bytes lie in the store. -/
theorem shardWrite_store (hr : runOf s k rid = some r) (hp : placeOf s (offOf a) b.length = .store off) :
    shardWrite k rid m o a b s = storeWrite off b s := by
  generalize hf : shardWrite = f
  delta shardWrite at hf
  rw [← hf]
  generalize @placeOf = place at hp ⊢
  refine (casesOn_some hr).trans ?_
  beta_reduce
  simp only [hp]

set_option smartUnfolding false in
theorem shardWrite_accel (hr : runOf s k rid = some r) (hp : placeOf s (offOf a) b.length = .accel) :
    shardWrite k rid m o a b s = if pkgUp s then pkgIssue a b (.shard k rid m o) s else faultMem k r.idx 0x14 a s := by
  generalize hf : shardWrite = f
  delta shardWrite at hf
  rw [← hf]
  generalize @placeOf = place at hp ⊢
  refine (casesOn_some hr).trans ?_
  beta_reduce
  simp only [hp]

set_option smartUnfolding false in
theorem shardWrite_bad (hr : runOf s k rid = some r) (hp : placeOf s (offOf a) b.length = .bad) :
    shardWrite k rid m o a b s = faultMem k r.idx 0x11 a (badAccess s) := by
  generalize hf : shardWrite = f
  delta shardWrite at hf
  rw [← hf]
  generalize @placeOf = place at hp ⊢
  refine (casesOn_some hr).trans ?_
  beta_reduce
  simp only [hp]

set_option smartUnfolding false in
theorem shardWrite_none (hr : runOf s k rid = none) : shardWrite k rid m o a b s = s := by
  generalize hf : shardWrite = f
  delta shardWrite at hf
  rw [← hf]
  exact casesOn_none hr

theorem Issued.shardWrite (h : Issued s k rid j) : Issued (shardWrite k rid m o a b s) k rid j := by
  cases hr : runOf s k rid with
  | none =>
    rw [shardWrite_none hr]
    exact h
  | some r =>
    cases hp : placeOf s (offOf a) b.length with
    | store off =>
      rw [shardWrite_store hr hp]
      exact h.congr rfl
    | accel =>
      rw [shardWrite_accel hr hp]
      split
      · exact h.congr (pkgIssue_streams _ _ _ s)
      · exact h.faultMem _ _ _
    | bad =>
      rw [shardWrite_bad hr hp]
      exact (h.congr (badAccess_streams s)).faultMem _ _ _

end

theorem CaptureStable.capItem {α : Type} {g : State → α} (h : CaptureStable g) (o : Option Nat) (kind t i ch m : Nat) (b : List Byte) (s : State) :
    g (capItem o kind t i ch m b s) = g s := by
  have copy (id i : Nat) (s : State) : g (if kind = 4 then Machine.capData id t i none b s else s) = g s := by
    split
    · exact h.capData _ _ _ _ _ s
    · rfl
  unfold Machine.capItem
  split
  · rfl
  · split
    · rfl
    · dsimp only
      split
      · rw [copy, h.modCap]
      · split
        · split
          · rw [h.capFlushRun, copy, h.modCap]
          · rw [copy, h.modCap]
        · rw [copy, h.modCap, h.capFlushRun]

theorem Issued.setCount (sel c m : Nat) (h : Issued s k rid j) : Issued (setCount k sel c m s) k rid j := by
  unfold Machine.setCount
  dsimp only
  split
  · exact h.modStr (by intro x; rfl)
  · split
    · exact h.modStr (by intro x; rfl)
    · exact h.congr (markStable_streams.ev _ _ s)

theorem madeEvents_stable {α : Type} {g : State → α} (h : MarkStable g) (m : Made) (s : State) : g (madeEvents m s) = g s := by
  unfold madeEvents
  extract_lets s1 s2
  have e1 : g s1 = g s := by
    unfold s1
    split
    · rfl
    · rw [h.ev, h.cntBy]
  have e2 : g s2 = g s1 := by
    unfold s2
    split
    · rfl
    · rw [h.ev, h.cntBy]
  split
  · rw [h.ev, e2, e1]
  · rw [e2, e1]

theorem Issued.copyPart {m : Nat} (c : Nat) (q : SChunk) (h : Issued s k rid j) : Issued (copyPart k rid m c q s) k rid j := by
  unfold Machine.copyPart
  split
  · exact h
  · extract_lets fo eo e0 lo hi i0 i1 chunk vals bs es md pats img a bytes b0 b1 u1 u2 u3 t0 t1 u4
    have h1 : Issued u1 k rid j := Issued.modStr (by intro x; rfl) ((h.congr (madeEvents_stable markStable_streams md s)).setCount _ _ _)
    have h2 : Issued u2 k rid j := h1.modRun (fun _ => ⟨rfl, fun _ h => h⟩)
    have h3 : Issued u3 k rid j := h2.shardWrite
    have h4 : Issued u4 k rid j := by
      unfold u4
      split
      · exact h3.shardWrite
      · exact h3
    split
    · exact (h4.congr (captureStable_streams.capItem _ _ _ _ _ _ _ u4)).modRun (fun _ => ⟨rfl, fun _ h => h⟩)
    · exact h4

theorem Issued.settleRun (h : Issued s k rid j) : Issued (settleRun k rid s) k rid j := by
  rcases settleRun_eq k rid s with e | e <;> rw [e]
  · exact h
  · refine h.subset ?_
    rw [endRun_runs]
    exact List.filter_subset_self _

theorem Issued.shardSettle (h : Issued s k rid j) : Issued (shardSettle k rid s) k rid j := by
  unfold Machine.shardSettle
  split
  · exact h
  · refine Issued.settleRun ?_
    refine Issued.congr ?_ (markStable_streams.wrN _ _ _)
    exact Issued.modRun (fun q => ⟨rfl, List.filter_subset_self _⟩) (Issued.modStr (fun _ => rfl) h)

theorem Issued.forEach {α : Type} {f : α → State → State} {l : List α} (hf : ∀ a s, Issued s k rid j → Issued (f a s) k rid j)
    (h : Issued s k rid j) : Issued (forEach l f s) k rid j := by
  induction l generalizing s with
  | nil => exact h
  | cons a l ih => exact ih (hf a s h)

/-- The run with its chunk's writes issued. -/
def chunkWritten (j : Nat) (r : Run) : Run :=
  { r with shards := r.shards.map (fun p => if p.j = j then { p with written := true } else p) }

theorem issued_chunkWritten (s : State) (k rid j : Nat) : Issued (modRun k rid (chunkWritten j) s) k rid j := by
  intro r hr he p hp hj
  unfold modRun at hr
  rw [str_modStr_self] at hr
  obtain ⟨q, hq, rfl⟩ := List.mem_map.mp hr
  by_cases hid : q.rid = rid
  · rw [if_pos hid] at hp
    obtain ⟨u, -, rfl⟩ := List.mem_map.mp hp
    split
    · rfl
    · next hne =>
      rw [if_neg hne] at hj
      exact absurd hj hne
  · rw [if_neg hid] at he
    exact absurd he hid

theorem shardWrites_issues {ub : List Byte} {q : SChunk} (hr : runOf s k r.rid = some r) (ha : acting s r = true) (hu : r.ub = some ub)
    (hs : r.shards = [q]) (hw : q.written = false) (hc : q.computed = true) : Issued (shardWrites k r.rid s) k r.rid q.j := by
  have hf : r.shards.find? (fun q => !q.written) = some q := by
    rw [hs]
    exact List.find?_cons_of_pos (by rw [hw]; rfl)
  unfold shardWrites
  rw [hr]
  dsimp only
  rw [hu, hf]
  dsimp only
  rw [if_pos (by rw [ha, hc]; rfl)]
  refine Issued.shardSettle (Issued.forEach (fun c s h => h.copyPart c q) ?_)
  have h1 := issued_chunkWritten s k r.rid q.j
  split
  · exact h1
  · refine Issued.congr ?_ (captureStable_streams.capItem _ _ _ _ _ _ _ _)
    refine Issued.shardWrite ?_
    refine Issued.congr ?_ (captureStable_streams.capItem _ _ _ _ _ _ _ _)
    exact h1.shardWrite

end
end Sys2Proof.Machine
end

section
/-! SUPPORT. The writes of a SHARD_UPDATE chunk whose places all lie in the store (R364, R369, R371, R374). -/
namespace Sys2Proof.Machine

section
variable {k c j : Nat} {r : Run} {sh : List SChunk} {s u : State}

/-- A register the places of a chunk's writes depend on: the base of the store, and the formats. -/
def PlaceReg (a : Nat) : Prop := a = R.memStageBase ∨ ∃ i, i < 16 ∧ a = R.cmbFmt i

/-- What the writes of a chunk leave as it is: the run, but for the chunks `sh` it has in progress and the image of a chunk's edges,
the request, the accesses over the package interface, and the registers their places depend on. -/
structure ShardKept (s : State) (k : Nat) (r : Run) (sh : List SChunk) (u : State) : Prop where
  run : ∃ e, runOf u k r.rid = some { r with shards := sh, edges := e }
  req : (str u k).req = (str s k).req
  txns : u.txns = s.txns
  regs : ∀ a, PlaceReg a → rd u a = rd s a

namespace ShardKept

/-- A change of the stream's marks or counts, and of other registers. -/
theorem step {v : State} (h : ShardKept s k r sh u) (hr : (str v k).runs = (str u k).runs) (hq : (str v k).req = (str u k).req)
    (ht : v.txns = u.txns) (hg : ∀ a, PlaceReg a → rd v a = rd u a) : ShardKept s k r sh v where
  run := by rw [runOf_runs hr]; exact h.run
  req := hq.trans h.req
  txns := ht.trans h.txns
  regs a ha := (hg a ha).trans (h.regs a ha)

theorem modStr (h : ShardKept s k r sh u) {f : Stream → Stream} (hf : ∀ x, (f x).runs = x.runs ∧ (f x).req = x.req) :
    ShardKept s k r sh (modStr k f u) :=
  h.step (by rw [str_modStr_self]; exact (hf _).1) (by rw [str_modStr_self]; exact (hf _).2) rfl (fun _ _ => rfl)

theorem storeWrite (h : ShardKept s k r sh u) (o : Nat) (b : List Byte) : ShardKept s k r sh (storeWrite o b u) :=
  h.step (v := Machine.storeWrite o b u) rfl rfl rfl (fun _ _ => rfl)

theorem ev (h : ShardKept s k r sh u) {a : Nat} (ha : ∀ b, PlaceReg b → b ≠ a) (i : Nat) : ShardKept s k r sh (ev a i u) :=
  h.step (congrArg Stream.runs (str_congr (markStable_streams.ev _ _ u) k)) (congrArg Stream.req (str_congr (markStable_streams.ev _ _ u) k))
    (switchStable_txns.markStable.ev _ _ u) (fun b hb => rd_ev_ne (ha b hb) _ _)

theorem cntBy (h : ShardKept s k r sh u) {a : Nat} (ha : ∀ b, PlaceReg b → b ≠ a) (n : Nat) : ShardKept s k r sh (cntBy a n u) :=
  h.step (congrArg Stream.runs (str_congr (markStable_streams.cntBy _ _ u) k)) (congrArg Stream.req (str_congr (markStable_streams.cntBy _ _ u) k))
    (switchStable_txns.markStable.cntBy _ _ u) (fun b hb => rd_cntBy_ne (ha b hb) _ _)

theorem madeEvents (h : ShardKept s k r sh u) (m : Made) : ShardKept s k r sh (madeEvents m u) := by
  have hn {a : Nat} (ha : 0xE0040 ≤ a ∧ a < 0x100000) (b : Nat) (hb : PlaceReg b) : b ≠ a := by
    rcases hb with rfl | ⟨i, hi, rfl⟩
    · unfold R.memStageBase; omega
    · unfold R.cmbFmt; omega
  have two {v : State} (hv : ShardKept s k r sh v) {a : Nat} (ha : 0xE0040 ≤ a ∧ a < 0x100000) (i n : Nat) :
      ShardKept s k r sh (if n = 0 then v else Machine.ev R.cmbEvents i (Machine.cntBy a n v)) := by
    split
    · exact hv
    · exact (hv.cntBy (hn ha) n).ev (hn (by decide)) i
  unfold Machine.madeEvents
  dsimp only
  split
  · exact (two (two h (by decide) 0 _) (by decide) 1 _).ev (hn (by decide)) 2
  · exact two (two h (by decide) 0 _) (by decide) 1 _

theorem setCount (hk : k < 256) (h : ShardKept s k r sh u) (sel i n : Nat) : ShardKept s k r sh (setCount k sel i n u) := by
  have hn (b : Nat) (hb : PlaceReg b) : b ≠ R.strCollEvents k := by
    rcases hb with rfl | ⟨i, hi, rfl⟩
    · unfold R.memStageBase R.strCollEvents; omega
    · unfold R.cmbFmt R.strCollEvents; omega
  unfold Machine.setCount
  dsimp only
  split
  · exact h.modStr (by intro x; exact ⟨rfl, rfl⟩)
  · split
    · exact h.modStr (by intro x; exact ⟨rfl, rfl⟩)
    · exact h.ev hn _

theorem setMark (h : ShardKept s k r sh u) (sel i n : Nat) : ShardKept s k r sh (setMark k sel i n u) :=
  h.modStr (by intro x; exact ⟨rfl, rfl⟩)

/-- A change of the images of edges alone. -/
theorem edges (h : ShardKept s k r sh u) (f : Tbl Nat → Tbl Nat) :
    ShardKept s k r sh (modRun k r.rid (fun q => { q with edges := f q.edges }) u) where
  run := by
    obtain ⟨e, he⟩ := h.run
    exact ⟨f e, runOf_modRun (f := fun q => { q with edges := f q.edges }) (fun _ => rfl) he⟩
  req := by
    unfold modRun
    rw [str_modStr_self]
    exact h.req
  txns := h.txns
  regs := h.regs

/-! ### Places and formats are those of the state before -/

theorem placeOf_eq (h : ShardKept s k r sh u) (o len : Nat) : placeOf u o len = placeOf s o len :=
  placeOf_congr (h.regs _ (.inl rfl)) o len

theorem fmtAt_eq (h : ShardKept s k r sh u) {i : Nat} (hi : i < 16) : fmtAt u i = fmtAt s i := by
  unfold fmtAt fmtWord
  rw [h.regs _ (.inr ⟨i, hi, rfl⟩)]

theorem outAddr_eq (h : ShardKept s k r sh u) (q : Run) (hq : q.rc = r.rc) (i : Nat) : outAddr u k q i = outAddr s k r i := by
  unfold outAddr bufOf
  rw [h.req, hq]

/-- A write of the chunk to a place in the store. -/
theorem shardWrite (h : ShardKept s k r sh u) {o : Option Nat} {a : Nat} {b : List Byte}
    (hp : ∃ off, placeOf s (offOf a) b.length = .store off) : ShardKept s k r sh (shardWrite k r.rid j o a b u) := by
  obtain ⟨e, he⟩ := h.run
  obtain ⟨off, hoff⟩ := hp
  rw [shardWrite_store he ((h.placeOf_eq _ _).trans hoff)]
  exact h.storeWrite _ _

end ShardKept

/-! ### The working copy (R369) -/

theorem slice_length (l : List Byte) (o n : Nat) : (slice l o n).length = n := by
  unfold slice
  dsimp only
  rw [List.length_append, List.length_replicate, List.length_take]
  omega

/-- The part of a gradient chunk that an output chunk takes lies in that chunk. -/
theorem part_within {eo e0 : Nat} (hc : e0 / eo ≤ c) (h0 : 0 < eo) : max e0 (c * eo) - c * eo ≤ eo ∧ min (e0 + 1024) ((c + 1) * eo) - c * eo ≤ eo := by
  have h1 : e0 < (c + 1) * eo := Nat.lt_mul_of_div_lt (Nat.lt_succ_of_le hc) h0
  rw [Nat.succ_mul] at h1 ⊢
  omega

/-- The bytes of a part of `eo` elements lie in a chunk. -/
theorem part_bytes {w eo i : Nat} (hw : w * eo ≤ 32768) (hi : i ≤ eo) : w * i / 8 ≤ 4096 ∧ (w * i + 7) / 8 ≤ 4096 := by
  have := Nat.mul_le_mul_left w hi
  omega

/-- What O48 asks of a step whose chunk `j` is written: 1,024 elements in, and an output format whose chunks hold what they should. -/
structure CopyFits (s : State) (k : Nat) (r : Run) (j : Nat) : Prop where
  inChunk : eIn s r = 1024
  pos : 0 < perChunk (fmtAt s r.rc.outFmt)
  bits : (fmtAt s r.rc.outFmt).width * perChunk (fmtAt s r.rc.outFmt) ≤ 32768
  scales : (fmtAt s r.rc.outFmt).scale = true → scaleBase (fmtAt s r.rc.outFmt) + perChunk (fmtAt s r.rc.outFmt) / 32 ≤ 4096
  place : ∀ c, firstOut s r j ≤ c → c < endOut s r j → ∀ b n, b + n ≤ 4096 →
    ∃ o, placeOf s (offOf (outAddr s k r (r.rc.outOff + c) + b)) n = .store o

/-- Each part of the working copy is written to the store. -/
theorem ShardKept.copyPart (hk : k < 256) (hop : r.op = 13) (hcap : r.cap = none) (hf : CopyFits s k r j) (h : ShardKept s k r sh u)
    (h1 : firstOut s r j ≤ c) (h2 : c < endOut s r j) (q : SChunk) : ShardKept s k r sh (copyPart k r.rid j c q u) := by
  obtain ⟨e, he⟩ := h.run
  unfold Machine.copyPart
  split
  · exact h
  · next r' hr' =>
    have hr : { r with shards := sh, edges := e } = r' := Option.some.inj (he.symm.trans hr')
    have hrc : r'.rc = r.rc := by rw [← hr]
    have hb : r'.bias = r.bias := by rw [← hr]
    have hc : r'.cap = none := by rw [← hr]; exact hcap
    extract_lets fo eo e0 lo hi i0 i1 chunk vals bs es md pats img a bytes b0 b1 u1 u2 u3 t0 t1 u4
    have hfo : fo = fmtAt s r.rc.outFmt := by
      show fmtAt u r'.rc.outFmt = _
      rw [hrc, h.fmtAt_eq (nbits_lt _ _ _)]
    have heo : eo = perChunk (fmtAt s r.rc.outFmt) := congrArg perChunk hfo
    have he0 : e0 / eo ≤ c := by
      have : firstOut s r j = e0 / eo := by
        unfold firstOut eOut
        rw [if_pos (by simp [hop]), hf.inChunk, ← heo, show e0 = (r.bias + j) * 1024 by rw [← hb]]
      omega
    have hpart := part_within he0 (by rw [heo]; exact hf.pos)
    have hw : fo.width * eo ≤ 32768 := by rw [heo, hfo]; exact hf.bits
    have hb0 := part_bytes hw (show i0 ≤ eo from hpart.1)
    have hb1 := part_bytes hw (show i1 ≤ eo from hpart.2)
    have ha (x n : Nat) (hx : x + n ≤ 4096) : ∃ o, placeOf s (offOf (a + x)) n = .store o := by
      have : a = outAddr s k r (r.rc.outOff + c) := by
        show outAddr u k r' (r'.rc.outOff + c) = _
        rw [h.outAddr_eq r' hrc, hrc]
      rw [this]
      exact hf.place c h1 h2 x n hx
    have hb1' : b1 ≤ 4096 := by
      show (if i1 = eo ∧ (!fo.scale) = true then 4096 else (fo.width * i1 + 7) / 8) ≤ 4096
      split
      · exact le_rfl
      · exact hb1.2
    have k1 : ShardKept s k r sh u1 := ((h.madeEvents md).setCount hk _ _ _).setMark _ _ _
    have k2 : ShardKept s k r sh u2 := k1.edges (tset c img)
    have k3 : ShardKept s k r sh u3 := k2.shardWrite (ha b0 _ (by rw [slice_length]; omega))
    have k4 : ShardKept s k r sh u4 := by
      show ShardKept s k r sh (if fo.scale = true then _ else u3)
      split
      · next hs =>
        have hsc : scaleBase fo + eo / 32 ≤ 4096 := by
          rw [heo, hfo]
          exact hf.scales (by rw [← hfo]; exact hs)
        have ht0 : t0 ≤ 4096 := (Nat.add_le_add_left (Nat.div_le_div_right hpart.1) _).trans hsc
        have ht1 : t1 ≤ 4096 := by
          show (if i1 = eo then 4096 else scaleBase fo + i1 / 32) ≤ 4096
          split
          · exact le_rfl
          · exact (Nat.add_le_add_left (Nat.div_le_div_right hpart.2) _).trans hsc
        exact k3.shardWrite (ha t0 _ (by rw [slice_length]; omega))
      · exact k3
    split
    · rw [hc]
      exact k4.edges (tdel c)
    · exact k4

/-! ### The writes of a chunk, and their end (R371, R374) -/

theorem shardKept_chunkWritten {q : SChunk} (hr : runOf s k r.rid = some r) (hs : r.shards = [q]) :
    ShardKept s k r [{ q with written := true }] (modRun k r.rid (chunkWritten q.j) s) where
  run := by
    refine ⟨r.edges, (runOf_modRun (f := chunkWritten q.j) (fun _ => rfl) hr).trans ?_⟩
    unfold chunkWritten
    rw [hs]
    simp
  req := by
    unfold modRun
    rw [str_modStr_self]
  txns := rfl
  regs _ _ := rfl

theorem ShardKept.forEach {α : Type} {f : α → State → State} {l : List α} (h : ShardKept s k r sh u)
    (hf : ∀ a ∈ l, ∀ v, ShardKept s k r sh v → ShardKept s k r sh (f a v)) : ShardKept s k r sh (forEach l f u) := by
  induction l generalizing u with
  | nil => exact h
  | cons a l ih => exact ih (hf a (List.mem_cons_self ..) u h) (fun b hb => hf b (List.mem_cons_of_mem _ hb))

theorem ShardKept.outs_eq (h : ShardKept s k r sh u) (j : Nat) : firstOut u r j = firstOut s r j ∧ endOut u r j = endOut s r j := by
  have hi : eIn u r = eIn s r := congrArg perChunk (h.fmtAt_eq (nbits_lt r.rc.fmt 3 0))
  have ho : eOut u r = eOut s r := by
    have hfo : fmtAt u r.rc.outFmt = fmtAt s r.rc.outFmt := h.fmtAt_eq (nbits_lt r.rc.fmt 7 4)
    unfold eOut
    rw [hfo, hi]
  unfold firstOut endOut
  rw [hi, ho]
  exact ⟨rfl, rfl⟩

/-- An output chunk lies behind each gradient chunk. -/
theorem endOut_pos (hf : CopyFits s k r j) (hop : r.op = 13) : 1 ≤ endOut s r j := by
  have he : eOut s r = perChunk (fmtAt s r.rc.outFmt) := by
    unfold eOut
    rw [if_pos (by simp [hop])]
  have hp := hf.pos
  unfold endOut
  rw [he, hf.inChunk, Nat.le_div_iff_mul_le hp]
  omega

theorem capItem_none (kind t i ch m : Nat) (b : List Byte) (s : State) : capItem none kind t i ch m b s = s := rfl

/-- The writes of the only chunk, its update not skipped. -/
theorem shardWrites_kept {ub : List Byte} {q : SChunk} (hk : k < 256) (hop : r.op = 13) (hcap : r.cap = none) (hr : runOf s k r.rid = some r)
    (ha : acting s r = true) (hu : r.ub = some ub) (hskip : ubSkip ub = false) (hs : r.shards = [q]) (hw : q.written = false)
    (hc : q.computed = true) (hf : CopyFits s k r q.j)
    (h1 : ∃ o, placeOf s (offOf (momentAddr r ub q.j)) q.mom.length = .store o)
    (h2 : ∃ o, placeOf s (offOf (masterAddr r ub q.j)) q.master.length = .store o) :
    ∃ u, shardWrites k r.rid s = shardSettle k r.rid u ∧ ShardKept s k r [{ q with written := true }] u := by
  have hfind : r.shards.find? (fun q => !q.written) = some q := by
    rw [hs]
    exact List.find?_cons_of_pos (by rw [hw]; rfl)
  unfold shardWrites
  rw [hr]
  dsimp only
  rw [hu, hfind]
  dsimp only
  rw [if_pos (by rw [ha, hc]; rfl), hskip, if_neg Bool.false_ne_true, hcap]
  rw [capItem_none, capItem_none]
  refine ⟨_, rfl, ?_⟩
  have hbase := ((shardKept_chunkWritten hr hs).shardWrite (j := q.j) (o := none) h1).shardWrite (j := q.j) (o := none) h2
  refine hbase.forEach (fun c hm v hv => ?_)
  obtain ⟨ho1, ho2⟩ := hbase.outs_eq q.j
  have hmem : firstOut s r q.j ≤ c ∧ c < firstOut s r q.j + (endOut s r q.j - 1 + 1 - firstOut s r q.j) := by
    rw [← ho1, ← ho2]
    exact List.mem_range'_1.1 hm
  have hpos := endOut_pos hf hop
  exact hv.copyPart hk hop hcap hf hmem.1 (by omega) q

theorem closeStable_txns : CloseStable State.txns := by
  repeat' first | exact switchStable_txns.markStable | constructor
  all_goals intros; rfl

/-- A step that neither takes chunks nor is captured settles without a mark in any register. -/
theorem regs_settleRun {rid : Nat} (hr : runOf s k rid = some r) (hc : r.cap = none) (hv : r.receives = false) :
    (settleRun k rid s).regs = s.regs := by
  rcases settleRun_eq k rid s with e | e <;> rw [e]
  exact regs_endRun hr hc hv

/-- The chunk whose writes are done is counted with those before it. -/
theorem shardSettle_counts {q : SChunk} (hop : r.op = 13) (hcap : r.cap = none) (h : ShardKept s k r [{ q with written := true }] u)
    (ht : s.txns.any (fun g => match g.owner with | .shard a b j _ => a == k && b == r.rid && j == q.j | _ => false) = false) :
    (shardSettle k r.rid u).txns = s.txns
    ∧ rdN (shardSettle k r.rid u) (R.strShdDone k) = leadCount r.rc.length (q.j :: r.acked) % 2 ^ 32 := by
  obtain ⟨e, he⟩ := h.run
  unfold shardSettle
  rw [he, h.txns]
  dsimp -zeta only
  extract_lets ready acked s1 s2
  have hready : ready = [{ q with written := true }] := List.filter_cons_of_pos (congrArg (!·) ht)
  have hacked : acked = q.j :: r.acked := by
    show ready.map (fun q => q.j) ++ r.acked = _
    rw [hready]
    rfl
  have h2 : ∃ x, runOf s2 k r.rid = some x ∧ x.cap = none ∧ x.op = 13 := by
    refine ⟨_, runOf_modRun (fun _ => rfl) ((runOf_runs (s := u) ?_).trans he), hcap, hop⟩
    show (str (giveBlocks k _ u) k).runs = _
    unfold giveBlocks
    rw [str_modStr_self]
    unfold Stream.giveB
    rfl
  obtain ⟨x, hx, hxc, hxo⟩ := h2
  have hw : runOf (wrN (R.strShdDone k) (leadCount r.rc.length acked) s2) k r.rid = some x := by
    rw [runOf_congr (markStable_streams.wrN _ _ _)]
    exact hx
  constructor
  · exact (closeStable_txns.settleRun (uncaptured_of hw hxc)).trans h.txns
  · rw [rdN, rd, regs_settleRun hw hxc (receives_of_op hxo (by decide)), ← rd, ← rdN, rdN_wrN, hacked]

end
end Sys2Proof.Machine
end

section
/-! O48 (R357-R365, R371). -/
namespace Sys2Proof.Machine

section
variable {k : Nat} {s : State}

/-- The blocks of stream `k` that are taken: of its reserve, and drawn. -/
def blocksTaken (s : State) (k : Nat) : Nat := (str s k).inUse + (str s k).drawn

theorem blocksTaken_takeBlock (s : State) : blocksTaken (takeBlock k s) k = blocksTaken s k + 1 := (str_takeBlock s).1

theorem runOf_takeBlock (s : State) (rid : Nat) : runOf (takeBlock k s) k rid = runOf s k rid := runOf_runs (str_takeBlock s).2

theorem blocksTaken_modRun (rid : Nat) (f : Run → Run) : blocksTaken (modRun k rid f s) k = blocksTaken s k := by
  unfold blocksTaken modRun
  rw [str_modStr_self]

end

/-- Settles O48. -/
theorem shardUpdates : Obligations.ShardUpdates := by
  intro s k idx r hs hk hr hrun hop ha hcap
  refine ⟨?_, ?_, ?_, ?_⟩
  · intro data b s0 hu hh hl
    refine ⟨?_, ?_⟩
    · intro s1 hok hcs ht hr1
      refine ⟨_, hs.run _, ?_⟩
      have hr1' : runOf (if ubSkip b then ev R.cmbShdEvents 3 s1 else s1) k r.rid = some r := by
        split
        · rw [runOf_congr (markStable_streams.ev _ _ _)]
          exact hr1
        · exact hr1
      rw [runOf_congr (commit_streams _ _ _), onRun_some hr, updateBlockRead_done hrun hop ha hcap hu hh hl hok hcs ht,
        runOf_modRun (f := fun r => { r with ub := some b, blockWait := none }) (fun _ => rfl) hr1']
      rfl
    · intro hok hst hfin
      refine ⟨_, hs.run _, ?_⟩
      rw [commit_str, onRun_some hr, updateBlockRead_bad hrun hop ha hu hh hl hok]
      have hev := str_congr (markStable_streams.ev R.cmbShdEvents 1 s0) k
      obtain ⟨hruns, hstate, -⟩ := faultStream_leaves (k := k) (s := ev R.cmbShdEvents 1 s0) (idx := r.idx) (st := 0x1B)
        (by rw [hev]; exact hst) (by rw [hev]; exact hfin)
      exact ⟨hruns, hstate⟩
  · intro ub c g w m grad master mom s1 s2 s3 hu hskip hn hn8 h1 h2 h3 hp hg hb hpick hl1 hl2 hl3 hr3
    have he := shardBegin_begins hrun hop ha hcap hu hskip hn hn8 h1 h2 h3 hp hg hb hpick hl1 hl2 hl3
    refine ⟨_, hs.run _, ?_, ?_, ?_⟩
    · rw [commit_regs, onRun_some hr, he]
      rfl
    · show blocksTaken _ k = blocksTaken s3 k + 3
      rw [blocksTaken, commit_str, ← blocksTaken, onRun_some hr, he]
      simp only [blocksTaken_takeBlock, blocksTaken_modRun]
    · rw [runOf_congr (commit_streams _ _ _), onRun_some hr, he]
      simp only [runOf_takeBlock]
      rw [runOf_modRun (f := shardBegun s c g w m r.nextShard) (fun _ => rfl) hr3]
      rfl
  · intro ub q hu hsh hw hc
    refine ⟨_, hs.run _, ?_⟩
    intro r' hr' p hp hj
    rw [runOf_congr (commit_streams _ _ _), onRun_some hr] at hr'
    have hi := shardWrites_issues hrun ha hu hsh hw hc
    exact hi r' (List.mem_of_find?_eq_some hr') (by simpa using List.find?_some hr') p hp hj
  · intro ub q fo o1 o2 hu hskip hsh hw hc hfo hin hpos hbits hscale hm hma hplace hnone
    subst hfo
    obtain ⟨u, he, hkept⟩ := shardWrites_kept hk hop hcap hrun ha hu hskip hsh hw hc ⟨hin, hpos, hbits, hscale, hplace⟩ ⟨_, hm⟩ ⟨_, hma⟩
    obtain ⟨ht, hd⟩ := shardSettle_counts hop hcap hkept hnone
    refine ⟨_, hs.run _, ?_, ?_⟩
    · rw [commit_txns, onRun_some hr, he]
      exact ht
    · rw [rdN_congr (commit_regs _ _ _), onRun_some hr, he]
      exact hd

end Sys2Proof.Machine
end

section
/-! O60 (R542, R543, R546): the tests of GO, the run of a replay, and its end. -/
namespace Sys2Proof.Machine

section
variable {s : State} {r : Replay} {k n : Nat}

theorem commit_replay (b : Bool) (s0 s1 : State) : (commit b s0 s1).replay = s1.replay := rfl

theorem markStable_replay : MarkStable State.replay := by constructor <;> intros <;> rfl

theorem rfld_wrN (a v hi lo : Nat) (s : State) : rfld (wrN a v s) a hi lo = nbits (v % 2 ^ 32) hi lo := by
  rw [rfld, wrN, rd_wr_self, fld, BitVec.toNat_ofNat]

theorem rfld_evI_ne {a b : Nat} (h : b ≠ a) (i ib : Nat) (inj : Bool) (hi lo : Nat) (s : State) :
    rfld (evI a i ib inj s) b hi lo = rfld s b hi lo := by
  rw [rfld, rd_evI_ne h, rfld]

/-- The code and the ID of RPL_RESULT. -/
theorem result_fields {c id : Nat} (hc : c < 16) (hid : id < 65536) :
    nbits ((c * 16 + id * 65536) % 2 ^ 32) 7 4 = c ∧ nbits ((c * 16 + id * 65536) % 2 ^ 32) 31 16 = id := by
  unfold nbits
  rw [Nat.shiftRight_eq_div_pow, Nat.shiftRight_eq_div_pow]
  omega

/-! ### GO (R542) -/

/-- The state in which GO makes its tests. -/
def goCleared (s : State) : State := wrN R.rplMismatchCount 0 (wrN R.rplFirstMismatch 0 s)

/-- What a test of GO that fails leaves. -/
structure Refused (code : Nat) (s t : State) : Prop where
  replay : t.replay = s.replay
  streams : t.streams = s.streams
  result : rfld t R.rplResult 7 4 = code
  event : rbit t R.rplEvents 2 = true
  others : ∀ a, a ≠ R.rplEvents → a ≠ R.rplResult → rd t a = rd s a

theorem refused_rpRefuse {code : Nat} (hc : code < 16) (id : Nat) (s : State) : Refused code s (rpRefuse code id s) where
  replay := (markStable_replay.evI _ _ _ _ _).trans (markStable_replay.wrN _ _ _)
  streams := (markStable_streams.evI _ _ _ _ _).trans (markStable_streams.wrN _ _ _)
  result := by
    rw [rpRefuse, rfld_evI_ne (by decide), rfld_wrN]
    exact (result_fields hc (Nat.mod_lt _ (by decide))).1
  event := rbit_evI _ _ _ _ _ (by decide) (by decide) (by decide)
  others a h1 h2 := by rw [rpRefuse, rd_evI_ne h1, rd_wrN_ne h2]

theorem refused_rpRefuseFree {code : Nat} (hc : code < 16) (s : State) : Refused code s (rpRefuseFree code s) := by
  obtain ⟨h1, h2, h3, h4, h5⟩ := refused_rpRefuse hc (freeWord s).1.toNat (freeWord s).2
  exact ⟨h1, h2, h3, h4, h5⟩

/-- The clearing of the mismatch registers changes no other. -/
theorem rd_goCleared {a : Nat} (h1 : a ≠ R.rplMismatchCount) (h2 : a ≠ R.rplFirstMismatch) (s : State) : rd (goCleared s) a = rd s a := by
  rw [goCleared, rd_wrN_ne h1, rd_wrN_ne h2]

theorem rdN_goCleared (s : State) : rdN (goCleared s) R.rplMismatchCount = 0 := rdN_wrN _ _ _

theorem owns_goCleared (s : State) (n k : Nat) : owns (goCleared s) n k = owns s n k := by
  unfold owns strBase strCount rfld
  rw [rd_goCleared]
  · unfold R.parStreamRange R.rplMismatchCount; omega
  · unfold R.parStreamRange R.rplFirstMismatch; omega

theorem ownerOf_goCleared (s : State) (k : Nat) : ownerOf (goCleared s) k = ownerOf s k := by
  unfold ownerOf
  exact congrArg (fun p => (range 0 15).find? p) (funext (fun n => owns_goCleared s n k))

theorem isolated_goCleared (s : State) (k : Nat) : isolated (goCleared s) k = isolated s k := by
  unfold isolated
  rw [ownerOf_goCleared]
  cases ho : ownerOf s k with
  | none => rfl
  | some n =>
    have hn : n < 16 := by
      have := List.mem_range'_1.1 (List.mem_of_find?_eq_some ho)
      omega
    have h1 : R.parReplay n ≠ R.rplMismatchCount := by unfold R.parReplay R.rplMismatchCount; omega
    have h2 : R.parReplay n ≠ R.rplFirstMismatch := by unfold R.parReplay R.rplFirstMismatch; omega
    dsimp only
    rw [rbit, rd_goCleared h1 h2, rbit]

/-- The partition a replay runs in, where one of its registers lets it (R541). -/
def goOwner (s : State) : Option Nat :=
  if isolated s (rfld s R.rplRunStream 7 0) then ownerOf s (rfld s R.rplRunStream 7 0) else none

theorem goOwner_goCleared (s : State) : goOwner (goCleared s) = goOwner s := by
  have hk : rfld (goCleared s) R.rplRunStream 7 0 = rfld s R.rplRunStream 7 0 := by
    rw [rfld, rd_goCleared (by decide) (by decide), rfld]
  unfold goOwner
  rw [hk, isolated_goCleared, ownerOf_goCleared]

theorem replayGo_unowned (hr : s.replay = none) (h : goOwner s = none) : replayGo s = rpRefuseFree 4 (goCleared s) := by
  rw [← goOwner_goCleared] at h
  unfold replayGo
  rw [hr]
  refine (if_neg Bool.false_ne_true).trans ?_
  extract_lets s1 k u
  have hn : (if isolated s1 k then ownerOf s1 k else none) = none := h
  rw [hn]
  rfl

theorem replayGo_unheld (hr : s.replay = none) (h : goOwner s = some n) (hi : (str s (rfld s R.rplRunStream 7 0)).st = .idle)
    (hu : ringUnits s = 0 ∨ unitHeld s (rdN s R.rplRunCapture) = false ∨ unitKind s (rdN s R.rplRunCapture) ≠ 1) :
    replayGo s = rpRefuseFree 5 (goCleared s) := by
  rw [← goOwner_goCleared] at h
  have hidle : ¬ (str (goCleared s) (rfld (goCleared s) R.rplRunStream 7 0)).st ≠ .idle := by
    have hk : rfld (goCleared s) R.rplRunStream 7 0 = rfld s R.rplRunStream 7 0 := by
      rw [rfld, rd_goCleared (by decide) (by decide), rfld]
    rw [hk]
    exact not_not_intro hi
  have hring : ringUnits (goCleared s) = ringUnits s := by
    rw [ringUnits, rfld, rd_goCleared (by decide) (by decide), ← rfld, ringUnits]
  have hcap : rdN (goCleared s) R.rplRunCapture = rdN s R.rplRunCapture := by
    rw [rdN, rd_goCleared (by decide) (by decide), rdN]
  have hheld (u : Nat) : unitHeld (goCleared s) u = unitHeld s u := by
    unfold unitHeld ringUsed
    rw [rd_goCleared (by decide) (by decide), rd_goCleared (by decide) (by decide)]
  have hkind (u : Nat) : unitKind (goCleared s) u = unitKind s u := by
    unfold unitKind unitAddr
    rw [hring]
    exact congrArg BitVec.toNat (stgGet_congr (s := s) (t := goCleared s) rfl rfl _)
  unfold replayGo
  rw [hr]
  refine (if_neg Bool.false_ne_true).trans ?_
  extract_lets s1 k u l id
  have hn : (if isolated s1 k then ownerOf s1 k else none) = some n := h
  rw [hn]
  rw [← hring, ← hcap, ← hheld, ← hkind] at hu
  exact (if_neg hidle).trans (if_pos hu)

/-! ### The run (R543) -/

theorem replayRun_leaves (reads : List (List Byte)) (s : State) : ∃ q, (replayRun r reads s).replay = some q ∧ q.ready = false
    ∧ q.stream = r.stream ∧ q.cap = r.cap ∧ rdN (replayRun r reads s) R.rplMismatchCount = q.mism % 2 ^ 32 ∧ (q.mism = 0 → q.first = none) := by
  unfold replayRun
  extract_lets k n l v run0 q0 p m f s1
  refine ⟨_, rfl, rfl, rfl, rfl, rdN_wrN _ _ _, fun h => ?_⟩
  show firstMism p.mism = none
  rw [List.length_eq_zero_iff.1 h]
  rfl

/-! ### The end (R546) -/

theorem replayEnd_replay (inj : Bool) (s : State) : (replayEnd r inj s).replay = none := rfl

theorem replayEnd_streams (inj : Bool) (s : State) : (replayEnd r inj s).streams = s.streams := by
  unfold replayEnd
  extract_lets c s1 s2 s3
  have e2 : s2.streams = s1.streams := by
    unfold s2
    cases r.fault with
    | none => rfl
    | some f => rfl
  have e3 : s3.streams = s2.streams := by
    unfold s3
    split
    · rfl
    · exact markStable_streams.ev _ _ _
  exact (markStable_streams.evI _ _ _ _ s3).trans (e3.trans e2)

/-- The code of a replay's result (Table 17.11). -/
def replayCode (r : Replay) : Nat :=
  match r.fault, r.first with
  | some _, _ => 3
  | none, some (_, true) => 1
  | none, some (_, false) => 2
  | none, none => 0

theorem replayCode_lt (r : Replay) : replayCode r < 16 := by
  unfold replayCode
  split <;> decide

theorem replayCode_fault {f : Nat} (h : r.fault = some f) : replayCode r = 3 := by
  unfold replayCode
  rw [h]

theorem replayCode_clean (h : r.fault = none) (hf : r.first = none) : replayCode r = 0 := by
  unfold replayCode
  rw [h, hf]

/-- RPL_RESULT and RPL_FAULT are those of the end, then the events. -/
theorem replayEnd_eq (inj : Bool) (s : State) : ∃ u v, replayEnd r inj s = { evI R.rplEvents 2 5 inj v with replay := none }
    ∧ v = (if r.mism = 0 then u else ev R.rplEvents 3 u)
    ∧ rd u R.rplResult = BitVec.ofNat 32 (replayCode r * 16 + r.cap * 65536) ∧ (∀ f, r.fault = some f → rdN u R.rplFault = f % 2 ^ 32) := by
  have hres : rd (wrN R.rplResult (replayCode r * 16 + r.cap * 65536) s) R.rplResult
      = BitVec.ofNat 32 (replayCode r * 16 + r.cap * 65536) := rd_wr_self _ _ _
  cases hf : r.fault with
  | none =>
    refine ⟨wrN R.rplResult (replayCode r * 16 + r.cap * 65536) s, _, ?_, rfl, hres, fun f h => absurd h (by simp)⟩
    unfold replayEnd replayCode
    rw [hf] <;> rfl
  | some f =>
    refine ⟨wrN R.rplFault f (wrN R.rplResult (replayCode r * 16 + r.cap * 65536) s), _, ?_, rfl, ?_, ?_⟩
    · unfold replayEnd replayCode
      rw [hf] <;> rfl
    · rw [rd_wrN_ne (by decide)]
      exact hres
    · intro g hg
      rw [rdN_wrN, Option.some.inj hg]

theorem rd_replayEnd (inj : Bool) (s : State) : rd (replayEnd r inj s) R.rplResult = BitVec.ofNat 32 (replayCode r * 16 + r.cap * 65536)
    ∧ (∀ f, r.fault = some f → rdN (replayEnd r inj s) R.rplFault = f % 2 ^ 32) ∧ rbit (replayEnd r inj s) R.rplEvents 2 = true
    ∧ (r.mism ≠ 0 → rbit (replayEnd r inj s) R.rplEvents 3 = true) := by
  obtain ⟨u, v, he, hv, hres, hfault⟩ := replayEnd_eq (r := r) inj s
  have hother (a : Nat) (ha : a ≠ R.rplEvents) : rd (replayEnd r inj s) a = rd u a := by
    rw [he]
    refine (rd_evI_ne ha _ _ _ _).trans ?_
    rw [hv]
    split
    · rfl
    · exact rd_ev_ne ha _ _
  refine ⟨(hother _ (by decide)).trans hres, fun f hf => ?_, ?_, fun hm => ?_⟩
  · rw [rdN, hother _ (by decide), ← rdN, hfault f hf]
  · rw [he]
    exact rbit_evI _ _ _ _ v (by decide) (by decide) (by decide)
  · have h3 : rbit v R.rplEvents 3 = true := by
      rw [hv, if_neg hm]
      exact rbit_ev _ _ _ (by decide)
    rw [he]
    show rbit (evI R.rplEvents 2 5 inj v) R.rplEvents 3 = true
    unfold evI
    split
    · rw [rbit_ev_other _ _ _ _ _ (by decide) (.inr (by decide)), rbit_ev_other _ _ _ _ _ (by decide) (.inr (by decide)), h3]
    · rw [rbit_wbitAt_other _ _ _ _ _ _ (by decide) (.inr (by decide)), rbit_ev_other _ _ _ _ _ (by decide) (.inr (by decide)), h3]

end

/-- Settles O60. -/
theorem replays : Obligations.Replays := by
  intro s hs
  refine ⟨?_, ?_, ?_, ?_, ?_, ?_⟩
  · intro reads hr hown
    have hg : goOwner s = none := by
      unfold goOwner
      rcases hown with h | h <;> rw [h]
      · exact if_neg Bool.false_ne_true
      · exact ite_self none
    have he : replayStart reads s = replayGo s := by
      have hn : (replayGo s).replay = none := by
        rw [replayGo_unowned hr hg, (refused_rpRefuseFree (by decide) _).replay]
        exact hr
      unfold replayStart
      rw [hr]
      dsimp only
      rw [hn]
    obtain ⟨h1, h2, h3, h4, h5⟩ := refused_rpRefuseFree (code := 4) (by decide) (goCleared s)
    refine ⟨_, hs.run _, ?_⟩
    rw [he, replayGo_unowned hr hg, commit_replay, commit_rfld, commit_rbit, commit_streams, commit_rdN]
    refine ⟨h1.trans hr, h3, h4, h2, ?_⟩
    rw [rdN, h5 _ (by decide) (by decide), ← rdN, rdN_goCleared]
  · intro reads k n hr hk hiso hown hidle hu
    subst hk
    have hg : goOwner s = some n := by
      unfold goOwner
      rw [if_pos hiso, hown]
    have he : replayStart reads s = replayGo s := by
      have hn : (replayGo s).replay = none := by
        rw [replayGo_unheld hr hg hidle hu, (refused_rpRefuseFree (by decide) _).replay]
        exact hr
      unfold replayStart
      rw [hr]
      dsimp only
      rw [hn]
    obtain ⟨h1, h2, h3, h4, -⟩ := refused_rpRefuseFree (code := 5) (by decide) (goCleared s)
    refine ⟨_, hs.run _, ?_⟩
    rw [he, replayGo_unheld hr hg hidle hu, commit_replay, commit_rfld, commit_rbit, commit_streams]
    exact ⟨h1.trans hr, h3, h4, h2⟩
  · intro reads r hr hready
    have he : replayStart reads s = ev R.rplEvents 4 s := by
      unfold replayStart
      rw [hr]
      dsimp only
      rw [hready, if_neg Bool.false_ne_true]
      unfold replayGo
      rw [hr]
      rfl
    refine ⟨_, hs.run _, ?_⟩
    rw [he, commit_rbit, commit_replay, commit_streams]
    exact ⟨rbit_ev _ _ _ (by decide), markStable_replay.ev _ _ _, markStable_streams.ev _ _ _⟩
  · intro reads r hr hready
    have he : replayStart reads s = replayRun r reads s := by
      unfold replayStart
      rw [hr]
      dsimp only
      rw [if_pos hready]
    obtain ⟨q, h1, h2, h3, h4, h5, h6⟩ := replayRun_leaves (r := r) reads s
    refine ⟨_, q, hs.run _, ?_⟩
    rw [he, commit_replay, commit_rdN]
    exact ⟨h1, h2, h3, h4, h5, h6⟩
  · intro r hover hr hcap
    have he : replayDone s = toIdle r.stream (replayEnd r (str s r.stream).inj s) := by
      unfold replayDone
      rw [hr]
    obtain ⟨h1, h2, h3, h4⟩ := rd_replayEnd (r := r) (str s r.stream).inj s
    have hfld (hi lo : Nat) : rfld (replayEnd r (str s r.stream).inj s) R.rplResult hi lo
        = nbits ((replayCode r * 16 + r.cap * 65536) % 2 ^ 32) hi lo := by
      rw [rfld, h1, fld, BitVec.toNat_ofNat]
    obtain ⟨hcode, hid⟩ := result_fields (replayCode_lt r) hcap
    refine ⟨_, hs.run_whenB hover _, ?_⟩
    rw [he, commit_replay, commit_str, commit_rbit, commit_rbit, commit_rfld, commit_rfld, commit_rdN]
    refine ⟨rfl, (toIdle_str _ _).2, h3, (hfld 31 16).trans hid, fun hf hm => ?_, fun f hf => ⟨?_, h2 f hf⟩, h4, fun k hk => ?_⟩
    · exact ((hfld 7 4).trans hcode).trans (replayCode_clean hf hm)
    · exact ((hfld 7 4).trans hcode).trans (replayCode_fault hf)
    · rw [commit_str, toIdle, str_modStr_ne hk]
      exact str_congr (replayEnd_streams _ _) k
  · exact State.Ready.run_self (s := { s with replay := none }) hs rfl

end Sys2Proof.Machine
end

section
/-! O50 (R421, R422, R529): responses stored, and the cells software sends. -/
namespace Sys2Proof.Machine

section
variable {s : State} {c : Cell} {n : Nat}

theorem natBE_foldl_lt (l : List Byte) (a : Nat) : l.foldl (fun a b => a * 256 + b.toNat) a < (a + 1) * 256 ^ l.length := by
  induction l generalizing a with
  | nil => simp
  | cons b l ih =>
    have hb : b.toNat < 256 := b.isLt
    refine (ih (a * 256 + b.toNat)).trans_le ?_
    rw [List.length_cons, Nat.pow_succ']
    calc (a * 256 + b.toNat + 1) * 256 ^ l.length ≤ ((a + 1) * 256) * 256 ^ l.length := Nat.mul_le_mul_right _ (by omega)
      _ = (a + 1) * (256 * 256 ^ l.length) := Nat.mul_assoc _ _ _

theorem fieldBE_lt (l : List Byte) (o n : Nat) : fieldBE l o n < 256 ^ n := by
  have h := natBE_foldl_lt (slice l o n) 0
  rw [slice_length, zero_add, one_mul] at h
  exact h

/-! ### A stored response (R422, R529) -/

theorem rd_wrWords_lt {a b : Nat} (h : b < a) (l : List Word) (s : State) : rd (wrWords a l s) b = rd s b := by
  induction l generalizing a s with
  | nil => rfl
  | cons v l ih => rw [wrWords, ih (by omega), rd_wr_ne (by omega)]

theorem rd_wrWords (a : Nat) (l : List Word) (s : State) {i : Nat} (h : i < l.length) : rd (wrWords a l s) (a + 4 * i) = l[i] := by
  induction l generalizing a s i with
  | nil => exact absurd h (Nat.not_lt_zero _)
  | cons v l ih =>
    cases i with
    | zero =>
      rw [wrWords, rd_wrWords_lt (by omega)]
      exact rd_wr_self _ _ _
    | succ i =>
      rw [wrWords, show a + 4 * (i + 1) = a + 4 + 4 * i by omega, ih _ _ (Nat.lt_of_succ_lt_succ h)]
      rfl

/-- The words of a response received: its payload, and its SRC. -/
def responseWords (c : Cell) : List Word :=
  (List.range 16).map (fun w => BitVec.ofNat 32 (fieldBE c.payload (4 * w) 4)) ++ [BitVec.ofNat 32 (wSrc c)]

theorem responseWords_payload {i : Nat} (h : i < 16) (hl : i < (responseWords c).length) :
    (responseWords c)[i].toNat = fieldBE c.payload (4 * i) 4 := by
  revert hl
  unfold responseWords
  intro hl
  rw [List.getElem_append_left (by simpa using h), List.getElem_map, List.getElem_range, BitVec.toNat_ofNat]
  exact Nat.mod_eq_of_lt (fieldBE_lt _ _ 4)

theorem responseWords_src (hl : 16 < (responseWords c).length) : (responseWords c)[16].toNat = wSrc c := by
  have hs : wSrc c < 2 ^ 32 := (nbits_lt _ _ _).trans (by decide)
  revert hl
  unfold responseWords
  intro hl
  rw [List.getElem_append_right (by simp)]
  simp only [List.length_map, List.length_range, Nat.sub_self, List.getElem_cons_zero, BitVec.toNat_ofNat]
  exact Nat.mod_eq_of_lt hs

/-- A response received while an entry is free. -/
theorem rxStore_stores {base head tail events size : Nat} (hb : head < base) (h : (rd s head - rd s tail).toNat ≠ size) :
    rd (rxStore base head tail events size c s) head = rd s head + 1
    ∧ rdN (rxStore base head tail events size c s) (base + rdN s head % size * 0x80 + 4 * 16) = wSrc c
    ∧ ∀ w, w < 16 → rdN (rxStore base head tail events size c s) (base + rdN s head % size * 0x80 + 4 * w) = fieldBE c.payload (4 * w) 4 := by
  have he : rxStore base head tail events size c s
      = wr head (rd s head + 1) (wrWords (base + rdN s head % size * 0x80) (responseWords c) s) := if_neg h
  have hl : (responseWords c).length = 17 := by simp [responseWords]
  have hword (i : Nat) (hi : i < (responseWords c).length) :
      rdN (rxStore base head tail events size c s) (base + rdN s head % size * 0x80 + 4 * i) = (responseWords c)[i].toNat := by
    rw [he, rdN_wr_ne (by omega), rdN, rd_wrWords _ _ _ hi]
  refine ⟨by rw [he, rd_wr_self], ?_, fun w hw => ?_⟩
  · rw [hword 16 (by omega), responseWords_src]
  · rw [hword w (by omega), responseWords_payload hw]

/-- A response received while no entry is free. -/
theorem rxStore_full {base head tail events size : Nat} (h : (rd s head - rd s tail).toNat = size) :
    rxStore base head tail events size c s = ev events 1 s := if_pos h

theorem ctrlTake_response (hp : payloadOk c = true) (ho : ctrlOp c = 3 ∨ ctrlOp c = 4 ∨ ctrlOp c = 6) :
    ctrlTake n c s = rxStore (R.glbCtrlRx 0 0) R.glbCtrlRxHead R.glbCtrlRxTail R.glbCtrlEvents 8 c s := by
  unfold ctrlTake
  rw [hp]
  exact (if_neg Bool.false_ne_true).trans ((if_neg (by omega)).trans (if_pos ho))

/-! ### The cells software sends (R422, R529) -/

theorem markStable_mgr : MarkStable State.mgr := by constructor <;> intros <;> rfl

theorem injectStable_mgr : InjectStable State.mgr := by constructor <;> intros <;> rfl

theorem InjectStable.pathSend {α : Type} {g : State → α} (h : InjectStable g) (m i : Nat) (c : Cell) (s : State) :
    g (pathSend m i false c s).1 = g s := by
  have fail : g (pathFail m c s) = g s := by
    unfold pathFail
    rw [h.raise_mk (by decide), h.evI (by decide), h.cnt (by decide)]
  unfold Machine.pathSend
  dsimp only
  split
  · exact fail
  split
  · exact fail
  split
  · exact fail
  · rename_i hp _
    exact h.enqueue (by omega) _ _ _

/-- The cell GLB_CTRL_SEND sends. -/
def ctrlCell (s : State) : Cell :=
  setWelt 37 37 s.ep.inj (mkCell (rfld s R.glbCtrlTxDest 12 0) (ownId s) 2 9 0 0 0 (txPayload s (R.glbCtrlTx 0)))

/-- The cell TEL_SVY_SEND sends. -/
def surveyCell (s : State) : Cell :=
  setWelt 37 37 s.ep.inj (mkCell (rfld s R.telSvyTxDest 12 0) (ownId s) 2 10 0 0 0 (txPayload s (R.telSvyTx 0)))

theorem ctrlSend_pending (h : sendPending s s.mgr.ctrlSent = true) : ctrlSend s = ev R.glbCtrlEvents 0 s := if_pos h
theorem svySend_pending (h : sendPending s s.mgr.svySent = true) : svySend s = ev R.telSvyEvents 0 s := if_pos h

/-- What the sending of a cell leaves as it is. -/
theorem ctrlSend_field {α : Type} {g : State → α} (hg : InjectStable g) (hm : MarkStable g) (h : sendPending s s.mgr.ctrlSent = false) :
    g (ctrlSend s) = g { s with mgr := { s.mgr with ctrlSent := some (ctrlCell s) } } := by
  unfold ctrlSend
  rw [h, if_neg Bool.false_ne_true]
  dsimp only
  rw [← ctrlCell]
  generalize ctrlCell s = c
  split
  · split
    · exact hg.pathSend _ _ _ _
    · exact (hm.ev _ _ _).trans (hg.pathSend _ _ _ _)
  · split
    · exact (hm.ev _ _ _).trans (hg.inject _ _ _ _)
    · exact hg.inject _ _ _ _

theorem svySend_field {α : Type} {g : State → α} (hg : InjectStable g) (hm : MarkStable g) (h : sendPending s s.mgr.svySent = false) :
    g (svySend s) = g { s with mgr := { s.mgr with svySent := some (surveyCell s) } } := by
  unfold svySend
  rw [h, if_neg Bool.false_ne_true]
  dsimp only
  rw [← surveyCell]
  generalize surveyCell s = c
  split
  · exact (hm.ev _ _ _).trans (hg.inject _ _ _ _)
  · exact hg.inject _ _ _ _

/-- An explicit-path cell goes out by the port its path names. -/
theorem pathSend_goes {p : Nat} (hp : p = (c.payload.getD 1 0).toNat) (hl : 0 < nbits (c.payload.getD 0 0).toNat 2 0)
    (hport : (4 ≤ p ∧ p ≤ 18) ∨ (21 ≤ p ∧ p ≤ 30)) (hu : usable s false p = true) (hq : 0 < queueFree s p .vc2) (m : Nat) :
    pathSend m 0 false c s = (enqueue p .vc2 c s, true) := by
  unfold pathSend
  dsimp only
  rw [zero_add, ← hp]
  refine (if_neg (by omega)).trans ((if_neg (not_not_intro hport)).trans ((if_neg ?_).trans (if_neg Bool.false_ne_true)))
  rw [hu]
  exact not_or.2 ⟨Bool.false_ne_true, by omega⟩

/-- An explicit-path cell of GLB_CTRL_SEND goes out by the port its path names. -/
theorem ctrlSend_goes {p : Nat} (h : sendPending s s.mgr.ctrlSent = false) (hx : isExplicit (ctrlCell s) = true)
    (hp : p = ((ctrlCell s).payload.getD 1 0).toNat) (hl : 0 < nbits ((ctrlCell s).payload.getD 0 0).toNat 2 0)
    (hport : (4 ≤ p ∧ p ≤ 18) ∨ (21 ≤ p ∧ p ≤ 30)) (hu : usable s false p = true) (hq : 0 < queueFree s p .vc2) :
    ctrlSend s = enqueue p .vc2 (ctrlCell s) { s with mgr := { s.mgr with ctrlSent := some (ctrlCell s) } } := by
  unfold ctrlSend
  rw [h, if_neg Bool.false_ne_true]
  dsimp only
  rw [← ctrlCell]
  generalize ctrlCell s = c at *
  rw [hx, if_pos rfl, pathSend_goes (s := { s with mgr := { s.mgr with ctrlSent := some c } }) hp hl hport hu hq]
  exact if_pos rfl

end

/-- Settles O50. -/
theorem ctrlResponsesAndSends : Obligations.CtrlResponsesAndSends := by
  intro s hs
  refine ⟨?_, ?_, ?_, ?_, ?_, ?_⟩
  · intro s1 n b c i hd hc hm ht hp hi
    have hex : exec i s = .next (commit false s (rxStore (R.glbCtrlRx 0 0) R.glbCtrlRxHead R.glbCtrlRxTail R.glbCtrlEvents 8 c s1)) := by
      rcases hi with ⟨rfl, ho⟩ | ⟨rfl, ho⟩ | ⟨rfl, ho⟩
      all_goals
        refine (hs.run_takeCell hd hc (by rw [ht, ho]; rfl) hm).trans ?_
        rw [ctrlTake_response hp (by omega)]
    refine ⟨fun h => ⟨_, hex, ?_⟩, fun h => ⟨_, hex, ?_⟩⟩
    · obtain ⟨h1, h2, h3⟩ := rxStore_stores (c := c) (base := R.glbCtrlRx 0 0) (events := R.glbCtrlEvents) (by decide) h
      have haddr (w : Nat) : R.glbCtrlRx (rdN s1 R.glbCtrlRxHead % 8) w = R.glbCtrlRx 0 0 + rdN s1 R.glbCtrlRxHead % 8 * 0x80 + 4 * w := by
        unfold R.glbCtrlRx
        omega
      refine ⟨h1, ?_, fun w hw => ?_⟩
      · rw [haddr]
        exact h2
      · rw [haddr]
        exact h3 w hw
    · rw [rxStore_full h, commit_rbit]
      exact ⟨rbit_ev _ _ _ (by decide), fun a ha => rd_ev_ne ha _ _⟩
  · intro h
    refine ⟨_, hs.run _, ?_⟩
    rw [ctrlSend_pending h, commit_rbit, commit_ports, commit_waiting, commit_mgr]
    exact ⟨rbit_ev _ _ _ (by decide), markStable_ports.ev _ _ _, markStable_waiting.ev _ _ _, markStable_mgr.ev _ _ _⟩
  · intro c h hc
    obtain rfl : c = ctrlCell s := hc
    refine ⟨⟨_, hs.run _, ?_⟩, fun p hx hp hl hport hu hq hdoze => ⟨_, hs.run _, ?_⟩⟩
    · rw [commit_mgr, ctrlSend_field injectStable_mgr markStable_mgr h]
    · rw [ctrlSend_goes h hx hp hl hport hu hq]
      generalize ctrlCell s = c
      rw [enqueue_of_not_doze (s := { s with mgr := { s.mgr with ctrlSent := some c } }) hdoze, commit_port, commit_regs,
        port_modPort_self]
      exact ⟨rfl, rfl⟩
  · intro h
    refine ⟨_, hs.run _, ?_⟩
    rw [svySend_pending h, commit_rbit, commit_ports, commit_waiting, commit_mgr]
    exact ⟨rbit_ev _ _ _ (by decide), markStable_ports.ev _ _ _, markStable_waiting.ev _ _ _, markStable_mgr.ev _ _ _⟩
  · intro c h hc
    refine ⟨_, hs.run _, ?_⟩
    rw [commit_mgr, svySend_field injectStable_mgr markStable_mgr h]
    exact congrArg some hc.symm
  · exact ⟨_, hs.run _, rfl, rfl, rfl⟩

end Sys2Proof.Machine
end

section
/-! SUPPORT. What a reset that begins leaves (R423-R425), and what resuming boot leaves. -/
namespace Sys2Proof.Machine

/-! ### Readings that the dropping of registers and of what is staged does not change -/

/-- Registers whose reading a reset gives. -/
def shownReg (a : Nat) : Bool :=
  decide (a = R.glbIncarnation ∨ a = R.glbResetCause ∨ a = R.glbBootStatus ∨ a = R.glbTemp ∨ a = R.clkStatus ∨ a = R.mtcStatus)

theorem shownReg_false {a : Nat}
    (h : ¬ (a = R.glbIncarnation ∨ a = R.glbResetCause ∨ a = R.glbBootStatus ∨ a = R.glbTemp ∨ a = R.clkStatus ∨ a = R.mtcStatus)) :
    shownReg a = false := decide_eq_false h

/-- A reading of the state that depends on nothing that a reset drops of registers, staged values, points and sequences. -/
structure ResetStable {α : Type} (g : State → α) : Prop where
  wr : ∀ a v s, shownReg a = false → g (wr a v s) = g s
  drop : ∀ (p : Nat → Bool) s, (∀ a, shownReg a = true → p a = true) → g { s with regs := s.regs.filter (fun e => p e.1) } = g s
  touch : ∀ a v s, g (touch a v s) = g s
  dets : ∀ x s, g { s with dets := x } = g s
  jq : ∀ x s, g { s with jq := x } = g s
  push : ∀ x n s, g { s with pushq := x, pseq := n } = g s
  tbl : ∀ x y s, g { s with eccBad := x, tblOld := y } = g s
  awl : ∀ x s, g { s with awl := x } = g s
  staged : ∀ x y z s, g { s with staged := x, stagedNow := y, bootPend := z } = g s
  fl : ∀ x s, g { s with fl := x } = g s

theorem tfind_filter {α : Type} {p : Nat → Bool} {k : Nat} (h : p k = true) (t : Tbl α) :
    tfind k (t.filter (fun e => p e.1)) = tfind k t := by
  induction t with
  | nil => rfl
  | cons e t ih =>
    obtain ⟨j, v⟩ := e
    by_cases hj : j = k
    · subst hj
      rw [List.filter_cons_of_pos (by exact h), tfind, tfind, if_pos rfl, if_pos rfl]
    · rw [tfind, if_neg hj]
      by_cases hp : p j = true
      · rw [List.filter_cons_of_pos (by exact hp), tfind, if_neg hj, ih]
      · rw [List.filter_cons_of_neg (by exact hp), ih]

theorem rd_filter {p : Nat → Bool} {a : Nat} (h : p a = true) (s : State) :
    rd { s with regs := s.regs.filter (fun e => p e.1) } a = rd s a := by
  unfold rd tget
  rw [tfind_filter h]

theorem tfind_filter_none {α : Type} {p : Nat → Bool} {k : Nat} (h : p k = false) (t : Tbl α) :
    tfind k (t.filter (fun e => p e.1)) = none := by
  induction t with
  | nil => rfl
  | cons e t ih =>
    obtain ⟨j, v⟩ := e
    by_cases hp : p j = true
    · have hj : j ≠ k := fun e => by rw [e, h] at hp; cases hp
      rw [List.filter_cons_of_pos (by exact hp), tfind, if_neg hj, ih]
    · rw [List.filter_cons_of_neg (by exact hp), ih]

/-- A register that is dropped shows its reset value. -/
theorem rd_filter_reset {p : Nat → Bool} {a : Nat} (h : p a = false) (s : State) :
    rd { s with regs := s.regs.filter (fun e => p e.1) } a = resetReg a := by
  unfold rd tget
  rw [tfind_filter_none h]

theorem resetStable_rd {a : Nat} (ha : shownReg a = true) : ResetStable (rd · a) where
  wr b v s hb := rd_wr_ne (fun e => by rw [e, hb] at ha; cases ha) v s
  drop p s hp := rd_filter (hp a ha) s
  touch _ _ _ := rfl
  dets _ _ := rfl
  jq _ _ := rfl
  push _ _ _ := rfl
  tbl _ _ _ := rfl
  awl _ _ := rfl
  staged _ _ _ _ := rfl
  fl _ _ := rfl

namespace ResetStable
variable {α : Type} {g : State → α}

theorem raiseStable (h : ResetStable g) : RaiseStable g where
  wr a v s ha := h.wr a v s (by
    unfold raiseReg at ha
    rw [decide_eq_true_iff] at ha
    refine shownReg_false ?_
    simp only [R.glbAlertStatus, R.glbAlertInjected, R.glbEventHead, R.glbEventLostCount, R.mgtEvents, R.mgtPushDropCount,
      R.jnlLostCount] at ha
    simp only [R.glbIncarnation, R.glbResetCause, R.glbBootStatus, R.glbTemp, R.clkStatus, R.mtcStatus]
    omega)
  touch := h.touch
  dets := h.dets
  jq := h.jq
  push := h.push
  tbl := h.tbl

theorem ev (h : ResetStable g) {a : Nat} (ha : shownReg a = false) (i : Nat) (s : State) : g (ev a i s) = g s := by
  rw [Machine.ev, h.touch]; exact h.wr _ _ _ ha
theorem cnt (h : ResetStable g) {a : Nat} (ha : shownReg a = false) (s : State) : g (cnt a s) = g s := by
  rw [Machine.cnt, Machine.cntBy, h.touch]; exact h.wr _ _ _ ha

theorem awlStore (h : ResetStable g) (i : Nat) (p : AwlPoint) (s : State) : g (awlStore i p s) = g s := by
  unfold Machine.awlStore
  rw [Machine.wbitAt, Machine.wfld, h.wr _ _ _ (by decide), h.awl]

theorem awlFire (h : ResetStable g) (i : Nat) (p q r : Option Nat) (s : State) : g (awlFire i p q r s).1 = g s := by
  unfold Machine.awlFire
  dsimp only
  split
  · split
    · split
      · rw [h.ev (by decide), h.touch, h.awlStore]
      · rw [h.touch, h.awlStore]
    · exact h.awlStore _ _ _
  · rfl

theorem tblEccHit (h : ResetStable g) (p a : Nat) (inj : Bool) (s : State) : g (tblEccHit p a inj s) = g s := by
  unfold Machine.tblEccHit
  rw [h.raiseStable.raise_mk (by decide), wrN, h.wr _ _ _ (by decide), h.cnt (by decide)]

theorem rankUse (h : ResetStable g) (n r : Nat) (s : State) : g (rankUse n r s).1 = g s := by
  unfold Machine.rankUse
  dsimp only
  split
  · exact h.tblEccHit _ _ _ _
  · split
    · rw [h.tblEccHit, h.awlFire]
    · exact h.awlFire _ _ _ _ _

theorem searchSelf (h : ResetStable g) (n : Nat) (l : List Nat) (s : State) : g (searchSelf n l s).1 = g s := by
  induction l generalizing s with
  | nil => rfl
  | cons r l ih =>
    unfold Machine.searchSelf
    dsimp only
    split
    · exact h.rankUse _ _ s
    · rw [ih]
      exact h.rankUse _ _ s

theorem selfRank (h : ResetStable g) (n : Nat) (s : State) : g (selfRank n s) = g s := by
  have hn : shownReg (R.parSelfRank n) = false := shownReg_false (by
    simp only [R.parSelfRank, R.glbIncarnation, R.glbResetCause, R.glbBootStatus, R.glbTemp, R.clkStatus, R.mtcStatus]
    omega)
  unfold Machine.selfRank
  dsimp only
  split
  · rw [wrN, h.wr _ _ _ hn, h.searchSelf]
  · rw [wrN, h.wr _ _ _ hn, h.searchSelf]

theorem abortSoftware (h : ResetStable g) (s : State) : g (abortSoftware s) = g s := by
  unfold Machine.abortSoftware
  split
  · rw [swEnd, h.ev (by decide), wfld, h.wr _ _ _ (by decide), h.fl]
    split
    · exact h.fl _ s
    · rfl
  · rfl

theorem resetImageRegs (h : ResetStable g) (b : Bool) (s : State) : g (resetImageRegs b s) = g s := by
  unfold Machine.resetImageRegs
  extract_lets gone s1
  have hgone : ∀ a, shownReg a = true → (!gone a) = true := by
    intro a ha
    have hi : imageAddr a = false := by
      unfold shownReg at ha
      rw [decide_eq_true_iff] at ha
      rcases ha with rfl | rfl | rfl | rfl | rfl | rfl <;> decide
    show (!(imageAddr a && _)) = true
    rw [hi]
    rfl
  rw [forEach_field g _ _ (fun n _ s => h.selfRank n s), mtcModeReset, wrN, h.wr _ _ _ (by decide), wrN, h.wr _ _ _ (by decide)]
  show g { s with regs := s.regs.filter (fun e => !gone e.1), eccBad := _, staged := [], stagedNow := [], bootPend := [], awl := _ } = g s
  rw [← h.drop (fun a => !gone a) s hgone]
  refine (h.awl _ { s with regs := s.regs.filter (fun e => !gone e.1), eccBad := _, staged := [], stagedNow := [], bootPend := [] }).trans ?_
  refine (h.tbl _ _ { s with regs := s.regs.filter (fun e => !gone e.1), staged := [], stagedNow := [], bootPend := [] }).trans ?_
  exact h.staged _ _ _ { s with regs := s.regs.filter (fun e => !gone e.1) }

theorem disarmAll (h : ResetStable g) (k : Option Nat) (s : State) : g (disarmAll k s) = g s :=
  forEach_field g _ _ (fun i _ s => by
    split
    · rfl
    · exact h.awlStore _ _ s) s

end ResetStable

/-! ### A reset that begins (R423-R425) -/

/-- A reading of the state that depends neither on registers nor on boot, and on nothing else a reset that begins drops. -/
structure DropStable {α : Type} (g : State → α) : Prop extends ResetStable g where
  regs : ∀ x s, g { s with regs := x } = g s
  boot : ∀ x s, g { s with boot := x } = g s

/-- A reading of the state that depends on nothing a reset that begins writes after it has dropped what is in motion. -/
structure BeginStable {α : Type} (g : State → α) : Prop extends DropStable g where
  ports : ∀ x s, g { s with ports := x } = g s
  ep : ∀ x s, g { s with ep := x } = g s
  rst : ∀ x s, g { s with rst := x } = g s

section
variable {s : State} (reload : Bool) (cause : Nat)

/-- What a reset that begins has dropped, and what a reload has of it returned to its reset value. -/
def resetDropped (s : State) : State :=
  let s1 := wbitAt R.mtcStatus 3 (rbit s R.mtcStatus 3) (wfld R.glbAdopt 4 0 0 { s with
    regs := s.regs.filter (fun e => warmKeeps e.1)
    eccBad := s.eccBad.filter (fun a => decide (a < 0x1020000 ∨ 0x1020200 ≤ a)) })
  let s2 := abortSoftware (dropAll s1)
  disarmAll (if reload then some 14 else none) (if reload then wbitAt R.glbSeal 0 false (resetImageRegs false s2) else s2)

/-- The registers a reset that begins writes last. -/
def resetMarked (prev : Nat) (s : State) : State :=
  let s := wfld R.glbBootStatus 12 12 0 (wfld R.glbBootStatus 6 0 0 s)
  let s := if reload then wrN R.glbBootStatus (0xC000 + rfld s R.glbBootStatus 23 16 * 65536)
      (wrN R.glbImageSeq 0 (modBoot (fun b => { b with entered5 := false, fromCold := false }) s)) else s
  wrN R.glbResetCause (prev * 16 + cause) (wfld R.glbIncarnation 3 0 (prev + 1) s)

theorem resetBegin_eq (s : State) : ∃ u v, u = resetDropped reload s
    ∧ v = resetMarked reload cause (incarnation s) (resetPorts { u with ep := { u.ep with closed := reload } })
    ∧ resetBegin reload cause s = { v with
        boot := { v.boot with older := v.jq.length, recordOut := none, cands := none }
        rst := { v.rst with prog := true, asReload := reload } } := ⟨_, _, rfl, rfl, rfl⟩

theorem resetDropped_field {α : Type} {g : State → α} (h : DropStable g) (s : State) : g (resetDropped reload s) = g (dropAll s) := by
  unfold resetDropped
  extract_lets s1 s2
  have h2 : g s2 = g (dropAll s) := by
    refine (h.abortSoftware _).trans ?_
    show g { dropAll s with regs := s1.regs, eccBad := s1.eccBad } = _
    exact (h.regs _ { dropAll s with eccBad := s1.eccBad }).trans (h.tbl _ _ (dropAll s))
  rw [h.disarmAll]
  split
  · rw [wbitAt, wfld, Machine.wr]
    exact (h.regs _ _).trans ((h.resetImageRegs _ _).trans h2)
  · exact h2

theorem resetMarked_field {α : Type} {g : State → α} (h : DropStable g) (prev : Nat) (s : State) : g (resetMarked reload cause prev s) = g s := by
  have hw (a : Nat) (v : Word) (s : State) : g (wr a v s) = g s := h.regs _ s
  unfold resetMarked
  rw [wrN, hw, wfld, hw]
  split
  · rw [wrN, hw, wrN, hw, modBoot, h.boot, wfld, hw, wfld, hw]
  · rw [wfld, hw, wfld, hw]

/-- Everything in motion is dropped. -/
theorem resetBegin_field {α : Type} {g : State → α} (h : BeginStable g) (s : State) : g (resetBegin reload cause s) = g (dropAll s) := by
  obtain ⟨u, v, hu, hv, he⟩ := resetBegin_eq reload cause s
  have hb : g (resetBegin reload cause s) = g v := by
    rw [he]
    exact (h.rst { v.rst with prog := true, asReload := reload }
      { v with boot := { v.boot with older := v.jq.length, recordOut := none, cands := none } }).trans (h.boot _ v)
  rw [hb, hv, resetMarked_field reload cause h.toDropStable, resetPorts]
  refine (h.ports _ _).trans ((h.ep _ u).trans ?_)
  rw [hu]
  exact resetDropped_field reload h.toDropStable s

theorem dropStable_rst : DropStable State.rst := by
  repeat' constructor
  all_goals intros; rfl

theorem dropStable_ep : DropStable State.ep := by
  repeat' constructor
  all_goals intros; rfl

theorem dropStable_ports : DropStable State.ports := by
  repeat' constructor
  all_goals intros; rfl

theorem resetBegin_rst (s : State) : (resetBegin reload cause s).rst = { s.rst with prog := true, asReload := reload } := by
  obtain ⟨u, v, hu, hv, he⟩ := resetBegin_eq reload cause s
  have hr : v.rst = s.rst := by
    rw [hv, resetMarked_field reload cause dropStable_rst, hu]
    exact resetDropped_field reload dropStable_rst s
  rw [he, hr]

theorem resetBegin_ep (s : State) : (resetBegin reload cause s).ep = { closed := reload } := by
  obtain ⟨u, v, hu, hv, he⟩ := resetBegin_eq reload cause s
  have hd : u.ep = { closed := true } := by
    rw [hu, resetDropped_field reload dropStable_ep]
    rfl
  rw [he]
  show v.ep = _
  rw [hv, resetMarked_field reload cause dropStable_ep]
  show { u.ep with closed := reload } = _
  rw [hd]

theorem tfind_map_mem {β : Type} (f : Nat → β) (l : List Nat) {n : Nat} (h : n ∈ l) : tfind n (l.map (fun m => (m, f m))) = some (f n) := by
  induction l with
  | nil => cases h
  | cons m l ih =>
    rw [List.map_cons, tfind]
    by_cases hm : m = n
    · rw [if_pos hm, hm]
    · rw [if_neg hm]
      exact ih (List.mem_of_ne_of_mem (Ne.symm hm) h)

theorem port_resetPorts (s : State) {n : Nat} (hn : n ≤ 30) : (port (resetPorts s) n).st = .down := by
  have hfind {β : Type} (f : Nat → β) : tfind n ((range 0 30).map (fun m => (m, f m))) = some (f n) :=
    tfind_map_mem f _ (List.mem_range'_1.2 (by omega))
  unfold port resetPorts tget
  dsimp only
  rw [hfind]

/-- Every port is DOWN. -/
theorem resetBegin_port (s : State) {n : Nat} (hn : n ≤ 30) : (port (resetBegin reload cause s) n).st = .down := by
  obtain ⟨u, v, hu, hv, he⟩ := resetBegin_eq reload cause s
  rw [he]
  show (tget {} n v.ports).st = .down
  rw [hv, resetMarked_field reload cause dropStable_ports]
  exact port_resetPorts _ hn

/-! ### Registers after it -/

/-- The registers a reset that begins keeps, and the others. -/
theorem resetDropped_rd {a : Nat} (ha : shownReg a = true) (hm : a ≠ R.mtcStatus) (s : State) :
    rd (resetDropped reload s) a = if warmKeeps a then rd s a else resetReg a := by
  have hk (t : State) : rd { t with regs := t.regs.filter (fun e => warmKeeps e.1) } a = if warmKeeps a then rd t a else resetReg a := by
    by_cases hw : warmKeeps a = true
    · rw [rd_filter hw, if_pos hw]
    · rw [rd_filter_reset (by simpa using hw), if_neg hw]
  have hs := resetStable_rd ha
  have h1 : a ≠ R.glbAdopt := fun e => by rw [e] at ha; cases ha
  have h2 : a ≠ R.glbSeal := fun e => by rw [e] at ha; cases ha
  unfold resetDropped
  extract_lets s1 s2
  have hs2 : rd s2 a = if warmKeeps a then rd s a else resetReg a := by
    refine (hs.abortSoftware _).trans ?_
    show rd s1 a = _
    refine (rd_wbitAt_ne hm _ _ _).trans ((rd_wfld_ne h1 _ _ _ _).trans ?_)
    exact hk s
  refine (hs.disarmAll _ _).trans ?_
  split
  · exact (rd_wbitAt_ne h2 _ _ _).trans ((hs.resetImageRegs _ _).trans hs2)
  · exact hs2

/-- JOINED is clear. -/
theorem resetDropped_joined (s : State) : rbit (resetDropped reload s) R.mtcStatus 0 = false := by
  have hs := resetStable_rd (a := R.mtcStatus) (by decide)
  unfold resetDropped
  extract_lets s1 s2
  have hs1 : rbit s1 R.mtcStatus 0 = false := by
    show rbit (wbitAt _ _ _ _) _ _ = _
    rw [rbit_wbitAt_other _ _ _ _ _ _ (by decide) (.inr (by decide)), rbit_wfld_ne (by decide)]
    refine (congrArg (wbit · 0) (rd_filter_reset (p := warmKeeps) (a := R.mtcStatus) (by decide) s)).trans ?_
    decide
  have hs2 : rbit s2 R.mtcStatus 0 = false := (congrArg (wbit · 0) (hs.abortSoftware (dropAll s1))).trans hs1
  refine (congrArg (wbit · 0) (hs.disarmAll _ _)).trans ?_
  split
  · refine (rbit_wbitAt_other _ _ _ _ _ _ (by decide) (.inl (by decide))).trans ?_
    exact (congrArg (wbit · 0) (hs.resetImageRegs false s2)).trans hs2
  · exact hs2

theorem resetMarked_rd {a : Nat} (h1 : a ≠ R.glbBootStatus) (h2 : a ≠ R.glbImageSeq) (h3 : a ≠ R.glbResetCause) (h4 : a ≠ R.glbIncarnation)
    (prev : Nat) (s : State) : rd (resetMarked reload cause prev s) a = rd s a := by
  have hb : rd (wfld R.glbBootStatus 12 12 0 (wfld R.glbBootStatus 6 0 0 s)) a = rd s a := by rw [rd_wfld_ne h1, rd_wfld_ne h1]
  unfold resetMarked
  dsimp only
  rw [rd_wrN_ne h3, rd_wfld_ne h4]
  split
  · rw [rd_wrN_ne h1, rd_wrN_ne h2, ← hb]
    rfl
  · exact hb

/-- A register that a reset keeps, and does not write. -/
theorem resetBegin_rd {a : Nat} (ha : a = R.glbTemp ∨ a = R.clkStatus) (s : State) : rd (resetBegin reload cause s) a = rd s a := by
  obtain ⟨u, v, hu, hv, he⟩ := resetBegin_eq reload cause s
  have hk : rd u a = rd s a := by
    rw [hu]
    rcases ha with rfl | rfl
    all_goals exact (resetDropped_rd reload (by decide) (by decide) s).trans (if_pos (by decide))
  rw [he]
  show rd v a = _
  rw [hv, resetMarked_rd reload cause]
  · exact hk
  all_goals rcases ha with rfl | rfl <;> decide

theorem resetBegin_joined (s : State) : rbit (resetBegin reload cause s) R.mtcStatus 0 = false := by
  obtain ⟨u, v, hu, hv, he⟩ := resetBegin_eq reload cause s
  rw [he]
  show rbit v R.mtcStatus 0 = _
  rw [rbit, hv, resetMarked_rd reload cause (by decide) (by decide) (by decide) (by decide)]
  show rbit u R.mtcStatus 0 = _
  rw [hu]
  exact resetDropped_joined reload s

/-- The low bits of a field at bit 0. -/
theorem rfld_low {h l : Nat} (hl : l ≤ h) {a : Nat} {s : State} : rfld s a l 0 = rfld s a h 0 % 2 ^ (l + 1) := by
  unfold rfld fld nbits
  rw [Nat.shiftRight_zero, Nat.sub_zero, Nat.sub_zero, Nat.mod_mod_of_dvd _ (Nat.pow_dvd_pow 2 (by omega))]

theorem resetMarked_shows (prev : Nat) (s : State) : rdN (resetMarked reload cause prev s) R.glbResetCause = (prev * 16 + cause) % 2 ^ 32
    ∧ incarnation (resetMarked reload cause prev s) = (prev + 1) % 16 ∧ bootStep (resetMarked reload cause prev s) = 0 := by
  unfold resetMarked
  extract_lets s1 s2
  refine ⟨rdN_wrN _ _ _, ?_, ?_⟩
  · unfold incarnation
    rw [rfld_wrN_ne (by decide), rfld_wfld _ _ _ _ _ (by decide)]
    rfl
  · unfold bootStep
    rw [rfld_wrN_ne (by decide), rfld_wfld_ne (by decide)]
    unfold s2
    split
    · rw [rfld_wrN, nbits, Nat.shiftRight_zero]
      omega
    · unfold s1
      have h6 : rfld (wfld R.glbBootStatus 6 0 0 s) R.glbBootStatus 6 0 = 0 := (rfld_wfld _ _ _ _ _ (by decide)).trans (Nat.zero_mod _)
      rw [rfld_wfld_disjoint _ _ _ _ _ _ _ (by decide) (by decide), rfld_low (by decide : 3 ≤ 6), h6, Nat.zero_mod]

/-- What GLB_RESET_CAUSE, the incarnation and STEP show (R423-R425). -/
theorem resetBegin_shows (s : State) : rdN (resetBegin reload cause s) R.glbResetCause = (incarnation s * 16 + cause) % 2 ^ 32
    ∧ incarnation (resetBegin reload cause s) = (incarnation s + 1) % 16 ∧ bootStep (resetBegin reload cause s) = 0 := by
  obtain ⟨u, v, hu, hv, he⟩ := resetBegin_eq reload cause s
  rw [he]
  show rdN v _ = _ ∧ incarnation v = _ ∧ bootStep v = _
  rw [hv]
  exact resetMarked_shows reload cause _ _

theorem rd_disarmAll {a : Nat} (ha : a ≠ R.awlStatus) (k : Option Nat) (s : State) : rd (disarmAll k s) a = rd s a :=
  forEach_field (rd · a) _ _ (fun i _ s => by
    split
    · rfl
    · exact rd_wbitAt_ne ha _ _ _) s

/-- A reload opens the seal. -/
theorem resetBegin_unsealed (s : State) : rbit (resetBegin true cause s) R.glbSeal 0 = false := by
  obtain ⟨u, v, hu, hv, he⟩ := resetBegin_eq true cause s
  have hd : rbit u R.glbSeal 0 = false := by
    rw [hu]
    refine (congrArg (wbit · 0) (rd_disarmAll (by decide) (some 14) _)).trans ?_
    exact rbit_wbitAt _ _ _ _ (by decide)
  rw [he]
  show rbit v R.glbSeal 0 = _
  rw [rbit, hv, resetMarked_rd true cause (by decide) (by decide) (by decide) (by decide)]
  exact hd

/-- A warm reset keeps the pending Boot values. -/
theorem resetBegin_bootPend (s : State) : (resetBegin false cause s).bootPend = s.bootPend := by
  have hm : MarkStable State.bootPend := by constructor <;> intros <;> rfl
  have habort (s : State) : (abortSoftware s).bootPend = s.bootPend := by
    unfold abortSoftware
    split
    · refine (hm.ev _ _ _).trans ((hm.wfld _ _ _ _ _).trans ?_)
      show State.bootPend (if _ then _ else _) = _
      split <;> rfl
    · rfl
  have hdisarm (s : State) : (disarmAll none s).bootPend = s.bootPend :=
    forEach_field State.bootPend _ _ (fun i _ s => by
      split
      · rfl
      · exact hm.awlStore _ _ s) s
  obtain ⟨u, v, hu, hv, he⟩ := resetBegin_eq false cause s
  rw [he]
  show v.bootPend = _
  rw [hv]
  show u.bootPend = _
  rw [hu]
  exact (hdisarm _).trans (habort _)

end

end Sys2Proof.Machine
end

section
/-! SUPPORT. Boot resumes at step 5 (R425, R478, R485, Table 15.2). -/
namespace Sys2Proof.Machine

/-- A reading of the state that depends on nothing the beginning of step 5, or of step 6 or 7, changes. -/
structure ResumeStable {α : Type} (g : State → α) : Prop extends RaiseStable g where
  status : ∀ v s, g (Machine.wr R.glbBootStatus v s) = g s
  rst : ∀ x s, g { s with rst := x } = g s
  boot : ∀ x s, g { s with boot := x } = g s
  bootPend : ∀ x s, g { s with bootPend := x } = g s
  roots : ∀ x s, g { s with roots := x } = g s

theorem resumeStable_rd {a : Nat} (ha : a ≠ R.glbBootStatus) (hr : raiseReg a = false) : ResumeStable (rd · a) where
  toRaiseStable := raiseStable_rd hr
  status v s := rd_wr_ne ha v s
  rst _ _ := rfl
  boot _ _ := rfl
  bootPend _ _ := rfl
  roots _ _ := rfl

/-- Step 6 as it begins. -/
def step6Begun (s : State) : State := { wfld R.glbBootStatus 3 0 6 s with roots := { s.roots with step6 := some (now s) } }

theorem enterStep6_eq (s : State) :
    enterStep6 s = if rbit (step6Begun s) R.mtcStatus 0 then enterStep7 (step6Begun s) else step6Begun s := rfl

/-- Step 5 as it begins. -/
def step5Begun (s : State) : State :=
  setStep 5 (modBoot (fun b => { b with entered5 := true, recordOut := none, cands := none })
    { s with rst := { s.rst with prog := false, asReload := false, warmAt := none } })

theorem enterStep5_eq (s : State) : enterStep5 s = step5Check (bootRecord (bootApply (step5Begun s))) := rfl

section
variable {α : Type} {g : State → α} {s : State}

namespace ResumeStable

theorem setStep (h : ResumeStable g) (n : Nat) (s : State) : g (setStep n s) = g s := h.status _ s
theorem modBoot (h : ResumeStable g) (f : BootS → BootS) (s : State) : g (modBoot f s) = g s := h.boot _ s

theorem bootRecord (h : ResumeStable g) (s : State) : g (bootRecord s) = g s := by
  unfold Machine.bootRecord
  dsimp only
  split
  · exact h.modBoot _ s
  split
  · exact h.jq _ s
  · rw [h.modBoot, h.toRaiseStable.raiseCore _ (by decide), h.toRaiseStable.cnt (by decide)]

theorem enterStep6 (h : ResumeStable g) (s : State) : g (enterStep6 s) = g s := by
  have hb : g (step6Begun s) = g s := by
    rw [step6Begun, h.roots, wfld, h.status]
  rw [enterStep6_eq]
  split
  · rw [enterStep7, wbitAt, wfld, h.status, wfld, h.status, hb]
  · exact hb

theorem step5Check (h : ResumeStable g) (s : State) : g (step5Check s) = g s := by
  unfold Machine.step5Check
  split
  · exact h.enterStep6 s
  · rfl

end ResumeStable

/-- No Boot value waits. -/
theorem bootApply_none (h : s.bootPend = []) : bootApply s = { s with bootPend := [] } := by
  unfold bootApply
  rw [h]
  rfl

theorem ResumeStable.enterStep5 (h : ResumeStable g) (hb : s.bootPend = []) : g (enterStep5 s) = g s := by
  rw [enterStep5_eq, h.step5Check, h.bootRecord, bootApply_none (s := step5Begun s) hb, h.bootPend, step5Begun, h.setStep, h.modBoot, h.rst]

theorem bootStep_setStep {n : Nat} (hn : n < 16) (s : State) : bootStep (setStep n s) = n := by
  unfold bootStep setStep
  rw [rfld_wfld _ _ _ _ _ (by decide)]
  omega

theorem bootStep_enterStep7 (s : State) : bootStep (enterStep7 s) = 7 := by
  unfold enterStep7 bootStep
  rw [rfld_wbitAt_disjoint _ _ _ _ _ _ (by decide) (.inl (by decide)), rfld_wfld _ _ _ _ _ (by decide)]
  rfl

theorem rbit_step6Begun (s : State) : rbit (step6Begun s) R.mtcStatus 0 = rbit s R.mtcStatus 0 := by
  refine (rbit_congr (s := wfld R.glbBootStatus 3 0 6 s) rfl _ _).trans ?_
  exact rbit_wfld_ne (by decide) _ _ _ _ _

theorem bootStep_step6Begun (s : State) : bootStep (step6Begun s) = 6 := by
  unfold bootStep
  refine (rfld_congr (s := wfld R.glbBootStatus 3 0 6 s) rfl _ _ _).trans ?_
  rw [rfld_wfld _ _ _ _ _ (by decide)]
  rfl

/-- Step 6 ends at once where JOINED is set. -/
theorem bootStep_enterStep6 (s : State) : bootStep (enterStep6 s) = if rbit s R.mtcStatus 0 then 7 else 6 := by
  rw [enterStep6_eq, rbit_step6Begun]
  split
  · exact bootStep_enterStep7 _
  · exact bootStep_step6Begun s

/-- The record has its outcome, at tick `k`. -/
def recordSettled (k : Nat) (s : State) : State := modBoot (fun b => { b with recordOut := some k }) s

/-- The record waits ahead of those queued during this boot. -/
def recordQueued (s : State) : State :=
  { s with jq := s.jq.take s.boot.older ++ [{ kind := 1, body := [] }] ++ s.jq.drop s.boot.older }

theorem bootRecord_cases (s : State) :
    bootRecord s = recordSettled (now s) s ∨ bootRecord s = recordQueued s ∨ bootRecord s = recordSettled (now s) (raiseCore { i := 18 } (cnt R.jnlLostCount s)).1 := by
  unfold bootRecord
  dsimp only
  split
  · exact .inl rfl
  · split
    · exact .inr (.inl rfl)
    · exact .inr (.inr rfl)

theorem bootStep_recordSettled (k : Nat) (s : State) : bootStep (recordSettled k s) = bootStep s := rfl
theorem bootStep_recordQueued (s : State) : bootStep (recordQueued s) = bootStep s := rfl

/-- The record finds 16 waiting and is lost. -/
theorem bootStep_recordLost (s : State) : bootStep (raiseCore { i := 18 } (cnt R.jnlLostCount s)).1 = bootStep s := by
  have hr := raiseStable_rd (b := R.glbBootStatus) (by decide)
  have h : rd (raiseCore { i := 18 } (cnt R.jnlLostCount s)).1 R.glbBootStatus = rd s R.glbBootStatus := by
    rw [hr.raiseCore _ (by decide), hr.cnt (by decide)]
  unfold bootStep rfld
  rw [h]

theorem bootStep_bootRecord (s : State) : bootStep (bootRecord s) = bootStep s := by
  rcases bootRecord_cases s with h | h | h <;> rw [h]
  · exact bootStep_recordSettled _ s
  · exact bootStep_recordQueued s
  · rw [bootStep_recordSettled, bootStep_recordLost]

theorem bootStep_step5Begun (s : State) : bootStep (step5Begun s) = 5 := by
  unfold step5Begun
  exact bootStep_setStep (by decide) _

/-- Step 5 has begun, at least. -/
theorem bootStep_enterStep5 (h : s.bootPend = []) : 5 ≤ bootStep (enterStep5 s) := by
  have h2 : bootStep (bootRecord (bootApply (step5Begun s))) = 5 := by
    rw [bootStep_bootRecord, bootApply_none (s := step5Begun s) h]
    exact (rfld_congr (s := step5Begun s) rfl _ _ _).trans (bootStep_step5Begun s)
  rw [enterStep5_eq]
  unfold step5Check
  split
  · rw [bootStep_enterStep6]
    split <;> decide
  · rw [h2]

/-- A reading that the beginning of step 5 leaves, but for what it writes of the reset's state. -/
theorem rst_recordSettled (k : Nat) (s : State) : (recordSettled k s).rst = s.rst := rfl
theorem rst_recordQueued (s : State) : (recordQueued s).rst = s.rst := rfl

theorem rst_recordLost (s : State) : (raiseCore { i := 18 } (cnt R.jnlLostCount s)).1.rst = s.rst := by
  have hr : RaiseStable State.rst := ⟨fun _ _ _ _ => rfl, fun _ _ _ => rfl, fun _ _ => rfl, fun _ _ => rfl, fun _ _ _ => rfl, fun _ _ _ => rfl⟩
  rw [hr.raiseCore _ (by decide), hr.cnt (by decide)]

theorem rst_bootRecord (s : State) : (bootRecord s).rst = s.rst := by
  rcases bootRecord_cases s with h | h | h <;> rw [h]
  · exact rst_recordSettled _ s
  · exact rst_recordQueued s
  · rw [rst_recordSettled, rst_recordLost]

theorem rst_enterStep6 (s : State) : (enterStep6 s).rst = s.rst := by
  have hm : MarkStable State.rst := by constructor <;> intros <;> rfl
  have hb : (step6Begun s).rst = s.rst := hm.wfld R.glbBootStatus 3 0 6 s
  rw [enterStep6_eq]
  split
  · rw [enterStep7, hm.wbitAt, hm.wfld, hb]
  · exact hb

theorem enterStep5_rst (h : s.bootPend = []) : (enterStep5 s).rst = { s.rst with prog := false, asReload := false, warmAt := none } := by
  have h2 : (bootRecord (bootApply (step5Begun s))).rst = { s.rst with prog := false, asReload := false, warmAt := none } := by
    rw [rst_bootRecord, bootApply_none (s := step5Begun s) h]
    rfl
  rw [enterStep5_eq]
  unfold step5Check
  split
  · rw [rst_enterStep6, h2]
  · exact h2

end
end Sys2Proof.Machine
end

section
/-! O51 (R423-R426, R606-R609): warm resets and reloads. -/
namespace Sys2Proof.Machine

/-- What is in motion, machine time, and the memories. -/
def motion (s : State) :=
  (s.streams, s.tags, s.slots, s.asms, s.waiting, s.t, s.stg, s.flash, s.writes)

theorem beginStable_motion : BeginStable motion := by
  repeat' constructor
  all_goals intros; rfl

theorem resumeStable_motion : ResumeStable motion := by
  repeat' constructor
  all_goals intros; rfl

theorem resumeStable_ports : ResumeStable State.ports := by
  repeat' constructor
  all_goals intros; rfl

theorem resumeStable_ep : ResumeStable State.ep := by
  repeat' constructor
  all_goals intros; rfl

/-- What a reset with CAUSE `c` that begins in `s` shows, and goes on to show as boot resumes. -/
structure ResetDone (s : State) (c : Nat) (t : State) : Prop where
  inc : incarnation t = (incarnation s + 1) % 16
  cause : rdN t R.glbResetCause = (incarnation s * 16 + c) % 2 ^ 32
  motion : motion t = ([], [], [], [], [], { ticks := now s }, s.stg, s.flash, s.writes)
  joined : rbit t R.mtcStatus 0 = false
  inj : t.ep.inj = 0
  ports : ∀ n, n ≤ 30 → (port t n).st = .down
  kept : ∀ a, a = R.glbTemp ∨ a = R.clkStatus → rd t a = rd s a

theorem resetDone_begin (reload : Bool) (c : Nat) (s : State) : ResetDone s c (resetBegin reload c s) := by
  obtain ⟨hcause, hinc, -⟩ := resetBegin_shows reload c s
  exact ⟨hinc, hcause, resetBegin_field reload c beginStable_motion s, resetBegin_joined reload c s, by rw [resetBegin_ep],
    fun n hn => resetBegin_port reload c s hn, fun a ha => resetBegin_rd reload c ha s⟩

/-- The resumption of boot. -/
theorem ResumeStable.resetResume {α : Type} {g : State → α} {s : State} (h : ResumeStable g) (hb : s.rst.asReload = false → s.bootPend = []) :
    g (resetResume s) = g s := by
  unfold Machine.resetResume
  split
  · rfl
  split
  · exact h.setStep _ s
  · next hr => exact h.enterStep5 (hb (by simpa using hr))

namespace ResetDone
variable {s t : State} {c : Nat}

/-- The state of the resets themselves does not matter. -/
theorem of_rst {x : RstS} (h : ResetDone { s with rst := x } c t) : ResetDone s c t :=
  ⟨h.inc, h.cause, h.motion, h.joined, h.inj, h.ports, h.kept⟩

theorem resume (h : ResetDone s c t) (hb : t.rst.asReload = false → t.bootPend = []) : ResetDone s c (resetResume t) := by
  have field {α : Type} {g : State → α} (hg : ResumeStable g) := hg.resetResume hb
  have reg {a : Nat} (ha : a ≠ R.glbBootStatus) (hr : raiseReg a = false) := field (resumeStable_rd ha hr)
  refine ⟨?_, ?_, (field resumeStable_motion).trans h.motion, ?_, ?_, fun n hn => ?_, fun a ha => ?_⟩
  · exact (congrArg (fld · 3 0) (reg (a := R.glbIncarnation) (by decide) (by decide))).trans h.inc
  · exact (congrArg BitVec.toNat (reg (a := R.glbResetCause) (by decide) (by decide))).trans h.cause
  · exact (congrArg (wbit · 0) (reg (a := R.mtcStatus) (by decide) (by decide))).trans h.joined
  · rw [field resumeStable_ep]
    exact h.inj
  · unfold port
    rw [field resumeStable_ports]
    exact h.ports n hn
  · refine (reg ?_ ?_).trans (h.kept a ha)
    all_goals rcases ha with rfl | rfl <;> decide

/-- CAUSE and the incarnation before fit GLB_RESET_CAUSE. -/
theorem cause_small (h : ResetDone s c t) (hc : c < 16) : rdN t R.glbResetCause = incarnation s * 16 + c := by
  rw [h.cause]
  have : incarnation s < 2 ^ (3 + 1 - 0) := nbits_lt _ _ _
  omega

/-- The fields of GLB_RESET_CAUSE. -/
theorem cause_fields (h : ResetDone s c t) (hc : c < 16) :
    rfld t R.glbResetCause 3 0 = c ∧ rfld t R.glbResetCause 7 4 = incarnation s := by
  have hn := h.cause_small hc
  have hi : incarnation s < 2 ^ (3 + 1 - 0) := nbits_lt _ _ _
  unfold rfld fld nbits
  rw [← rdN, hn, Nat.shiftRight_zero, Nat.shiftRight_eq_div_pow]
  omega

/-- Nothing is in motion, and machine time is 0. -/
theorem still (h : ResetDone s c t) : t.streams = [] ∧ t.tags = [] ∧ t.slots = [] ∧ t.asms = [] ∧ t.waiting = [] ∧ t.t.mtc = 0 := by
  have hm := h.motion
  unfold Machine.motion at hm
  simp only [Prod.mk.injEq] at hm
  obtain ⟨h1, h2, h3, h4, h5, h6, -⟩ := hm
  exact ⟨h1, h2, h3, h4, h5, by rw [h6]⟩

/-- The memories are as they were. -/
theorem memories (h : ResetDone s c t) : t.stg = s.stg ∧ t.flash = s.flash ∧ t.writes = s.writes := by
  have hm := h.motion
  unfold Machine.motion at hm
  simp only [Prod.mk.injEq] at hm
  exact hm.2.2.2.2.2.2

end ResetDone

/-! ### Resets written over a path (R424, R425) -/

section
variable {s : State} {e : Nat × Nat × Bool}

/-- The request has left the list. -/
def softTaken (e : Nat × Nat × Bool) (s : State) : State := { s with rst := { s.rst with soft := s.rst.soft.erase e } }

theorem softGo_warm (h : softDue s false = some e) (hp : s.rst.prog = false) (h5 : s.boot.entered5 = true) :
    softGo false s = resetResume (resetBegin false e.2.1 (softTaken e s)) := by
  unfold softGo
  rw [h]
  refine (if_neg Bool.false_ne_true).trans ?_
  show warmRequest e.2.1 (softTaken e s) = _
  have hp' : (softTaken e s).rst.prog = false := hp
  have h5' : (softTaken e s).boot.entered5 = true := h5
  unfold warmRequest warmStart
  rw [hp', if_neg Bool.false_ne_true, h5']
  rfl

theorem reloadRequest_begins (hp : s.rst.prog = false) (c : Nat) : reloadRequest c s = resetResume (resetBegin true c s) := by
  have hp' : ¬ (s.rst.prog = true ∧ s.rst.asReload = false) := fun x => Bool.false_ne_true (hp.symm.trans x.1)
  unfold reloadRequest
  exact if_neg hp'

theorem softGo_reload (h : softDue s true = some e) (hp : s.rst.prog = false) :
    softGo true s = resetResume (resetBegin true e.2.1 (softTaken e s)) := by
  unfold softGo
  rw [h]
  exact (if_pos rfl).trans (reloadRequest_begins (s := softTaken e s) hp e.2.1)

theorem softGo_none {b : Bool} (h : softDue s b = none) : softGo b s = s := by
  unfold softGo
  rw [h]

/-- A warm reset and a reload that start (R424, R425). -/
theorem resetDone_softGo {b : Bool} (h : softDue s b = some e) (hp : s.rst.prog = false) (h5 : b = false → s.boot.entered5 = true)
    (hb : b = false → s.bootPend = []) : ResetDone s e.2.1 (softGo b s) := by
  have hd (r : Bool) : ResetDone s e.2.1 (resetBegin r e.2.1 (softTaken e s)) :=
    (resetDone_begin r e.2.1 (softTaken e s)).of_rst
  have ha (r : Bool) : (resetBegin r e.2.1 (softTaken e s)).rst.asReload = r := by rw [resetBegin_rst]
  cases b with
  | false =>
    rw [softGo_warm h hp (h5 rfl)]
    exact (hd false).resume (fun _ => (resetBegin_bootPend _ _).trans (hb rfl))
  | true =>
    rw [softGo_reload h hp]
    exact (hd true).resume (fun h => by rw [ha] at h; cases h)

theorem softGo_reload_closed (h : softDue s true = some e) (hp : s.rst.prog = false) :
    (softGo true s).ep.closed = true ∧ rbit (softGo true s) R.glbSeal 0 = false := by
  have ha : (resetBegin true e.2.1 (softTaken e s)).rst.asReload = false → (resetBegin true e.2.1 (softTaken e s)).bootPend = [] := by
    intro h
    rw [resetBegin_rst] at h
    cases h
  rw [softGo_reload h hp]
  constructor
  · rw [resumeStable_ep.resetResume ha, resetBegin_ep]
  · exact (congrArg (wbit · 0) ((resumeStable_rd (a := R.glbSeal) (by decide) (by decide)).resetResume ha)).trans (resetBegin_unsealed _ _)

/-! ### WARM# (R606-R609) -/

theorem pulseSeen_long {d : Nat} (h : 160 ≤ d) (s : State) : pulseSeen d s = (s, true) :=
  (if_neg (by omega)).trans (if_pos h)

theorem pulseSeen_short {d : Nat} (h : d < 16) (s : State) : pulseSeen d s = (s, false) := if_pos h

/-- The pin is seen asserted. -/
def warmSeen (s : State) : State := { s with rst := { s.rst with warmPin := true } }

theorem warmAssert_long {d : Nat} (h : 160 ≤ d) (hc : s.rst.cold = false) (hp : s.rst.prog = false) : ∃ u, u = warmStart 1 (warmSeen s)
    ∧ warmAssert d s = { u with rst := { u.rst with warmAt := some (now u) } } := by
  refine ⟨_, rfl, ?_⟩
  unfold warmAssert
  rw [pulseSeen_long h]
  exact if_neg (by
    rintro (x | x | x)
    · cases x
    · exact Bool.false_ne_true (hc.symm.trans x)
    · exact Bool.false_ne_true (hp.symm.trans x))

theorem warmAssert_short {d : Nat} (h : d < 16) : warmAssert d s = s := by
  unfold warmAssert
  rw [pulseSeen_short h]
  exact if_pos (.inl rfl)

/-- The pin is seen released. -/
def warmFreed (s : State) : State := { s with rst := { s.rst with warmPin := false } }

theorem warmRelease_early {w : Nat} (hw : s.rst.warmAt = some w) (h : now s < w + 16384) : warmRelease s = warmFreed s := by
  unfold warmRelease
  extract_lets r u early
  have he : early = true := by
    show (match s.rst.warmAt with | some t => decide (now s < t + 16384) | none => false) = true
    rw [hw]
    exact decide_eq_true h
  exact if_pos (.inr he)

theorem warmRelease_resumes (hc : s.rst.cold = false) (hw : ∀ w, s.rst.warmAt = some w → w + 16384 ≤ now s) (hb : bootStep s = 0) :
    warmRelease s = resetResume (warmFreed s) := by
  unfold warmRelease
  extract_lets r u early
  have he : early = false := by
    show (match s.rst.warmAt with | some t => decide (now s < t + 16384) | none => false) = false
    cases h : s.rst.warmAt with
    | none => rfl
    | some w => exact decide_eq_false (by have := hw w h; omega)
  have hcold : u.rst.cold = false := hc
  have hboot : bootStep u = 0 := hb
  have h1 : ¬ (u.rst.cold = true ∨ early = true) := by
    rw [hcold, he]
    simp
  exact (if_neg h1).trans (if_neg (by rw [hboot]; decide))

theorem resetResume_enters (hp : s.rst.prog = true) (hb : bootStep s = 0) (hw : s.rst.warmPin = false) (ht : rbit s R.glbTemp 12 = false)
    (ha : s.rst.asReload = false) : resetResume s = enterStep5 s := by
  have hc : ¬ (s.rst.prog = false ∨ bootStep s ≠ 0 ∨ s.rst.warmPin = true ∨ rbit s R.glbTemp 12 = true) := by
    rw [hp, hb, hw, ht]
    decide
  unfold resetResume
  rw [if_neg hc, ha, if_neg Bool.false_ne_true]

/-- WARM# as the engine sees it. -/
def warmPin (s : State) : Bool := s.rst.warmPin

theorem markStable_warmPin : MarkStable warmPin := by constructor <;> intros <;> rfl

theorem warmPin_bootApply (s : State) : warmPin (bootApply s) = warmPin s := by
  have hm := markStable_warmPin
  have discard (e : Nat × Word) (s : State) : warmPin (bootDiscard e s) = warmPin s := by
    rw [bootDiscard, bootFail, hm.raise_mk (by decide), hm.wfld, hm.wrN, hm.wbitAt]
  have one (e : Nat × Word) (s : State) : warmPin (bootApplyOne e s) = warmPin s := by
    unfold bootApplyOne
    split
    · split
      · rw [fmtApply, hm.wbitAt, hm.wr]
      · exact discard e s
    · split
      · exact hm.wfld _ _ _ _ s
      · exact hm.wr _ _ s
  unfold bootApply
  extract_lets l get bad
  refine forEach_field warmPin _ _ (fun e _ s => ?_) _
  by_cases h : bad.contains (sectionOf e.1) = true
  · rw [if_pos h]
    exact discard e s
  · rw [if_neg h]
    exact one e s

/-- The resumption of boot leaves WARM# as it is. -/
theorem warmPin_resetResume (s : State) : warmPin (resetResume s) = warmPin s := by
  have hm := markStable_warmPin
  unfold resetResume
  split
  · rfl
  split
  · exact hm.wfld _ _ _ _ s
  · have h5 : warmPin (step5Begun s) = warmPin s := hm.wfld R.glbBootStatus 3 0 5 _
    have h6 : warmPin (bootRecord (bootApply (step5Begun s))) = warmPin s :=
      (congrArg RstS.warmPin (rst_bootRecord _)).trans ((warmPin_bootApply _).trans h5)
    rw [enterStep5_eq]
    unfold step5Check
    split
    · exact (congrArg RstS.warmPin (rst_enterStep6 _)).trans h6
    · exact h6

theorem warmRelease_pin (s : State) : warmPin (warmRelease s) = false := by
  unfold warmRelease
  extract_lets r u early
  have hu : warmPin u = false := rfl
  split
  · exact hu
  split
  · split
    · exact hu
    · exact (markStable_warmPin.wfld _ _ _ _ u).trans hu
  · exact (warmPin_resetResume u).trans hu

end

/-- Settles O51. -/
theorem warmResetsAndReloads : Obligations.WarmResetsAndReloads := by
  intro s hs
  have pin (f : State → State) : runPin f s = .next (commit true s (f s)) := runPin_eq f s hs.2
  refine ⟨fun p => ⟨?_, ?_⟩, ?_, ?_, ?_, ?_, ?_, ?_, ?_, ?_⟩
  · exact ⟨_, hs.run _, rfl, by cases p <;> rfl⟩
  · exact ⟨_, hs.run _, rfl, by cases p <;> rfl⟩
  · intro e he hc hp h5 hb
    have hd := resetDone_softGo he hp (fun _ => h5) (fun _ => hb)
    obtain ⟨h1, h2, h3, h4, h6, h7⟩ := hd.still
    obtain ⟨hstg, hfl, hw⟩ := hd.memories
    refine ⟨_, hs.runT _, hd.inc, hd.cause_small hc, h1, h2, h3, h4, h6, h7, hd.joined, hd.inj, ?_, ?_, hd.ports⟩
    · exact commit_stg _ (hw.trans hs.2)
    · exact commit_flash _ (hw.trans hs.2)
  · intro e he hc hp
    have hd := resetDone_softGo he hp (fun h => by cases h) (fun h => by cases h)
    obtain ⟨h1, h2, h3, h4, h6, h7⟩ := hd.still
    obtain ⟨hstg, hfl, hw⟩ := hd.memories
    obtain ⟨hclosed, hseal⟩ := softGo_reload_closed he hp
    refine ⟨_, hs.runT _, hd.inc, hd.cause_small hc, h1, h2, h3, h4, h6, h7, hd.joined, hclosed, hseal, ?_, ?_, hd.ports⟩
    · exact commit_stg _ (hw.trans hs.2)
    · exact commit_flash _ (hw.trans hs.2)
  · intro h
    exact hs.runT_self (softGo_none h)
  · intro h
    exact hs.runT_self (softGo_none h)
  · intro d hd hp
    obtain ⟨u, hu, he⟩ := warmAssert_long (s := s) hd hs.1 hp
    have hdone : ResetDone s 1 u := by
      rw [hu]
      exact (resetDone_begin _ 1 (warmSeen s)).of_rst
    have hr : u.rst = { (warmSeen s).rst with prog := true, asReload := !s.boot.entered5 } := by
      rw [hu]
      exact resetBegin_rst _ 1 (warmSeen s)
    have hstep : bootStep u = 0 := by
      rw [hu]
      exact (resetBegin_shows _ 1 (warmSeen s)).2.2
    have hnow : now u = now s := by
      have := congrArg (fun m => m.2.2.2.2.2.1.ticks) hdone.motion
      exact this
    obtain ⟨hcause, hprev⟩ := hdone.cause_fields (by decide)
    refine ⟨_, pin _, ?_⟩
    rw [he]
    refine ⟨?_, hcause, hprev, hdone.still.2.2.2.2.2, hdone.joined, ?_, ?_, hstep⟩
    · show u.rst.warmPin = true
      rw [hr]
      rfl
    · show some (now u) = _
      rw [hnow]
    · show u.rst.prog = true
      rw [hr]
  · intro d hd
    refine (pin _).trans ?_
    rw [warmAssert_short hd, commit_self hs.2]
  · refine ⟨_, pin _, ?_, ?_, ?_⟩
    · exact warmRelease_pin s
    · intro w hw hn
      rw [warmRelease_early hw hn]
      exact ⟨rfl, rfl⟩
    · intro hw hp ha hb hpend ht
      rw [warmRelease_resumes hs.1 hw hb, resetResume_enters (s := warmFreed s) hp hb rfl ht ha]
      refine ⟨?_, bootStep_enterStep5 (s := warmFreed s) hpend⟩
      rw [commit_rst, enterStep5_rst (s := warmFreed s) hpend]
  · intro hb
    have hb' (r : Bool) : (resetBegin r 6 (wbitAt R.clkStatus 0 false s)).rst.asReload = false →
        (resetBegin r 6 (wbitAt R.clkStatus 0 false s)).bootPend = [] := by
      intro h
      rw [resetBegin_rst] at h
      have hr : r = false := h
      rw [hr, resetBegin_bootPend]
      exact hb
    have hd : ResetDone (wbitAt R.clkStatus 0 false s) 6 (rootPllLoss s) := (resetDone_begin _ 6 _).resume (hb' _)
    refine ⟨_, hs.runT rootPllLoss, ?_⟩
    rw [commit_rfld, commit_rbit, commit_streams]
    refine ⟨(hd.cause_fields (by decide)).1, ?_, hd.still.1⟩
    exact (congrArg (wbit · 0) (hd.kept R.clkStatus (.inr rfl))).trans (rbit_wbitAt _ _ _ _ (by decide))

end Sys2Proof.Machine
end

section
/-! O52 (R457, R596, R599, R604, R605, R617, R618, R621): cold reset, its pins, and the thermal monitor. -/
namespace Sys2Proof.Machine

section
variable {s v : State}

/-! ### A cold reset that begins (R604, R605) -/

/-- The clearing of the staging store that a cold reset issues. -/
def stagingClear : MemWrite := { flash := false, addr := 0, bytes := [], clear := stagingBytes }

theorem writes_coldReset (h : s.writes = []) (b : Bool) : (coldReset b s).writes = [stagingClear] := by
  show s.writes ++ [stagingClear] = _
  rw [h]
  rfl

/-- The flash is as it was, and the staging store reads zero. -/
theorem commit_cleared (h : v.writes = [stagingClear]) (b : Bool) :
    (commit b s v).flash = s.flash ∧ ∀ a, a < 96 * 1048576 → stgGet (commit b s v) a = 0 := by
  constructor
  · show Memory.apply true flashFill s.flash v.writes = _
    rw [h]
    rfl
  · intro a ha
    show overlay false stgFill a (Memory.get stgFill (Memory.apply false stgFill s.stg v.writes) a) [] = 0
    rw [h, Memory.get_apply]
    show (if 0 ≤ a ∧ a < 0 + stagingBytes then stgFill else Memory.get stgFill s.stg a) = 0
    rw [if_pos ⟨Nat.zero_le _, by unfold stagingBytes; omega⟩]
    rfl

theorem rd_coldReset {a : Nat} (h : a ≠ R.glbTemp) (b : Bool) (s : State) : rd (coldReset b s) a = resetReg a := by
  show tget (resetReg a) a (if rbit s R.glbTemp 12 then [(R.glbTemp, 0x1000)] else []) = _
  split
  · unfold tget tfind
    rw [if_neg (Ne.symm h)] <;> rfl
  · rfl

/-- The trip latch is kept (R618). -/
theorem trip_coldReset (b : Bool) (s : State) : rbit (coldReset b s) R.glbTemp 12 = rbit s R.glbTemp 12 := by
  show wbit (tget (resetReg R.glbTemp) R.glbTemp (if rbit s R.glbTemp 12 then [(R.glbTemp, 0x1000)] else [])) 12 = _
  cases rbit s R.glbTemp 12 <;> decide

/-! ### The release (R599, R605, R621) -/

/-- The straps have been sampled, and machine time is 0. -/
def released (s : State) : State :=
  let s := wrN R.glbStraps (sampleStraps s.rst.straps) (wrN R.glbVid Config.vid.toNat s)
  mtcModeReset { s with
    t := {}, rst := { s.rst with cold := false }, clk := { s.clk with lostAt := s.clk.lostAt.map (fun _ => 0) } }

theorem tryRelease_cases (s : State) : tryRelease s = s ∨ ∃ n, tryRelease s = setStep n (released s) := by
  unfold tryRelease
  split
  · exact .inr ⟨_, rfl⟩
  · exact .inl rfl

theorem rst_tryRelease (s : State) : ∃ b, (tryRelease s).rst = { s.rst with cold := b } := by
  rcases tryRelease_cases s with h | ⟨n, h⟩ <;> rw [h]
  · exact ⟨s.rst.cold, rfl⟩
  · exact ⟨false, rfl⟩

theorem rd_released {a : Nat} (h1 : a ≠ R.glbStraps) (h2 : a ≠ R.glbVid) (h3 : a ≠ R.mtcMode) (s : State) : rd (released s) a = rd s a :=
  (rd_wrN_ne h3 _ _).trans
    ((rd_wrN_ne h1 (sampleStraps s.rst.straps) (wrN R.glbVid Config.vid.toNat s)).trans (rd_wrN_ne h2 _ _))

theorem rd_tryRelease {a : Nat} (h1 : a ≠ R.glbStraps) (h2 : a ≠ R.glbVid) (h3 : a ≠ R.mtcMode) (h4 : a ≠ R.glbBootStatus) (s : State) :
    rd (tryRelease s) a = rd s a := by
  rcases tryRelease_cases s with h | ⟨n, h⟩ <;> rw [h]
  exact (rd_wfld_ne h4 _ _ _ _).trans (rd_released h1 h2 h3 s)

/-- What is sampled of the straps: their five levels, and STRAP_RSVD above them. -/
theorem sampleStraps_eq (n : Nat) : ∃ r, r < 2 ∧ sampleStraps n = n % 32 + 32 * r := by
  unfold sampleStraps
  dsimp only
  split
  · exact ⟨1, by decide, rfl⟩
  · exact ⟨0, by decide, rfl⟩

theorem straps_released (s : State) : rd (released s) R.glbStraps = BitVec.ofNat 32 (sampleStraps s.rst.straps) := by
  refine (rd_wrN_ne (by decide) _ _).trans ?_
  exact rd_wr_self R.glbStraps _ (wrN R.glbVid Config.vid.toNat s)

/-- What the straps sampled show (R457): their levels, and the reset value of MTC_MODE that follows TIME_ROOT. -/
theorem released_shows {n : Nat} (hs : s.rst.straps = n) (hn : n < 32) : rfld (released s) R.glbStraps 4 0 = n
    ∧ rbit (released s) R.mtcMode 3 = n.testBit 2 ∧ rbit (released s) R.mtcMode 2 = n.testBit 2 := by
  obtain ⟨r, hr, he⟩ := sampleStraps_eq n
  have hsmall : sampleStraps n % 2 ^ 32 = sampleStraps n := Nat.mod_eq_of_lt (by omega)
  have hmod : sampleStraps n % 2 ^ 5 = n := by omega
  have hfld : rfld (released s) R.glbStraps 4 0 = n := by
    rw [rfld, straps_released, hs, fld, nbits, BitVec.toNat_ofNat, hsmall, Nat.shiftRight_zero]
    exact hmod
  have hroot : (sampleStraps n).testBit 2 = n.testBit 2 := by
    rw [← congrArg (Nat.testBit · 2) hmod, Nat.testBit_mod_two_pow]
    exact (Bool.true_and _).symm
  have hbit : rbit (released s) R.glbStraps 2 = n.testBit 2 := by
    rw [rbit, straps_released, hs, wbit, BitVec.toNat_ofNat, hsmall, hroot]
  have hmode : rd (released s) R.mtcMode = BitVec.ofNat 32 (if n.testBit 2 then 0xC else 0) := by
    rw [← hbit]
    refine (rd_wr_self _ _ _).trans ?_
    exact congrArg (fun b : Bool => BitVec.ofNat 32 (if b then 0xC else 0))
      (congrArg (wbit · 2) (rd_wrN_ne (a := R.mtcMode) (b := R.glbStraps) (by decide) _ _).symm)
  refine ⟨hfld, ?_, ?_⟩
  all_goals
    rw [rbit, hmode]
    cases n.testBit 2 <;> decide

theorem porstRelease_releases {n : Nat} (hc : s.rst.cold = true) (he : s.rst.ended = true) (hj : jtagHolds s.rst.jtag = false)
    (hl : rbit s R.clkStatus 0 = true) (hw : s.rst.warmPin = false) (ht : rbit s R.glbTemp 12 = false) :
    porstRelease n s = setStep 2 (released { s with rst := { s.rst with pin := false, straps := n } }) := by
  unfold porstRelease tryRelease
  refine (if_pos ⟨hc, rfl, he, hj, hl⟩).trans ?_
  show setStep (if (released { s with rst := { s.rst with pin := false, straps := n } }).rst.warmPin = true
    ∨ rbit (released { s with rst := { s.rst with pin := false, straps := n } }) R.glbTemp 12 = true then 1 else 2) (released _) = _
  have htrip : rbit (released { s with rst := { s.rst with pin := false, straps := n } }) R.glbTemp 12 = false :=
    (congrArg (wbit · 12) (rd_released (by decide) (by decide) (by decide) _)).trans ht
  rw [if_neg]
  rintro (h | h)
  · exact Bool.false_ne_true (hw.symm.trans h)
  · exact Bool.false_ne_true (htrip.symm.trans h)

/-! ### The test access port (R621) -/

/-- The instruction is taken; IDCODE shifts out its word. -/
def jtagTaken (op : Nat) (s : State) : State :=
  let s := { s with rst := { s.rst with jtag := op % 256 } }
  if op % 256 = 1 then emit (.tdo 0x148071A7) s else s

theorem instructionUpdate_eq (op : Nat) (s : State) : instructionUpdate op s
    = if jtagHolds (op % 256) then (if jtagHolds s.rst.jtag then jtagTaken op s else coldReset false (jtagTaken op s))
      else if jtagHolds s.rst.jtag then tryRelease (jtagTaken op s) else jtagTaken op s := rfl

theorem jtagTaken_keeps (op : Nat) (s : State) : (jtagTaken op s).rst.jtag = op % 256 ∧ (jtagTaken op s).writes = s.writes := by
  unfold jtagTaken
  dsimp only
  split <;> exact ⟨rfl, rfl⟩

theorem instructionUpdate_jtag (op : Nat) (s : State) : (instructionUpdate op s).rst.jtag = op % 256 := by
  have ht := (jtagTaken_keeps op s).1
  rw [instructionUpdate_eq]
  split
  · split
    · exact ht
    · exact ht
  split
  · obtain ⟨b, hb⟩ := rst_tryRelease (jtagTaken op s)
    rw [hb]
    exact ht
  · exact ht

/-! ### The thermal monitor (R617, R618) -/

/-- The reading, before what it brings about. -/
def thermalRead (temp sensor : Nat) (s : State) : State :=
  let s := wfld R.glbTemp 18 16 sensor (wfld R.glbTemp 11 0 temp s)
  if rfld s R.glbTempWarn 11 0 ≤ temp % 4096 then ev R.glbPwrEvents 0 s else s

theorem thermalSample_eq (temp sensor : Nat) (s : State) : thermalSample temp sensor s
    = if 716 ≤ temp % 4096 ∧ rbit (thermalRead temp sensor s) R.glbTemp 12 = false then
        warmStart 7 (wbitAt R.glbTemp 12 true (emit .thermtrip (thermalRead temp sensor s)))
      else thermalRead temp sensor s := rfl

theorem thermalRead_shows {temp sensor : Nat} (ht : temp < 4096) (hn : sensor < 8) (s : State) :
    rfld (thermalRead temp sensor s) R.glbTemp 11 0 = temp ∧ rfld (thermalRead temp sensor s) R.glbTemp 18 16 = sensor
    ∧ (rfld s R.glbTempWarn 11 0 ≤ temp → rbit (thermalRead temp sensor s) R.glbPwrEvents 0 = true)
    ∧ (thermalRead temp sensor s).out = s.out
    ∧ ∀ a, a ≠ R.glbTemp → a ≠ R.glbPwrEvents → rd (thermalRead temp sensor s) a = rd s a := by
  have hs (a : Nat) (ha : a ≠ R.glbTemp) : rd (wfld R.glbTemp 18 16 sensor (wfld R.glbTemp 11 0 temp s)) a = rd s a :=
    (rd_wfld_ne ha _ _ _ _).trans (rd_wfld_ne ha _ _ _ _)
  have hlow : rfld (wfld R.glbTemp 18 16 sensor (wfld R.glbTemp 11 0 temp s)) R.glbTemp 11 0 = temp := by
    rw [rfld_wfld_disjoint _ _ _ _ _ _ _ (by decide) (by decide), rfld_wfld _ _ _ _ _ (by decide)]
    exact Nat.mod_eq_of_lt ht
  have hhigh : rfld (wfld R.glbTemp 18 16 sensor (wfld R.glbTemp 11 0 temp s)) R.glbTemp 18 16 = sensor := by
    rw [rfld_wfld _ _ _ _ _ (by decide)]
    exact Nat.mod_eq_of_lt hn
  have hwarn : rfld (wfld R.glbTemp 18 16 sensor (wfld R.glbTemp 11 0 temp s)) R.glbTempWarn 11 0 = rfld s R.glbTempWarn 11 0 :=
    congrArg (fld · 11 0) (hs R.glbTempWarn (by decide))
  have hout : (wfld R.glbTemp 18 16 sensor (wfld R.glbTemp 11 0 temp s)).out = s.out :=
    (markStable_out.wfld _ _ _ _ _).trans (markStable_out.wfld _ _ _ _ _)
  unfold thermalRead
  dsimp only
  rw [hwarn, Nat.mod_eq_of_lt ht]
  split
  · refine ⟨?_, ?_, fun _ => rbit_ev _ _ _ (by decide), (markStable_out.ev _ _ _).trans hout, fun a h1 h2 => ?_⟩
    · rw [rfld_ev_ne (by decide), hlow]
    · rw [rfld_ev_ne (by decide), hhigh]
    · rw [rd_ev_ne h2, hs a h1]
  · next h => exact ⟨hlow, hhigh, fun x => absurd x h, hout, fun a h1 _ => hs a h1⟩

theorem thermalRead_trip (temp sensor : Nat) (s : State) : rbit (thermalRead temp sensor s) R.glbTemp 12 = rbit s R.glbTemp 12 := by
  have hs : rbit (wfld R.glbTemp 18 16 sensor (wfld R.glbTemp 11 0 temp s)) R.glbTemp 12 = rbit s R.glbTemp 12 := by
    rw [rbit_wfld_disjoint _ _ _ _ _ _ (by decide) (by decide), rbit_wfld_disjoint _ _ _ _ _ _ (by decide) (by decide)]
  unfold thermalRead
  dsimp only
  split
  · exact (congrArg (wbit · 12) (rd_ev_ne (by decide) _ _)).trans hs
  · exact hs

theorem beginStable_out : BeginStable State.out := by
  repeat' constructor
  all_goals intros; rfl

end

theorem commit_bootStep (b : Bool) (s v : State) : bootStep (commit b s v) = bootStep v := rfl

/-- Settles O52. -/
theorem coldResetAndPins : Obligations.ColdResetAndPins := by
  intro s hw
  have pin (f : State → State) : runPin f s = .next (commit true s (f s)) := runPin_eq f s hw
  refine ⟨?_, ?_, ?_, ?_, ?_, ?_, ?_, ?_, ?_, ?_⟩
  · intro d hd
    refine ⟨_, pin _, ?_⟩
    have he : porst d s = coldReset false { s with rst := { s.rst with pin := true } } := by
      unfold porst
      rw [pulseSeen_long hd]
      exact if_pos rfl
    obtain ⟨hfl, hstg⟩ := commit_cleared (s := s) (writes_coldReset (s := { s with rst := { s.rst with pin := true } }) hw false) true
    rw [he]
    refine ⟨rfl, rfl, rfl, rfl, ?_, rfl, rfl, hfl, hstg⟩
    rw [commit_rbit, rbit, rd_coldReset (by decide)]
    decide
  · intro d hd
    have he : porst d s = s := by
      unfold porst
      rw [pulseSeen_short hd]
      exact if_neg Bool.false_ne_true
    refine (pin _).trans ?_
    rw [he, commit_self hw]
  · intro d v hd
    refine ⟨_, pin _, ?_⟩
    have he : supplyDip d v s = if v then wbitAt R.glbTemp 12 false (coldReset true s) else coldReset true s := by
      unfold supplyDip
      rw [pulseSeen_long hd]
      exact if_pos rfl
    have hwr : (if v then wbitAt R.glbTemp 12 false (coldReset true s) else coldReset true s).writes = [stagingClear] := by
      cases v <;> exact writes_coldReset hw true
    obtain ⟨hfl, -⟩ := commit_cleared (s := s) hwr true
    rw [he]
    refine ⟨?_, ?_, ?_, hfl, ?_, ?_⟩
    · cases v <;> rfl
    · cases v <;> rfl
    · cases v <;> rfl
    · rintro rfl
      exact rbit_wbitAt _ _ _ _ (by decide)
    · rintro rfl
      exact trip_coldReset true s
  · intro hc he hn
    refine ⟨_, pin _, ?_⟩
    have hdue : coldEndDue s = true := by
      unfold coldEndDue
      rw [hc, he, decide_eq_true hn]
      rfl
    obtain ⟨b, hb⟩ := rst_tryRelease { s with rst := { s.rst with ended := true } }
    rw [commit_rst, whenB_true hdue, hb]
  · intro v hc he hj hl hv hwp ht
    refine ⟨_, pin _, ?_⟩
    obtain ⟨hs, h3, h2⟩ := released_shows (s := { s with rst := { s.rst with pin := false, straps := v } }) rfl hv
    rw [porstRelease_releases hc he hj hl hwp ht, commit_rst, commit_bootStep, commit_t_true, commit_rfld, commit_rbit, commit_rbit]
    refine ⟨rfl, rfl, bootStep_setStep (by decide) _, rfl, ?_, ?_, ?_⟩
    · exact (congrArg (fld · 4 0) (rd_wfld_ne (by decide) _ _ _ _)).trans hs
    · exact (congrArg (wbit · 3) (rd_wfld_ne (by decide) _ _ _ _)).trans h3
    · exact (congrArg (wbit · 2) (rd_wfld_ne (by decide) _ _ _ _)).trans h2
  · intro l
    refine ⟨_, pin _, ?_⟩
    have hclk (b : Bool) (i : Nat) (u : State) (h : rbit u R.clkStatus i = b) : rbit (tryRelease u) R.clkStatus i = b :=
      (congrArg (wbit · i) (rd_tryRelease (by decide) (by decide) (by decide) (by decide) u)).trans h
    refine ⟨hclk true 0 _ ?_, hclk (!l) 1 _ ?_, hclk l 2 _ ?_⟩
    · exact rbit_wbitAt _ _ _ _ (by decide)
    · rw [rbit_wbitAt_other _ _ _ _ _ _ (by decide) (.inr (by decide))]
      exact rbit_wbitAt _ _ _ _ (by decide)
    · rw [rbit_wbitAt_other _ _ _ _ _ _ (by decide) (.inr (by decide)), rbit_wbitAt_other _ _ _ _ _ _ (by decide) (.inr (by decide))]
      exact rbit_wbitAt _ _ _ _ (by decide)
  · intro op
    refine ⟨_, pin _, instructionUpdate_jtag op s, fun h hn => ?_⟩
    have he : instructionUpdate op s = coldReset false (jtagTaken op s) := by
      rw [instructionUpdate_eq, if_pos h, hn]
      exact if_neg Bool.false_ne_true
    rw [he]
    exact ⟨rfl, (commit_cleared (writes_coldReset ((jtagTaken_keeps op s).2.trans hw) false) true).1⟩
  · exact ⟨_, pin _, instructionUpdate_jtag 1 s⟩
  · intro temp sensor hc ht hn hcase
    obtain ⟨h1, h2, h3, h4, h5⟩ := thermalRead_shows ht hn s
    have hr : State.Ready s := ⟨hc, hw⟩
    have he : thermalSample temp sensor s = thermalRead temp sensor s := by
      rw [thermalSample_eq, thermalRead_trip, Nat.mod_eq_of_lt ht]
      refine if_neg ?_
      rintro ⟨hlarge, htrip⟩
      rcases hcase with h | h
      · omega
      · exact Bool.false_ne_true (htrip.symm.trans h)
    refine ⟨_, hr.runT _, ?_⟩
    rw [he, commit_rfld, commit_rfld, commit_rbit, commit_out]
    simp only [commit_rd]
    exact ⟨h1, h2, h3, h4, h5⟩
  · intro temp sensor hc ht hlarge htrip
    have hr : State.Ready s := ⟨hc, hw⟩
    have he : thermalSample temp sensor s = warmStart 7 (wbitAt R.glbTemp 12 true (emit .thermtrip (thermalRead temp sensor s))) := by
      rw [thermalSample_eq, thermalRead_trip, Nat.mod_eq_of_lt ht]
      exact if_pos ⟨hlarge, htrip⟩
    refine ⟨_, hr.runT _, ?_⟩
    rw [he, commit_rbit, commit_rfld, commit_out, commit_streams, commit_bootStep]
    generalize hu : wbitAt R.glbTemp 12 true (emit .thermtrip (thermalRead temp sensor s)) = u
    have hd : ResetDone u 7 (warmStart 7 u) := resetDone_begin _ 7 u
    have hout : Out.thermtrip ∈ u.out := by
      rw [← hu]
      exact List.mem_append_right _ (List.mem_singleton_self _)
    refine ⟨?_, ?_, (hd.cause_fields (by decide)).1, (resetBegin_shows _ 7 u).2.2, hd.still.1⟩
    · refine (congrArg (wbit · 12) (hd.kept R.glbTemp (.inl rfl))).trans ?_
      rw [← hu]
      exact rbit_wbitAt _ _ _ _ (by decide)
    · unfold warmStart
      rw [resetBegin_field _ 7 beginStable_out]
      exact hout

end Sys2Proof.Machine
end

section
/-! SUPPORT. What boot reads of the flash, its failures, and the entry of step 4 (R464, R469, R475, R479, R484). -/
namespace Sys2Proof.Machine

section
variable {s t u : State}

/-! ### States in which boot reads the same -/

/-- Registers, flash and boot are the same: what has changed is the flash port and what it has put on its bus. -/
structure SameBoot (s t : State) : Prop where
  regs : t.regs = s.regs
  flash : t.flash = s.flash
  writes : t.writes = s.writes
  boot : t.boot = s.boot

namespace SameBoot

theorem refl (s : State) : SameBoot s s := ⟨rfl, rfl, rfl, rfl⟩

theorem emit (h : SameBoot s t) (o : Out) : SameBoot s (emit o t) := ⟨h.regs, h.flash, h.writes, h.boot⟩

theorem portFree (h : SameBoot s t) : SameBoot s (bootPortFree t) := by
  unfold bootPortFree
  split
  · exact ⟨h.regs, h.flash, h.writes, h.boot⟩
  · exact h

theorem readFrame (h : SameBoot s t) (a n : Nat) : SameBoot s (readFrame a n t) := h.emit _

theorem preamble (h : SameBoot s t) (b : List Byte) (n : Nat) : SameBoot s (preamble b n t) := by
  induction n generalizing b t with
  | zero => exact h
  | succ n ih =>
    unfold Machine.preamble
    split
    · exact h
    · exact ih (h.emit _) _

theorem flashGet (h : SameBoot s t) (a : Nat) : flashGet t a = flashGet s a := by
  unfold Machine.flashGet
  rw [h.flash, h.writes]

theorem flashRead (h : SameBoot s t) (a n : Nat) : flashRead t a n = flashRead s a n := by
  induction n generalizing a with
  | zero => rfl
  | succ n ih => rw [Machine.flashRead, Machine.flashRead, ih, h.flashGet]

theorem rd (h : SameBoot s t) (a : Nat) : rd t a = rd s a := rd_congr h.regs a

theorem strapLanes (h : SameBoot s t) : strapLanes t = strapLanes s := by
  unfold Machine.strapLanes
  rw [rfld_congr h.regs]

theorem bootSrc (h : SameBoot s t) : bootSrc t = bootSrc s := by
  unfold Machine.bootSrc
  rw [rfld_congr h.regs]

theorem slotHeader (h : SameBoot s t) (i : Nat) : slotHeader t i = slotHeader s i := h.flashRead _ _

theorem slotEmpty (h : SameBoot s t) (i : Nat) : slotEmpty t i = slotEmpty s i := by
  unfold Machine.slotEmpty
  rw [h.slotHeader]

theorem slotTest (h : SameBoot s t) (i : Nat) : slotTest t i = slotTest s i := by
  unfold Machine.slotTest slotCommit
  rw [h.slotHeader, h.flashRead, rdN_congr h.regs, rfld_congr h.regs]

theorem slotBFirst (h : SameBoot s t) : slotBFirst t = slotBFirst s := by
  unfold Machine.slotBFirst
  rw [h.slotHeader, h.slotHeader]

end SameBoot

/-! ### A failure of boot (R479) -/

theorem alert_bootFail (c y a : Nat) (j : Bool) (s : State) : rbit (bootFail c y a j s) R.glbAlertStatus 14 = true :=
  rbit_raise_alert_mk (by decide) _

theorem rd_bootFail {b : Nat} (h1 : b ≠ R.glbBootStatus) (h2 : b ≠ R.glbBootDetail) (hr : raiseReg b = false) (c y a : Nat) (j : Bool) (s : State) :
    rd (bootFail c y a j s) b = rd s b := by
  unfold bootFail
  rw [rd_raise_mk (by decide) hr, rd_wfld_ne h1, rd_wrN_ne h2]

/-- A failure sets LAST_CODE, and no other bit of GLB_BOOT_STATUS. -/
theorem code_bootFail (c y a : Nat) (j : Bool) (s : State) : rfld (bootFail c y a j s) R.glbBootStatus 23 16 = c % 256 := by
  unfold bootFail
  rw [rfld_raise_mk (by decide) (by decide), rfld_wfld _ _ _ _ _ (by decide)]
  rfl

theorem rbit_bootFail {i : Nat} (h : i < 16) (c y a : Nat) (j : Bool) (s : State) :
    rbit (bootFail c y a j s) R.glbBootStatus i = rbit s R.glbBootStatus i := by
  unfold bootFail
  rw [rbit_raise_mk (by decide) (by decide), rbit_wfld_disjoint _ _ _ _ _ _ (by decide) (.inl h), rbit_wrN_ne (by decide)]

theorem rfld_bootFail_low {hi lo : Nat} (h : hi < 16) (c y a : Nat) (j : Bool) (s : State) :
    rfld (bootFail c y a j s) R.glbBootStatus hi lo = rfld s R.glbBootStatus hi lo := by
  unfold bootFail
  rw [rfld_raise_mk (by decide) (by decide), rfld_wfld_disjoint _ _ _ _ _ _ _ (by decide) (.inl h), rfld_wrN_ne (by decide)]

theorem MarkStable.bootFail {α : Type} {g : State → α} (h : MarkStable g) (c y a : Nat) (j : Bool) (s : State) : g (bootFail c y a j s) = g s := by
  unfold Machine.bootFail
  rw [h.raise_mk (by decide), h.wfld, h.wrN]

theorem markStable_boot : MarkStable State.boot := by constructor <;> intros <;> rfl
theorem markStable_flash : MarkStable State.flash := switchStable_flash.markStable
theorem markStable_writes : MarkStable State.writes := by constructor <;> intros <;> rfl

theorem bootSrc_congr (h : rd t R.glbStraps = rd s R.glbStraps) : bootSrc t = bootSrc s := by
  unfold bootSrc rfld
  rw [h]

/-! ### The failed state (R475) -/

theorem noSlot_shows (s : State) : rbit (noSlot s) R.glbBootStatus 5 = true ∧ rfld (noSlot s) R.glbBootStatus 23 16 = 0x0D
    ∧ rbit (noSlot s) R.glbAlertStatus 14 = true ∧ (noSlot s).boot.cands = none := by
  unfold noSlot
  refine ⟨rbit_wbitAt _ _ _ _ (by decide), ?_, ?_, ?_⟩
  · rw [rfld_wbitAt_disjoint _ _ _ _ _ _ (by decide) (.inr (by decide)), code_bootFail]
  · exact (congrArg (wbit · 14) (rd_wbitAt_ne (by decide) _ _ _)).trans (alert_bootFail _ _ _ _ _)
  · rw [markStable_boot.wbitAt, markStable_boot.bootFail]
    rfl

/-! ### Step 4 (R458, R476) -/

/-- Step 4 as it begins. -/
def step4Begun (s : State) : State := setStep 4 (modBoot (fun b => { b with cands := none }) s)

theorem enterStep4_eq (s : State) :
    enterStep4 s = if bootSrc (step4Begun s) = 2 then wbitAt R.glbBootStatus 6 true (step4Begun s) else step4Begun s := rfl

theorem rd_step4Begun {a : Nat} (h : a ≠ R.glbBootStatus) (s : State) : rd (step4Begun s) a = rd s a := rd_wfld_ne h _ _ _ _

theorem rd_enterStep4 {a : Nat} (h : a ≠ R.glbBootStatus) (s : State) : rd (enterStep4 s) a = rd s a := by
  rw [enterStep4_eq]
  split
  · exact (rd_wbitAt_ne h _ _ _).trans (rd_step4Begun h s)
  · exact rd_step4Begun h s

theorem rbit_enterStep4 {i : Nat} (h1 : 4 ≤ i) (h2 : i ≠ 6) (s : State) :
    rbit (enterStep4 s) R.glbBootStatus i = rbit s R.glbBootStatus i := by
  have h4 : rbit (step4Begun s) R.glbBootStatus i = rbit s R.glbBootStatus i :=
    rbit_wfld_disjoint _ _ _ _ _ _ (by decide) (.inr h1)
  rw [enterStep4_eq]
  split
  · rw [rbit_wbitAt_other _ _ _ _ _ _ (by decide) (.inr h2), h4]
  · exact h4

theorem bootStep_enterStep4 (s : State) : bootStep (enterStep4 s) = 4 := by
  rw [enterStep4_eq]
  split
  · exact (rfld_wbitAt_disjoint _ _ _ _ _ _ (by decide) (.inl (by decide))).trans (bootStep_setStep (n := 4) (by decide) _)
  · exact bootStep_setStep (n := 4) (by decide) _

/-- In HOST mode the engine waits in step 4. -/
theorem enterStep4_host (h : bootSrc s = 2) : rbit (enterStep4 s) R.glbBootStatus 6 = true := by
  have hs : bootSrc (step4Begun s) = 2 := (bootSrc_congr (rd_step4Begun (by decide) s)).trans h
  rw [enterStep4_eq, if_pos hs]
  exact rbit_wbitAt _ _ _ _ (by decide)

theorem boot_enterStep4 (s : State) : (enterStep4 s).boot = { s.boot with cands := none } := by
  have h4 : (step4Begun s).boot = { s.boot with cands := none } := markStable_boot.wfld _ _ _ _ _
  rw [enterStep4_eq]
  split
  · exact (markStable_boot.wbitAt _ _ _ _).trans h4
  · exact h4

/-- A reading that depends neither on marks nor on the flash port, its bus and boot. -/
structure ScanStable {α : Type} (g : State → α) : Prop extends MarkStable g where
  out : ∀ o s, g (Machine.emit o s) = g s
  fl : ∀ x s, g { s with fl := x } = g s
  boot : ∀ x s, g { s with boot := x } = g s

theorem scanStable_flash : ScanStable State.flash := by
  repeat' first | exact markStable_flash | constructor
  all_goals intros; rfl

theorem scanStable_writes : ScanStable State.writes := by
  repeat' first | exact markStable_writes | constructor
  all_goals intros; rfl

namespace ScanStable
variable {α : Type} {g : State → α}

theorem enterStep4 (h : ScanStable g) (s : State) : g (enterStep4 s) = g s := by
  have h4 : g (step4Begun s) = g s := by rw [step4Begun, setStep, h.wfld, modBoot, h.boot]
  rw [enterStep4_eq]
  split
  · rw [h.wbitAt, h4]
  · exact h4

theorem portFree (h : ScanStable g) (s : State) : g (bootPortFree s) = g s := by
  unfold bootPortFree
  split
  · exact h.fl _ s
  · rfl

theorem journalSwitch (h : ScanStable g) (b : Bool) (s : State) : g (journalSwitch b s) = g s := by
  unfold Machine.journalSwitch
  dsimp only
  split
  · rw [setStep, h.wfld, h.wbitAt]
  · rw [h.enterStep4, h.wbitAt, h.wbitAt]

theorem takeIncarnation (h : ScanStable g) (o : Option Nat) (s : State) : g (takeIncarnation o s) = g s := by
  unfold Machine.takeIncarnation
  split
  · rfl
  · cases o with
    | none => exact h.boot _ s
    | some i =>
      dsimp only
      rw [h.wfld, h.wfld]
      exact h.boot _ s

theorem readFrames {β : Type} (h : ScanStable g) (l : List β) (f : β → Nat) (n : β → State → Nat) (s : State) :
    g (forEach l (fun k s => readFrame (f k) (n k s) s) s) = g s := forEach_field g _ _ (fun _ _ s => h.out _ s) s

end ScanStable

/-! ### The journal scan (R484) -/

/-- The state in which the first slots have been read. -/
def scanBegun (s : State) : State :=
  let s := bootPortFree (modFl (fun f => { f with second := false, rcd := [] })
    (modBoot (fun b => { b with eraseDue := [], skip := [] }) s))
  forEach (List.range (sectorCount s)) (fun k s => readFrame (jnlBase + k * sectorSize s) 64 s) s

/-- The valid records among the first slots. -/
def firstRecords (s : State) : List (Nat × Nat) := validSlots s ((List.range (sectorCount s)).map (fun k => k * slotsPer s))

theorem ScanStable.scanBegun {α : Type} {g : State → α} (h : ScanStable g) (s : State) : g (scanBegun s) = g s := by
  unfold Machine.scanBegun
  refine (forEach_field g _ _ (fun _ _ s => h.out _ s) _).trans ?_
  rw [h.portFree, modFl, h.fl, modBoot, h.boot]

/-- A journal without records: the scan ends in step 4. -/
theorem journalScan_empty (h : firstRecords (scanBegun s) = []) :
    journalScan s = enterStep4 (takeIncarnation none (wrN R.jnlHeadAddr jnlBase (wrN R.jnlNextSeq 0 (scanBegun s)))) := by
  unfold journalScan
  extract_lets s1 s2 used s3
  have hu : used = [] := h
  refine congrArg enterStep4 ?_
  unfold s3
  rw [hu] <;> rfl

/-- However the scan ends, it ends in step 4, and reads the flash alone. -/
theorem journalScan_ends (s : State) : ∃ u, journalScan s = enterStep4 u ∧ ∀ {α : Type} {g : State → α}, ScanStable g → g u = g s := by
  unfold journalScan
  extract_lets s1 s2 used s3
  refine ⟨s3, rfl, fun {α g} h => ?_⟩
  have h2 : g s2 = g s := h.scanBegun s
  unfold s3
  clear s3
  clear_value used s2
  split
  · rw [h.takeIncarnation, h.wrN, h.wrN, h2]
  · split
    · exact h2
    · extract_lets k l s4 next top after s5 s6
      have h4 : g s4 = g s := (forEach_field g _ _ (fun _ _ s => h.out _ s) s2).trans h2
      have h5 : g s5 = g s := (h.wrN _ _ _).trans ((h.wrN _ _ _).trans h4)
      rw [h.takeIncarnation]
      unfold s6
      split
      · exact h5
      · exact (h.boot _ s5).trans h5

end

end Sys2Proof.Machine
end

section
/-! O54 (R464, R469, R475, R484): the reads of boot. -/
namespace Sys2Proof.Machine

section
variable {s t : State} {x : Sfdp}

/-! ### The boot descriptor (R464) -/

/-- Both copies have been read. -/
def descSeen (s : State) : State :=
  bootPortFree (emit (.flash (slowFrame 3 (some 0x1000) 0 [] 64)) (emit (.flash (slowFrame 3 (some 0) 0 [] 64)) s))

theorem sameBoot_descSeen (s : State) : SameBoot s (descSeen s) := (((SameBoot.refl s).emit _).emit _).portFree

/-- The defaults that stand without a valid descriptor. -/
def noDescriptor (s : State) : State :=
  wbitAt R.glbBootStatus 7 true (wbitAt R.jnlStatus 0 false
    (wrN R.nvmReadCmd 0x13 (wrN R.nvmReadFmt 0x6008 (modBoot (fun t => { t with desc := {} }) s))))

/-- A descriptor that is taken, without the discovery of SFDP. -/
def descriptorTaken (copy : Bool) (b : List Byte) (s : State) : State :=
  readFrameRegs b (wbitAt R.glbBootStatus 8 copy (preamble (slice b 16 16) 4 (modBoot (fun t => { t with desc := descOf b }) s)))

theorem descriptorRead_none (h0 : descValid (strapLanes s) (flashRead s 0 64) = false) (h1 : descValid (strapLanes s) (flashRead s 0x1000 64) = false) :
    descriptorRead' x s = journalSwitch false (bootFail 1 0 0 false (noDescriptor (descSeen s))) := by
  have hs := sameBoot_descSeen s
  rw [← hs.strapLanes, ← hs.flashRead] at h0 h1
  unfold descriptorRead'
  extract_lets s0 b0 b1 l take s2 s3
  have e0 : descValid l b0 = false := h0
  have e1 : descValid l b1 = false := h1
  rw [e1, e0]
  exact (if_neg Bool.false_ne_true).trans (if_neg Bool.false_ne_true)

theorem descriptorRead_first {d : List Byte} (hd : d = flashRead s 0 64) (h0 : descValid (strapLanes s) d = true)
    (h1 : descValid (strapLanes s) (flashRead s 0x1000 64) = false) (h5 : byteAt d 5 % 2 = 0) :
    descriptorRead' x s = journalSwitch (byteAt d 5 / 2 == 1) (descriptorTaken false d (descSeen s)) := by
  have hs := sameBoot_descSeen s
  rw [← hs.strapLanes, ← hs.flashRead] at h1
  rw [← hs.strapLanes] at h0
  rw [← hs.flashRead] at hd
  unfold descriptorRead'
  extract_lets s0 b0 b1 l take s2 s3
  have e1 : descValid l b1 = false := h1
  have hb : b0 = d := hd.symm
  have e0 : descValid l b0 = true := by
    rw [hb]
    exact h0
  rw [e1, e0, hb]
  refine (if_neg Bool.false_ne_true).trans ((if_pos rfl).trans ?_)
  show journalSwitch (byteAt d 5 / 2 == 1) (if byteAt d 5 % 2 = 1 then _ else _) = _
  rw [if_neg (by omega)]
  rfl

/-! ### The journal is switched (R486) -/

theorem journalSwitch_off (s : State) : journalSwitch false s
    = enterStep4 (wbitAt R.glbBootStatus 13 true (wbitAt R.jnlStatus 0 false s)) := by
  unfold journalSwitch
  exact if_neg Bool.false_ne_true

theorem journalSwitch_on (s : State) : journalSwitch true s = setStep 3 (wbitAt R.jnlStatus 0 true s) := by
  unfold journalSwitch
  exact if_pos rfl

theorem rbit_wbitAt_ne {a b : Nat} (h : b ≠ a) (i j : Nat) (v : Bool) (s : State) : rbit (wbitAt a i v s) b j = rbit s b j :=
  congrArg (wbit · j) (rd_wbitAt_ne h i v s)

theorem rd_journalSwitch {a : Nat} (h1 : a ≠ R.glbBootStatus) (h2 : a ≠ R.jnlStatus) (b : Bool) (s : State) : rd (journalSwitch b s) a = rd s a := by
  cases b with
  | false => rw [journalSwitch_off, rd_enterStep4 h1, rd_wbitAt_ne h1, rd_wbitAt_ne h2]
  | true =>
    rw [journalSwitch_on]
    exact (rd_wfld_ne h1 _ _ _ _).trans (rd_wbitAt_ne h2 _ _ _)

theorem rbit_journalSwitch (b : Bool) (s : State) : rbit (journalSwitch b s) R.jnlStatus 0 = b := by
  cases b with
  | false =>
    rw [journalSwitch_off]
    refine (congrArg (wbit · 0) ((rd_enterStep4 (by decide) _).trans (rd_wbitAt_ne (by decide) _ _ _))).trans ?_
    exact rbit_wbitAt _ _ _ _ (by decide)
  | true =>
    rw [journalSwitch_on]
    refine (congrArg (wbit · 0) (rd_wfld_ne (by decide) _ _ _ _)).trans ?_
    exact rbit_wbitAt _ _ _ _ (by decide)

theorem bootStep_journalSwitch (b : Bool) (s : State) : bootStep (journalSwitch b s) = if b then 3 else 4 := by
  cases b with
  | false =>
    rw [journalSwitch_off]
    exact bootStep_enterStep4 _
  | true =>
    rw [journalSwitch_on]
    exact bootStep_setStep (n := 3) (by decide) _

theorem status_journalSwitch {i : Nat} (h1 : 4 ≤ i) (h2 : i ≠ 6) (h3 : i ≠ 13) (b : Bool) (s : State) :
    rbit (journalSwitch b s) R.glbBootStatus i = rbit s R.glbBootStatus i := by
  cases b with
  | false =>
    rw [journalSwitch_off, rbit_enterStep4 h1 h2, rbit_wbitAt_other _ _ _ _ _ _ (by decide) (.inr h3), rbit_wbitAt_ne (by decide)]
  | true =>
    rw [journalSwitch_on]
    refine (rbit_wfld_disjoint _ _ _ _ _ _ (by decide) (.inr h1)).trans ?_
    exact rbit_wbitAt_ne (by decide) _ _ _ _

theorem desc_journalSwitch (b : Bool) (s : State) : (journalSwitch b s).boot.desc = s.boot.desc := by
  cases b with
  | false => rw [journalSwitch_off, boot_enterStep4, markStable_boot.wbitAt, markStable_boot.wbitAt]
  | true => rw [journalSwitch_on, setStep, markStable_boot.wfld, markStable_boot.wbitAt]

theorem fieldLE_lt (l : List Byte) (o n : Nat) : fieldLE l o n < 256 ^ n := by
  have h (m : List Byte) : natLE m < 256 ^ m.length := by
    induction m with
    | nil => decide
    | cons b m ih =>
      have hb : b.toNat < 256 := b.isLt
      rw [natLE, List.length_cons, Nat.pow_succ']
      omega
  exact (h (slice l o n)).trans_eq (congrArg (256 ^ ·) (slice_length l o n))

theorem readCmd_low (v m : Nat) (h : v < 256 ^ 2) : nbits ((v + m % 2 * 65536) % 2 ^ 32) 15 0 = v := by
  unfold nbits
  rw [Nat.shiftRight_zero]
  omega

/-! ### The slot checks (R469) -/

/-- Slot A has been read. -/
def slotASeen (s : State) : State := bootPortFree (readFrame 0xFFFFFC 4 (readFrame 0x2000 256 s))

/-- Slot B has been read. -/
def slotBSeen (s : State) : State := readFrame 0x1FFFFFC 4 (readFrame 0x1002000 256 s)

theorem sameBoot_slotASeen (s : State) : SameBoot s (slotASeen s) := (((SameBoot.refl s).readFrame _ _).readFrame _ _).portFree

theorem SameBoot.slotBSeen (h : SameBoot s t) : SameBoot s (slotBSeen t) := (h.readFrame _ _).readFrame _ _

theorem slotCheckOne_empty {i : Nat} (h : slotEmpty s i = true) : slotCheckOne i s = (s, false) := if_pos h

theorem slotCheckOne_good {i : Nat} (h : slotEmpty s i = false) (ht : slotTest s i = none) : slotCheckOne i s = (s, true) := by
  unfold slotCheckOne
  rw [h, if_neg Bool.false_ne_true, ht]

/-- The candidates of slots that are empty or pass their tests. -/
def slotOrder (s : State) (a b : Bool) : List Nat :=
  if a && b then (if slotBFirst s then [1, 0] else [0, 1]) else if a then [0] else if b then [1] else []

theorem slotCheck_eq {a b : Bool} (hsrc : bootSrc s ≠ 1) (h0 : slotCheckOne 0 (slotASeen s) = (slotASeen s, a))
    (h1 : slotCheckOne 1 (slotBSeen (slotASeen s)) = (slotBSeen (slotASeen s), b)) :
    slotCheck s = if (slotOrder (slotASeen s) a b).isEmpty then noSlot (slotBSeen (slotASeen s))
      else modBoot (fun t => { t with cands := some (slotOrder (slotASeen s) a b) }) (slotBSeen (slotASeen s)) := by
  have hs : bootSrc (slotASeen s) ≠ 1 := by
    rw [(sameBoot_slotASeen s).bootSrc]
    exact hsrc
  unfold slotCheck
  extract_lets s0 c0 c1 l
  have e0 : c0 = (slotASeen s, a) := h0
  have e1 : c1 = (slotBSeen (slotASeen s), b) := by
    show (if bootSrc (slotASeen s) = 1 then _ else slotCheckOne 1 (slotBSeen c0.1)) = _
    rw [if_neg hs, e0]
    exact h1
  have el : l = slotOrder (slotASeen s) a b := by
    show (if c0.2 && c1.2 then _ else if c0.2 then _ else if c1.2 then _ else _) = _
    rw [e0, e1]
    rfl
  rw [el, e1]

/-! ### The clauses, before the flash is committed -/

theorem writes_descriptorRead (hw : s.writes = []) {u v : State} (h : SameBoot s u) {b : Bool}
    (hv : v.writes = u.writes) : (journalSwitch b v).writes = [] := by
  rw [scanStable_writes.journalSwitch, hv, h.writes, hw]

theorem descriptorRead_defaults (h0 : descValid (strapLanes s) (flashRead s 0 64) = false)
    (h1 : descValid (strapLanes s) (flashRead s 0x1000 64) = false) :
    rbit (descriptorRead' x s) R.glbBootStatus 7 = true ∧ rbit (descriptorRead' x s) R.jnlStatus 0 = false
    ∧ bootStep (descriptorRead' x s) = 4 ∧ rdN (descriptorRead' x s) R.nvmReadCmd = 0x13 ∧ rdN (descriptorRead' x s) R.nvmReadFmt = 0x6008
    ∧ rbit (descriptorRead' x s) R.glbAlertStatus 14 = true ∧ (descriptorRead' x s).writes = s.writes
    ∧ rbit (descriptorRead' x s) R.glbBootStatus 13 = true ∧ (bootSrc s = 2 → rbit (descriptorRead' x s) R.glbBootStatus 6 = true) := by
  have hsame := sameBoot_descSeen s
  rw [descriptorRead_none h0 h1]
  generalize descSeen s = u at *
  have hrd (a : Nat) (ha : a ≠ R.glbBootStatus) (hj : a ≠ R.jnlStatus) (hd : a ≠ R.glbBootDetail) (hr : raiseReg a = false) :
      rd (journalSwitch false (bootFail 1 0 0 false (noDescriptor u))) a = rd (noDescriptor u) a := by
    rw [rd_journalSwitch ha hj, rd_bootFail ha hd hr]
  have hno (a : Nat) (ha : a ≠ R.glbBootStatus) (hj : a ≠ R.jnlStatus) :
      rd (noDescriptor u) a = rd (wrN R.nvmReadCmd 0x13 (wrN R.nvmReadFmt 0x6008 (modBoot (fun t => { t with desc := {} }) u))) a := by
    rw [noDescriptor, rd_wbitAt_ne ha, rd_wbitAt_ne hj]
  refine ⟨?_, rbit_journalSwitch _ _, bootStep_journalSwitch _ _, ?_, ?_, ?_, ?_, ?_, fun hsrc => ?_⟩
  · rw [status_journalSwitch (by decide) (by decide) (by decide), rbit_bootFail (by decide), noDescriptor]
    exact rbit_wbitAt _ _ _ _ (by decide)
  · rw [rdN, hrd _ (by decide) (by decide) (by decide) (by decide), hno _ (by decide) (by decide), ← rdN, rdN_wrN]
    rfl
  · rw [rdN, hrd _ (by decide) (by decide) (by decide) (by decide), hno _ (by decide) (by decide), rd_wrN_ne (by decide), ← rdN, rdN_wrN]
    rfl
  · rw [rbit, rd_journalSwitch (by decide) (by decide), ← rbit]
    exact alert_bootFail _ _ _ _ _
  · rw [scanStable_writes.journalSwitch, markStable_writes.bootFail, noDescriptor, markStable_writes.wbitAt, markStable_writes.wbitAt,
      markStable_writes.wrN, markStable_writes.wrN]
    exact hsame.writes
  · rw [journalSwitch_off, rbit_enterStep4 (by decide) (by decide)]
    exact rbit_wbitAt _ _ _ _ (by decide)
  · rw [journalSwitch_off]
    refine enterStep4_host ?_
    rw [← hsrc, ← hsame.bootSrc]
    refine bootSrc_congr ?_
    rw [rd_wbitAt_ne (by decide), rd_wbitAt_ne (by decide), rd_bootFail (by decide) (by decide) (by decide), hno _ (by decide) (by decide),
      rd_wrN_ne (by decide), rd_wrN_ne (by decide)]
    rfl

theorem descriptorRead_valid {d : List Byte} (hd : d = flashRead s 0 64) (h0 : descValid (strapLanes s) d = true)
    (h1 : descValid (strapLanes s) (flashRead s 0x1000 64) = false) (h5 : byteAt d 5 % 2 = 0) :
    rbit (descriptorRead' x s) R.glbBootStatus 8 = false ∧ rfld (descriptorRead' x s) R.nvmReadCmd 15 0 = fieldLE d 10 2
    ∧ (descriptorRead' x s).boot.desc = descOf d ∧ rbit (descriptorRead' x s) R.jnlStatus 0 = (byteAt d 5 / 2 == 1)
    ∧ bootStep (descriptorRead' x s) = (if byteAt d 5 / 2 = 1 then 3 else 4) ∧ (descriptorRead' x s).writes = s.writes := by
  have hsame := sameBoot_descSeen s
  rw [descriptorRead_first hd h0 h1 h5]
  generalize descSeen s = u at *
  obtain ⟨v, hv⟩ : ∃ v, preamble (slice d 16 16) 4 (modBoot (fun t => { t with desc := descOf d }) u) = v := ⟨_, rfl⟩
  have hp : SameBoot (modBoot (fun t => { t with desc := descOf d }) u) v := by
    rw [← hv]
    exact (SameBoot.refl _).preamble _ _
  have ht : descriptorTaken false d u = readFrameRegs d (wbitAt R.glbBootStatus 8 false v) := by rw [descriptorTaken, hv]
  rw [ht]
  have hframe {α : Type} {g : State → α} (h : MarkStable g) : g (readFrameRegs d (wbitAt R.glbBootStatus 8 false v)) = g v := by
    rw [readFrameRegs, h.wrN, h.wrN, h.wbitAt]
  refine ⟨?_, ?_, ?_, rbit_journalSwitch _ _, ?_, ?_⟩
  · rw [status_journalSwitch (by decide) (by decide) (by decide), readFrameRegs, rbit_wrN_ne (by decide), rbit_wrN_ne (by decide)]
    exact rbit_wbitAt _ _ _ _ (by decide)
  · rw [rfld, rd_journalSwitch (by decide) (by decide), ← rfld, readFrameRegs, rfld_wrN]
    exact readCmd_low _ _ (fieldLE_lt _ _ _)
  · rw [desc_journalSwitch, hframe markStable_boot, hp.boot]
    rfl
  · rw [bootStep_journalSwitch]
    by_cases h : byteAt d 5 / 2 = 1
    · rw [if_pos h, if_pos (by rw [h]; rfl)]
    · rw [if_neg h, if_neg (by simpa using h)]
  · rw [scanStable_writes.journalSwitch, hframe markStable_writes, hp.writes]
    exact hsame.writes

/-! ### The first records of the journal (R484) -/

theorem flashRead_congr (hf : t.flash = s.flash) (hw : t.writes = s.writes) (a n : Nat) : flashRead t a n = flashRead s a n := by
  induction n generalizing a with
  | zero => rfl
  | succ n ih =>
    rw [flashRead, flashRead, ih]
    unfold flashGet
    rw [hf, hw]

theorem validSlots_congr (hf : t.flash = s.flash) (hw : t.writes = s.writes) (l : List Nat) : validSlots t l = validSlots s l := by
  unfold validSlots slotBytes
  simp only [flashRead_congr hf hw]

theorem desc_scanBegun (s : State) : (scanBegun s).boot.desc = s.boot.desc := by
  unfold scanBegun
  extract_lets u
  have h := forEach_field (fun s : State => s.boot.desc) (List.range (sectorCount u))
    (f := fun k s => readFrame (jnlBase + k * sectorSize s) 64 s) (fun _ _ _ => rfl) u
  refine h.trans ?_
  unfold u bootPortFree
  split <;> rfl

theorem firstRecords_scanBegun (s : State) : firstRecords (scanBegun s) = firstRecords s := by
  unfold firstRecords sectorCount slotsPer
  rw [desc_scanBegun, validSlots_congr (scanStable_flash.scanBegun s) (scanStable_writes.scanBegun s)]

theorem regs_takeIncarnation_none (s : State) : (takeIncarnation none s).regs = s.regs := by
  unfold takeIncarnation
  split <;> rfl

/-- A journal without records begins anew. -/
theorem journalScan_anew (h : firstRecords s = []) :
    rdN (journalScan s) R.jnlHeadAddr = jnlBase ∧ rdN (journalScan s) R.jnlNextSeq = 0 := by
  rw [journalScan_empty (by rw [firstRecords_scanBegun, h])]
  generalize scanBegun s = u
  constructor
  · rw [rdN, rd_enterStep4 (by decide), rd_congr (regs_takeIncarnation_none _), ← rdN, rdN_wrN]
    rfl
  · rw [rdN, rd_enterStep4 (by decide), rd_congr (regs_takeIncarnation_none _), rd_wrN_ne (by decide), ← rdN, rdN_wrN]
    rfl

/-! ### What the slot checks choose (R469, R475) -/

theorem slotCheck_none (hsrc : bootSrc s ≠ 1) (h0 : slotEmpty s 0 = true) (h1 : slotEmpty s 1 = true) :
    slotCheck s = noSlot (slotBSeen (slotASeen s)) := by
  have ha := sameBoot_slotASeen s
  have hb := ha.slotBSeen
  rw [slotCheck_eq hsrc (slotCheckOne_empty (by rw [ha.slotEmpty, h0])) (slotCheckOne_empty (by rw [hb.slotEmpty, h1]))]
  exact if_pos rfl

theorem slotCheck_first (hsrc : bootSrc s ≠ 1) (h0 : slotEmpty s 0 = false) (h0t : slotTest s 0 = none) (h1 : slotEmpty s 1 = true) :
    slotCheck s = modBoot (fun t => { t with cands := some [0] }) (slotBSeen (slotASeen s)) := by
  have ha := sameBoot_slotASeen s
  have hb := ha.slotBSeen
  rw [slotCheck_eq hsrc (slotCheckOne_good (by rw [ha.slotEmpty, h0]) (by rw [ha.slotTest, h0t]))
    (slotCheckOne_empty (by rw [hb.slotEmpty, h1]))]
  exact if_neg Bool.false_ne_true

theorem slotCheck_both (hsrc : bootSrc s ≠ 1) (h0 : slotEmpty s 0 = false) (h0t : slotTest s 0 = none) (h1 : slotEmpty s 1 = false)
    (h1t : slotTest s 1 = none) :
    slotCheck s = modBoot (fun t => { t with cands := some (if slotBFirst s then [1, 0] else [0, 1]) }) (slotBSeen (slotASeen s)) := by
  have ha := sameBoot_slotASeen s
  have hb := ha.slotBSeen
  have ho : slotOrder (slotASeen s) true true = if slotBFirst s then [1, 0] else [0, 1] := by
    rw [← ha.slotBFirst]
    exact if_pos rfl
  rw [slotCheck_eq hsrc (slotCheckOne_good (by rw [ha.slotEmpty, h0]) (by rw [ha.slotTest, h0t]))
    (slotCheckOne_good (by rw [hb.slotEmpty, h1]) (by rw [hb.slotTest, h1t])), ho]
  refine if_neg ?_
  split <;> exact Bool.false_ne_true

end

/-- Settles O54. -/
theorem bootReadsHold : Obligations.BootReads := by
  intro s hs hp
  refine ⟨?_, ?_, ?_, ?_⟩
  · intro x h2 h0 h1
    obtain ⟨a1, a2, a3, a4, a5, a6, a7, a8, a9⟩ := descriptorRead_defaults (x := x) h0 h1
    refine ⟨_, hs.run_whenB (by rw [h2, hp]; rfl) _, ?_⟩
    simp only [commit_rbit, commit_rdN, commit_bootStep]
    exact ⟨a1, a2, a3, a4, a5, a6, commit_flash _ (a7.trans hs.2), a8, a9⟩
  · intro x d h2 hd h0 h1 h5
    obtain ⟨a1, a2, a3, a4, a5, a6⟩ := descriptorRead_valid (x := x) hd h0 h1 h5
    refine ⟨_, hs.run_whenB (by rw [h2, hp]; rfl) _, ?_⟩
    rw [commit_rbit, commit_rbit, commit_rfld, commit_boot, commit_bootStep]
    exact ⟨a1, a2, a3, a4, a5, commit_flash _ (a6.trans hs.2)⟩
  · intro h3 hj
    obtain ⟨u, he, hu⟩ := journalScan_ends s
    refine ⟨_, hs.run_whenB (by rw [h3, hj, hp]; rfl) _, ?_⟩
    rw [commit_bootStep, commit_boot, commit_rdN, commit_rdN]
    refine ⟨?_, commit_flash _ ?_, ?_, journalScan_anew⟩
    · rw [he, bootStep_enterStep4]
    · rw [he, scanStable_writes.enterStep4, hu scanStable_writes, hs.2]
    · rw [he, boot_enterStep4]
  · intro h4 hh hc hsrc
    have hdue : (bootStep s == 4 && !hostState s && s.boot.cands.isNone && bootPort s) = true := by
      rw [h4, hh, hc, hp]
      rfl
    have hseen : (slotBSeen (slotASeen s)).regs = s.regs := (sameBoot_slotASeen s).slotBSeen.regs
    refine ⟨fun h0 h1 => ⟨_, hs.run_whenB hdue _, ?_⟩, fun h0 h0t h1 => ⟨_, hs.run_whenB hdue _, ?_⟩,
      fun h0 h0t h1 h1t => ⟨_, hs.run_whenB hdue _, ?_⟩⟩
    · rw [slotCheck_none hsrc h0 h1, commit_rbit, commit_rbit, commit_rfld, commit_boot]
      exact noSlot_shows _
    · rw [slotCheck_first hsrc h0 h0t h1, commit_boot, commit_regs]
      exact ⟨rfl, hseen⟩
    · rw [slotCheck_both hsrc h0 h0t h1 h1t, commit_boot, commit_regs]
      exact ⟨rfl, hseen⟩

end Sys2Proof.Machine
end

section
/-! O58 (R510, R512, R515–R518): underruns, the chip-select watchdog, and pushes as master. -/
namespace Sys2Proof.Machine

section
variable {s : State} {f : Frame} {r : PRec} {l : List PRec}

/-! ### Event bits of the management port -/

theorem rbit_ev_of {a i b j : Nat} (hi : i < 32) (h : rbit s b j = true) : rbit (ev a i s) b j = true := by
  by_cases e : b = a ∧ j = i
  · rw [e.1, e.2, rbit_ev _ _ _ hi]
  · rw [rbit_ev_other _ _ _ _ _ hi (not_and_or.mp e), h]

theorem rbit_pushQueue_of {k : Nat} {b : List Byte} {j : Nat} (h : rbit s R.mgtEvents j = true) :
    rbit (pushQueue k b s) R.mgtEvents j = true := by
  unfold pushQueue
  split
  · split
    · exact h
    · exact rbit_ev_of (by decide) (by rw [rbit_cnt_ne (by decide), h])
  · exact h

theorem rbit_raiseMark_mgt (d : Det) (hd : d.i < 32) (j : Nat) (s : State) :
    rbit (raiseMark d s) R.mgtEvents j = rbit s R.mgtEvents j := by
  have hcnt : R.mgtEvents ≠ R.glbDetCount d.i := by unfold R.mgtEvents R.glbDetCount; omega
  unfold raiseMark rbit
  split
  · rw [rd_ev_ne (by decide), rd_cnt_ne hcnt, rd_ev_ne (by decide)]
  · rw [rd_wbitAt_ne (by decide), rd_cnt_ne hcnt, rd_ev_ne (by decide)]

theorem rbit_raiseRing_mgt (d : Det) (b : List Byte) (j : Nat) (s : State) :
    rbit (raiseRing d b s) R.mgtEvents j = rbit s R.mgtEvents j := by
  unfold raiseRing rbit
  split
  · rw [rd_cnt_ne (by decide)]
  · exact congrArg (wbit · j) ((rd_wr_ne (by decide) _ _).trans (rd_tblWrites_ne _ _ _ (by unfold R.eventWord R.mgtEvents; omega)))

theorem rbit_raiseCore_mgt_of {d : Det} (hd : d.i < 32) {j : Nat} (h : rbit s R.mgtEvents j = true) :
    rbit (raiseCore d s).1 R.mgtEvents j = true := by
  rw [← rbit_raiseMark_mgt d hd] at h
  revert h
  unfold raiseCore
  generalize raiseMark d s = x
  intro h
  dsimp only
  split
  · split
    · exact h
    · rw [rbit_raiseRing_mgt]
      split
      · exact rbit_pushQueue_of h
      · exact h
  · exact h

/-- A raising clears no event bit of the management port. -/
theorem rbit_raise_mgt_of {d : Det} (hd : d.i < 32) {j : Nat} (h : rbit s R.mgtEvents j = true) :
    rbit (raise d s) R.mgtEvents j = true := by
  have hc := rbit_raiseCore_mgt_of hd h
  rcases raise_eq d s with e | ⟨r, e⟩ <;> rw [e]
  · exact hc
  · unfold jnlQueue
    split
    · split
      · exact hc
      · exact rbit_raiseCore_mgt_of (d := { i := 18 }) (by decide) (by rw [rbit_cnt_ne (by decide), hc])
    · exact hc

theorem markStable_mgt : MarkStable State.mgt := by constructor <;> intros <;> rfl

/-! ### A fault: a count, an event bit and a detector -/

/-- What a fault of the management port leaves: the detector `i` raised after event bit `e` and the count at `a`. -/
def mgtFault (i e a : Nat) (inj : Bool) (s : State) : State := raise { i := i, inj := inj } (evI R.mgtEvents e 6 inj (cnt a s))

variable {i e a : Nat} {inj : Bool}

theorem MarkStable.mgtFault {α : Type} {g : State → α} (h : MarkStable g) (hi : i < 32) (s : State) :
    g (mgtFault i e a inj s) = g s := by
  unfold Machine.mgtFault
  rw [h.raise _ hi, h.evI, h.cnt]

theorem mgtFault_shows (hi : i < 32) (he : e < 6) (s : State) :
    rbit (mgtFault i e a inj s) R.mgtEvents e = true ∧ rbit (mgtFault i e a inj s) R.glbAlertStatus i = true :=
  ⟨rbit_raise_mgt_of hi (rbit_evI _ _ _ _ _ (by omega) (by decide) (by omega)), rbit_raise_alert_mk hi _⟩

theorem rdN_mgtFault {b : Nat} (hi : i < 32) (hb : raiseReg b = false) (s : State) :
    rdN (mgtFault i e a inj s) b = rdN (cnt a s) b := by
  have hne : b ≠ R.mgtEvents := fun h => absurd (h ▸ hb) (by decide)
  unfold mgtFault
  rw [rdN_raise_mk hi hb, rdN_evI_ne hne]

theorem rdN_mgtFault_self (hi : i < 32) (ha : raiseReg a = false) (s : State) :
    rdN (mgtFault i e a inj s) a = min (rdN s a + 1) 0xFFFFFFFF :=
  (rdN_mgtFault hi ha s).trans (rdN_cntBy a 1 s)

/-! ### Underruns and the watchdog (R510, R512) -/

/-- The last word goes out again, and the frame is lost. -/
def wordRepeated (w : Nat) (s : State) : State :=
  emit (.mgt (List.replicate w s.mgt.lastWord)) (modMgt (fun m => { m with lost := true }) s)

theorem underrun_eq (w : Nat) (inj : Bool) (s : State) :
    underrun w inj s = mgtFault 15 0 R.mgtUnderrunCount inj (wordRepeated w s) := rfl

/-- The port is tripped. -/
def tripBegun (s : State) : State := modMgt (fun m => { m with lost := true, tripped := true, idleFrom := now s }) s

theorem watchdogTrip_eq (inj : Bool) (s : State) :
    watchdogTrip inj s = mgtFault 17 3 R.mgtWatchdogCount inj (tripBegun s) := rfl

theorem mgt_underrun (w : Nat) (inj : Bool) (s : State) : (underrun w inj s).mgt = { s.mgt with lost := true } :=
  markStable_mgt.mgtFault (by decide) _

theorem out_underrun (w : Nat) (inj : Bool) (s : State) :
    (underrun w inj s).out = s.out ++ [.mgt (List.replicate w s.mgt.lastWord)] :=
  markStable_out.mgtFault (by decide) _

theorem rdN_underrun (w : Nat) (inj : Bool) (s : State) :
    rdN (underrun w inj s) R.mgtUnderrunCount = min (rdN s R.mgtUnderrunCount + 1) 0xFFFFFFFF :=
  rdN_mgtFault_self (by decide) (by decide) _

theorem rdN_underrun_watchdog (w : Nat) (inj : Bool) (s : State) :
    rdN (underrun w inj s) R.mgtWatchdogCount = rdN s R.mgtWatchdogCount :=
  (rdN_mgtFault (by decide) (by decide) _).trans (rdN_cnt_ne (by decide) _)

theorem out_mgtReleased (s : State) : (mgtReleased s).out = s.out := rfl
theorem rbit_mgtReleased (a i : Nat) (s : State) : rbit (mgtReleased s) a i = rbit s a i := rfl
theorem rdN_mgtReleased (a : Nat) (s : State) : rdN (mgtReleased s) a = rdN s a := rfl
theorem mgt_mgtReleased (s : State) : (mgtReleased s).mgt = { s.mgt with idleFrom := now s } := rfl

/-- The port has listened to an assertion of MGT_CS#. -/
def listened (s : State) : State := modMgt (fun m => { m with tripped := false }) s

theorem out_listened (s : State) : (listened s).out = s.out := rfl
theorem rdN_listened (a : Nat) (s : State) : rdN (listened s) a = rdN s a := rfl
theorem mgt_listened (s : State) : (listened s).mgt = { s.mgt with tripped := false } := rfl

/-- What a frame that was not ready leaves of the port it was sent to. -/
theorem underrun_released_shows (w : Nat) (s : State) :
    (mgtReleased (underrun w false (listened s))).mgt.lost = true
    ∧ (mgtReleased (underrun w false (listened s))).mgt.reply = s.mgt.reply
    ∧ (mgtReleased (underrun w false (listened s))).mgt.fseq = s.mgt.fseq
    ∧ rdN (mgtReleased (underrun w false (listened s))) R.mgtUnderrunCount = min (rdN s R.mgtUnderrunCount + 1) 0xFFFFFFFF := by
  rw [mgt_mgtReleased, mgt_underrun, mgt_listened, rdN_mgtReleased, rdN_underrun, rdN_listened]
  exact ⟨rfl, rfl, rfl, rfl⟩

theorem underrun_released_out (w : Nat) (s : State) :
    (mgtReleased (underrun w false (listened s))).out = s.out ++ [.mgt (List.replicate w s.mgt.lastWord)] := by
  rw [out_mgtReleased, out_underrun, out_listened, mgt_listened]

theorem underrun_released_alert (w : Nat) (s : State) :
    rbit (mgtReleased (underrun w false (listened s))) R.mgtEvents 0 = true
    ∧ rbit (mgtReleased (underrun w false (listened s))) R.glbAlertStatus 15 = true := by
  rw [rbit_mgtReleased, rbit_mgtReleased, underrun_eq]
  exact mgtFault_shows (by decide) (by decide) _

/-- UNDERRUN on a port that listens. -/
theorem mgtUnderrun_eq {w : Nat} (h : mgtListens s = true) (hw : s.mgt.wait = true ∨ now s < s.mgt.lateAt) :
    mgtUnderrun w s = mgtReleased (underrun w false (listened s)) := if_pos ⟨h, hw⟩

/-- A frame whose reply is not ready, with no point armed. -/
theorem mgtFrame_waiting (q : s.Quiet) (h : mgtListens s = true) (hw : s.mgt.wait = true) :
    mgtFrame f s = mgtReleased (underrun f.words.length false (listened s)) := by
  unfold mgtFrame
  rw [h, ← listened]
  have hv : (listened s).mgt.wait = true := hw
  have qv : (listened s).Quiet := q
  revert hv qv
  generalize listened s = v
  intro hv qv
  simp only [hv, if_true, awlFire_quiet qv, or_true, Bool.not_true, Bool.false_eq_true, if_false]

/-- The frame that finds a tripped port is ignored (R512). -/
theorem mgtFrame_ignored (h : mgtListens s = false) :
    mgtFrame f s = mgtReleased (modMgt (fun m => { m with lost := true }) s) := by
  unfold mgtFrame
  rw [h]
  exact if_pos rfl

/-- What the words of a frame cut by the watchdog do: the reply goes out, or it is not ready. -/
theorem mgtWatchdog_eq {w : Nat} (h : mgtListens s = true) :
    ∃ v, mgtWatchdog w s = watchdogTrip false v ∧ rdN v R.mgtWatchdogCount = rdN s R.mgtWatchdogCount := by
  refine ⟨if s.mgt.wait then underrun w false s else sendReply w s, if_pos h, ?_⟩
  split
  · exact rdN_underrun_watchdog w false s
  · unfold sendReply
    dsimp only
    split
    · rfl
    · exact rdN_congr rfl _

theorem watchdogTrip_shows (s : State) :
    (watchdogTrip false s).mgt.tripped = true ∧ (watchdogTrip false s).mgt.lost = true
    ∧ rbit (watchdogTrip false s) R.mgtEvents 3 = true ∧ rbit (watchdogTrip false s) R.glbAlertStatus 17 = true
    ∧ rdN (watchdogTrip false s) R.mgtWatchdogCount = min (rdN s R.mgtWatchdogCount + 1) 0xFFFFFFFF := by
  have hm : (watchdogTrip false s).mgt = (tripBegun s).mgt := markStable_mgt.mgtFault (by decide) _
  obtain ⟨hev, hal⟩ := mgtFault_shows (i := 17) (e := 3) (a := R.mgtWatchdogCount) (inj := false) (by decide) (by decide) (tripBegun s)
  exact ⟨congrArg MgtS.tripped hm, congrArg MgtS.lost hm, hev, hal, rdN_mgtFault_self (by decide) (by decide) _⟩

/-! ### Pushes as master (R515–R518) -/

theorem MarkStable.pushFail {α : Type} {g : State → α} (h : MarkStable g) (hp : ∀ x s, g { s with pushq := x } = g s) (s : State) :
    g (pushFail s) = g s := by
  unfold Machine.pushFail
  split
  · rfl
  · split
    · rw [h.ev, h.cnt, hp]
    · exact hp _ s

theorem rdN_pushFail {b : Nat} (h1 : b ≠ R.mgtEvents) (h2 : b ≠ R.mgtPushDropCount) (s : State) :
    rdN (pushFail s) b = rdN s b := by
  unfold pushFail
  split
  · rfl
  · split
    · rw [rdN_ev_ne h1, rdN_cnt_ne h2] <;> rfl
    · rfl

theorem rbit_pushFail_of {b j : Nat} (hb : b ≠ R.mgtPushDropCount) (h : rbit s b j = true) : rbit (pushFail s) b j = true := by
  unfold pushFail
  split
  · exact h
  · split
    · refine rbit_ev_of (by decide) ?_
      rw [rbit_cnt_ne hb]
      exact h
    · exact h

/-- The record has left the queue. -/
def recordLeft (l : List PRec) (s : State) : State := { s with pushq := l }

/-- A failed attempt, the first or the second of its record. -/
theorem pushFail_again (h : s.pushq = r :: l) (hr : r.tries ≠ 2) : pushFail s = { s with pushq := { r with tries := r.tries + 1 } :: l } := by
  unfold pushFail
  rw [h]
  exact if_neg hr

/-- The third failure drops the record (R517). -/
theorem pushFail_drops (h : s.pushq = r :: l) (hr : r.tries = 2) :
    pushFail s = ev R.mgtEvents 5 (cnt R.mgtPushDropCount (recordLeft l s)) := by
  unfold pushFail
  rw [h]
  exact if_pos hr

/-- A push frame has gone out. -/
def pushSent (r : PRec) (s : State) : State :=
  modMgt (fun m => { m with idleFrom := now s }) (emit (.mgtCs false) (emit (.push (pushFrame r)) (emit (.mgtCs true) s)))

theorem pushAttempt_eq (q : s.Quiet) (h : s.pushq = r :: l) (ack : Word) :
    pushAttempt ack s = if ack.toNat = 0x5A5A0000 + r.pseq then cnt R.mgtPushCount (recordLeft l (pushSent r s))
      else pushFail (pushSent r s) := by
  unfold pushAttempt
  rw [h]
  dsimp only
  rw [awlFire_quiet q, if_neg Bool.false_ne_true] <;> rfl

theorem out_pushSent (r : PRec) (s : State) :
    (pushSent r s).out = s.out ++ [.mgtCs true, .push (pushFrame r), .mgtCs false] := by
  show ((s.out ++ [_]) ++ [_]) ++ [_] = _
  simp only [List.append_assoc, List.cons_append, List.nil_append]

theorem out_pushAttempt (q : s.Quiet) (h : s.pushq = r :: l) (ack : Word) :
    (pushAttempt ack s).out = s.out ++ [.mgtCs true, .push (pushFrame r), .mgtCs false] := by
  rw [pushAttempt_eq q h, ← out_pushSent]
  split
  · exact markStable_out.cnt _ _
  · exact markStable_out.pushFail (fun _ _ => rfl) _

theorem regs_recordLeft (l : List PRec) (s : State) : (recordLeft l s).regs = s.regs := rfl

theorem regs_modMgt (f : MgtS → MgtS) (s : State) : (modMgt f s).regs = s.regs := rfl
theorem regs_emit (o : Out) (s : State) : (emit o s).regs = s.regs := rfl

theorem pushq_modMgt (f : MgtS → MgtS) (s : State) : (modMgt f s).pushq = s.pushq := rfl
theorem pushq_emit (o : Out) (s : State) : (emit o s).pushq = s.pushq := rfl

theorem pushq_pushSent (r : PRec) (s : State) : (pushSent r s).pushq = s.pushq := by
  unfold pushSent
  rw [pushq_modMgt, pushq_emit, pushq_emit, pushq_emit]

theorem regs_pushSent (r : PRec) (s : State) : (pushSent r s).regs = s.regs := by
  unfold pushSent
  rw [regs_modMgt, regs_emit, regs_emit, regs_emit]

theorem pushq_cnt_recordLeft (a : Nat) (l : List PRec) (s : State) : (cnt a (recordLeft l s)).pushq = l := rfl
theorem pushq_ev (a i : Nat) (s : State) : (ev a i s).pushq = s.pushq := rfl

theorem rdN_recordLeft (r : PRec) (l : List PRec) (s : State) (a : Nat) :
    rdN (cnt a (recordLeft l (pushSent r s))) a = min (rdN s a + 1) 0xFFFFFFFF := by
  have h : rdN (recordLeft l (pushSent r s)) a = rdN s a := rdN_congr ((regs_recordLeft _ _).trans (regs_pushSent _ _)) a
  rw [← h]
  exact rdN_cntBy a 1 _

theorem pushAttempt_acknowledged (q : s.Quiet) (h : s.pushq = r :: l) {ack : Word} (hk : ack.toNat = 0x5A5A0000 + r.pseq) :
    (pushAttempt ack s).pushq = l ∧ rdN (pushAttempt ack s) R.mgtPushCount = min (rdN s R.mgtPushCount + 1) 0xFFFFFFFF := by
  rw [pushAttempt_eq q h, if_pos hk]
  exact ⟨pushq_cnt_recordLeft _ _ _, rdN_recordLeft r l s R.mgtPushCount⟩

theorem pushAttempt_again (q : s.Quiet) (h : s.pushq = r :: l) {ack : Word} (hk : ack.toNat ≠ 0x5A5A0000 + r.pseq) (hr : r.tries ≠ 2) :
    (pushAttempt ack s).pushq = { r with tries := r.tries + 1 } :: l ∧ (pushAttempt ack s).regs = s.regs := by
  rw [pushAttempt_eq q h, if_neg hk, pushFail_again (s := pushSent r s) ((pushq_pushSent r s).trans h) hr]
  exact ⟨rfl, regs_pushSent r s⟩

theorem pushAttempt_drops (q : s.Quiet) (h : s.pushq = r :: l) {ack : Word} (hk : ack.toNat ≠ 0x5A5A0000 + r.pseq) (hr : r.tries = 2) :
    (pushAttempt ack s).pushq = l ∧ rbit (pushAttempt ack s) R.mgtEvents 5 = true
    ∧ rdN (pushAttempt ack s) R.mgtPushDropCount = min (rdN s R.mgtPushDropCount + 1) 0xFFFFFFFF := by
  rw [pushAttempt_eq q h, if_neg hk, pushFail_drops (s := pushSent r s) ((pushq_pushSent r s).trans h) hr]
  refine ⟨(pushq_ev _ _ _).trans (pushq_cnt_recordLeft _ _ _), rbit_ev _ _ _ (by decide), ?_⟩
  rw [rdN_ev_ne (by decide)]
  exact rdN_recordLeft r l s R.mgtPushDropCount

/-- A multi-master fault, before the attempt counts as failed. -/
def mmBegun (frame : Bool) (s : State) : State :=
  modMgt (fun m => { m with lost := m.lost || frame, idleFrom := now s }) (emit (.mgtCs false) (emit (.mgtCs true) s))

theorem mmFault_eq (frame inj : Bool) (s : State) :
    mmFault frame inj s = pushFail (mgtFault 16 2 R.mgtMmfaultCount inj (mmBegun frame s)) := rfl

theorem MarkStable.mmFault {α : Type} {g : State → α} (h : MarkStable g) (hp : ∀ x s, g { s with pushq := x } = g s)
    (frame inj : Bool) (s : State) : g (mmFault frame inj s) = g (mmBegun frame s) := by
  rw [mmFault_eq, h.pushFail hp, h.mgtFault (by decide)]

theorem lost_mmBegun (frame : Bool) (s : State) : (mmBegun frame s).mgt.lost = (s.mgt.lost || frame) := rfl

theorem out_mmBegun (frame : Bool) (s : State) : (mmBegun frame s).out = s.out ++ [.mgtCs true, .mgtCs false] :=
  List.append_assoc s.out [.mgtCs true] [.mgtCs false]

theorem regs_mmBegun (frame : Bool) (s : State) : (mmBegun frame s).regs = s.regs := by
  unfold mmBegun
  rw [regs_modMgt, regs_emit, regs_emit]

theorem mmFault_shows (frame : Bool) (s : State) :
    rbit (mmFault frame false s) R.mgtEvents 2 = true ∧ rbit (mmFault frame false s) R.glbAlertStatus 16 = true
    ∧ rdN (mmFault frame false s) R.mgtMmfaultCount = min (rdN s R.mgtMmfaultCount + 1) 0xFFFFFFFF
    ∧ (frame = true → (mmFault frame false s).mgt.lost = true)
    ∧ (mmFault frame false s).out = s.out ++ [.mgtCs true, .mgtCs false] := by
  have hm := markStable_mgt.mmFault (fun _ _ => rfl) frame false s
  have ho := markStable_out.mmFault (fun _ _ => rfl) frame false s
  obtain ⟨hev, hal⟩ := mgtFault_shows (i := 16) (e := 2) (a := R.mgtMmfaultCount) (inj := false) (by decide) (by decide) (mmBegun frame s)
  rw [hm, ho, out_mmBegun, lost_mmBegun, mmFault_eq, rdN_pushFail (by decide) (by decide), rdN_mgtFault_self (by decide) (by decide),
    rdN_congr (regs_mmBegun frame s)]
  exact ⟨rbit_pushFail_of (by decide) hev, rbit_pushFail_of (by decide) hal, rfl, fun hf => by rw [hf, Bool.or_true], rfl⟩

end

/-- Settles O58: each fault of the port is a count, an event bit and a detector over the state its transfer leaves. -/
theorem managementFaults : Obligations.ManagementFaults := by
  unfold Obligations.ManagementFaults
  intro s hs q
  refine ⟨fun w hl hw => ?_, fun f hl hw ha ho => ?_, fun w hl => ?_, fun f hl ha ho => ?_, fun ack r l hd hp => ?_, fun frame hd => ?_⟩
  · refine ⟨_, hs.run _, ?_⟩
    rw [mgtUnderrun_eq hl hw, commit_out, commit_mgt, commit_rbit, commit_rbit, commit_rdN]
    obtain ⟨h1, h2, h3, h4⟩ := underrun_released_shows w s
    obtain ⟨hev, hal⟩ := underrun_released_alert w s
    exact ⟨underrun_released_out w s, h1, h2, h3, hev, hal, h4⟩
  · have he : mgtOp (· == 0x10) f s = mgtFrame f s := by unfold mgtOp; rw [ha, ho]; exact if_pos rfl
    refine ⟨_, hs.run _, ?_⟩
    rw [he, mgtFrame_waiting q hl hw, commit_mgt, commit_rdN]
    obtain ⟨h1, h2, -, h4⟩ := underrun_released_shows f.words.length s
    exact ⟨h1, h2, h4⟩
  · obtain ⟨v, hv, hc⟩ := mgtWatchdog_eq (w := w) hl
    refine ⟨_, hs.run _, ?_⟩
    rw [hv, commit_mgt, commit_rbit, commit_rbit, commit_rdN, ← hc]
    exact watchdogTrip_shows v
  · have he : mgtOp (fun o => decide (o ≤ 0x0F)) f s = mgtFrame f s := by
      unfold mgtOp; rw [ha]; exact if_pos (decide_eq_true ho)
    refine ⟨_, hs.run _, ?_⟩
    rw [he, mgtFrame_ignored hl, commit_mgt, commit_out, commit_regs]
    exact ⟨rfl, rfl, rfl, rfl, rfl⟩
  · refine ⟨_, hs.run_whenB hd _, ?_⟩
    rw [commit_out, commit_rdN, commit_rdN, commit_rbit, commit_regs]
    exact ⟨out_pushAttempt q hp ack, pushAttempt_acknowledged q hp, pushAttempt_again q hp, pushAttempt_drops q hp⟩
  · refine ⟨_, hs.run_whenB hd _, ?_⟩
    rw [commit_rbit, commit_rbit, commit_rdN, commit_mgt, commit_out]
    exact mmFault_shows frame s

end Sys2Proof.Machine
end
